-- ==== Sys2Proof/Word.lean ====
section
/-! DEFINITION. Word.lean: the word types of the part and their plainest arithmetic (R3, R9). -/

namespace Sys2Proof

/-- A byte of any memory. -/
abbrev Byte := BitVec 8

/-- A 64-bit word: a scalar register, a frame word, a system register. -/
abbrev Word := BitVec 64

/-- A 16-bit halfword of an instruction line. -/
abbrev Half := BitVec 16

/-- A 512-bit vector register or a 64-byte piece of memory. -/
abbrev Line64 := BitVec 512

end Sys2Proof
end

