-- ==== Sys2Proof/Syntax.lean ====
section
/-! DEFINITION. Syntax.lean: the types that instruction fields denote and the one inductive of instructions and
events, one constructor per row of the opcode table. Register numbers stay the bit fields the heads and tails hold. -/

namespace Sys2Proof

/-- A scalar register number (R34). -/
abbrev XReg := BitVec 5
/-- A vector register number (R34). -/
abbrev VReg := BitVec 4
/-- A predicate register number (R34). -/
abbrev QReg := BitVec 3
/-- An accumulator number (R36). -/
abbrev AccReg := BitVec 3
/-- A format register number (R36). -/
abbrev FmtReg := BitVec 4
/-- A frame word index or load/store field of nine bits (R43, R149). -/
abbrev FWord := BitVec 9
/-- A load/store identifier (R28). -/
abbrev LsId := BitVec 5

/-- The guard of an instruction (R26). -/
structure Guard where
  pred : QReg
  pol : Bool
  deriving DecidableEq, Repr

/-- The types of R5, in the order of their codes in R25. -/
inductive Ty where
  | f64 | f32 | bf16 | f16 | s8 | s16 | s32 | s64 | z8 | z16 | z32 | z64
  deriving DecidableEq, Repr

/-- The type bit of a floating-point modifier (R25). -/
inductive FTy where
  | f64 | f32
  deriving DecidableEq, Repr

/-- The rounding modes of R25. -/
inductive Rm where
  | rne | rtz | rup | rdn | rna
  deriving DecidableEq, Repr

/-- The scopes of R24 and R230. -/
inductive Scope where
  | core | tile | grp | sgp | pkg | sys
  deriving DecidableEq, Repr

/-- The conditions of `fcmp` and `vfcmp` (R187). -/
inductive FCond where
  | eq | lt | le | un | ne
  deriving DecidableEq, Repr

/-- The conditions of `vcmp` (R193). -/
inductive ICond where
  | eq | ne | lt | le
  deriving DecidableEq, Repr

/-- The variants of `fsgnj` (R188). -/
inductive SgnVar where
  | sgnj | sgnjn | sgnjx
  deriving DecidableEq, Repr

/-- The operations of `vscan` and of the vector reductions (R195, R196). -/
inductive RedOp where
  | sum | min | max
  deriving DecidableEq, Repr

/-- The atomic operations of R162. -/
inductive AmoOp where
  | add | and | or | xor | min | max | swap | cas
  deriving DecidableEq, Repr

/-- The slot field of R149 without its instruction-defined bits. -/
structure SlotField where
  fresh : Bool
  sv : Bool
  slot : FWord
  deriving DecidableEq, Repr

/-- URG and SCOPE of a packet-producing instruction (R24, R152). -/
structure PktMod where
  urg : BitVec 4
  scope : Scope
  deriving DecidableEq, Repr

/-- Branch conditions of RV64I (R84). -/
inductive RvBr where
  | beq | bne | blt | bge | bltu | bgeu
  deriving DecidableEq, Repr

/-- Load forms of RV64I. -/
inductive RvLd where
  | lb | lh | lw | ld | lbu | lhu | lwu
  deriving DecidableEq, Repr

/-- Store forms of RV64I. -/
inductive RvSt where
  | sb | sh | sw | sd
  deriving DecidableEq, Repr

/-- Immediate arithmetic of RV64I with a 12-bit immediate. -/
inductive RvImm where
  | addi | slti | sltiu | xori | ori | andi
  deriving DecidableEq, Repr

/-- Shifts by an immediate, 64-bit. -/
inductive RvSh where
  | slli | srli | srai
  deriving DecidableEq, Repr

/-- Shifts by an immediate, 32-bit. -/
inductive RvShW where
  | slliw | srliw | sraiw
  deriving DecidableEq, Repr

/-- Register arithmetic of RV64I and RV64M. -/
inductive RvOp where
  | add | sub | sll | slt | sltu | xor | srl | sra | or | and
  | mul | mulh | mulhsu | mulhu | div | divu | rem | remu
  deriving DecidableEq, Repr

/-- 32-bit register arithmetic of RV64I and RV64M. -/
inductive RvOpW where
  | addw | subw | sllw | srlw | sraw | mulw | divw | divuw | remw | remuw
  deriving DecidableEq, Repr

/-- A base RV64IM instruction (R84: no Zicsr, no Zifencei, no privileged architecture). -/
inductive RvInstr where
  | lui (rd : XReg) (imm : BitVec 20)
  | auipc (rd : XReg) (imm : BitVec 20)
  | jal (rd : XReg) (imm : BitVec 20)
  | jalr (rd rs1 : XReg) (imm : BitVec 12)
  | br (op : RvBr) (rs1 rs2 : XReg) (imm : BitVec 12)
  | load (op : RvLd) (rd rs1 : XReg) (imm : BitVec 12)
  | store (op : RvSt) (rs1 rs2 : XReg) (imm : BitVec 12)
  | imm (op : RvImm) (rd rs1 : XReg) (imm : BitVec 12)
  | sh (op : RvSh) (rd rs1 : XReg) (sh : BitVec 6)
  | addiw (rd rs1 : XReg) (imm : BitVec 12)
  | shw (op : RvShW) (rd rs1 : XReg) (sh : BitVec 5)
  | op (op : RvOp) (rd rs1 rs2 : XReg)
  | opw (op : RvOpW) (rd rs1 rs2 : XReg)
  | fence (rd rs1 : XReg) (imm : BitVec 12)
  | ecall
  | ebreak
  deriving DecidableEq, Repr

/-- A base instruction as fetched: in 32 bits, or a compressed form of 16 bits with the base
instruction it stands for (RV64C). -/
inductive RvWord where
  | full (i : RvInstr)
  | comp (h : Half) (i : RvInstr)
  deriving DecidableEq, Repr

/-- The parties that may attach (R346). -/
inductive Party where
  | port0 | port1 | bmc
  deriving DecidableEq, Repr

/-- The virtual channels (R283). -/
inductive VC where
  | req | rsp | enq | sys
  deriving DecidableEq, Repr

/-- The parts of a termination sweep (R319): the root opens it, each node answers when the sweep reaches it,
the root forms the sums and decides. -/
inductive SweepPart where
  | start
  | node (n : Nat)
  | decide
  deriving DecidableEq, Repr

/-- One constructor per row of spec/opcode_table.json. Operands are the fields of the instruction, or, for an
event, the agent it happens at and what arrives from outside the part. -/
inductive Instr where
  -- block execution, R29, R30, R371
  | blockExecute (core ctx : Nat)
  | blockCommit (core ctx : Nat)
  | lineFetch (core ctx : Nat)
  | lineFetchArrival (core : Nat)
  -- control, R258 to R276
  | endT (g : Guard)
  | next (g : Guard)
  | nop (g : Guard)
  | bEq (g : Guard) (a b : XReg) (disp : BitVec 32)
  | bNe (g : Guard) (a b : XReg) (disp : BitVec 32)
  | bLt (g : Guard) (a b : XReg) (disp : BitVec 32)
  | bGe (g : Guard) (a b : XReg) (disp : BitVec 32)
  | bLtu (g : Guard) (a b : XReg) (disp : BitVec 32)
  | bGeu (g : Guard) (a b : XReg) (disp : BitVec 32)
  | bLtz (g : Guard) (a : XReg) (disp : BitVec 32)
  | bGez (g : Guard) (a : XReg) (disp : BitVec 32)
  | bqAny (g : Guard) (a : QReg) (disp : BitVec 32)
  | bqAll (g : Guard) (a : QReg) (disp : BitVec 32)
  | jal (g : Guard) (d : XReg) (disp : BitVec 32)
  | jr (g : Guard) (a : XReg)
  | loop (g : Guard) (c : XReg) (disp : BitVec 32)
  | loopi (g : Guard) (n : Half) (disp : BitVec 32)
  | sarm (g : Guard) (prio : BitVec 2) (c : XReg) (i : BitVec 5) (word : FWord) (entry : BitVec 32)
  | sig (g : Guard) (f : XReg) (urg : BitVec 4) (w : FWord) (n : BitVec 8)
  | sigw (g : Guard) (f v : XReg) (urg : BitVec 4) (w : FWord) (n : BitVec 8) (d : FWord)
  | sigv (g : Guard) (f : XReg) (v : VReg) (urg : BitVec 4) (w : FWord) (n : BitVec 8) (d : FWord)
  | falloc (g : Guard) (d : XReg) (cls : BitVec 2)
  | ffree (g : Guard) (f : XReg)
  | fpin (g : Guard) (f : XReg)
  | funpin (g : Guard) (f : XReg)
  | spawn (g : Guard) (c a : XReg) (urg : BitVec 4) (cls prio : BitVec 2) (k : BitVec 4) (entry : BitVec 32)
  | tspawn (g : Guard) (a : XReg) (k : BitVec 4) (entry : BitVec 32)
  | launch (g : Guard) (d a : XReg) (urg : BitVec 4) (sf : SlotField)
  | rbar (g : Guard) (p : PktMod) (lw lh : BitVec 3) (sf : SlotField)
  | rid (g : Guard) (d : XReg) (idx : BitVec 5)
  | fld (g : Guard) (d i : XReg) (w : FWord) (id : LsId)
  | fst (g : Guard) (i s : XReg) (w : FWord) (id : LsId)
  | fldv (g : Guard) (d : VReg) (i : XReg) (w : FWord) (id : LsId)
  | fstv (g : Guard) (i : XReg) (s : VReg) (w : FWord) (id : LsId)
  | trap (g : Guard) (code : Half)
  | brk (g : Guard) (code : Half)
  | tresume (g : Guard) (p : XReg)
  -- scalar integer, R177 to R183
  | add (g : Guard) (d a b : XReg)
  | sub (g : Guard) (d a b : XReg)
  | mul (g : Guard) (d a b : XReg)
  | mulh (g : Guard) (d a b : XReg)
  | mulhu (g : Guard) (d a b : XReg)
  | div (g : Guard) (d a b : XReg)
  | divu (g : Guard) (d a b : XReg)
  | rem (g : Guard) (d a b : XReg)
  | remu (g : Guard) (d a b : XReg)
  | min (g : Guard) (d a b : XReg)
  | max (g : Guard) (d a b : XReg)
  | minu (g : Guard) (d a b : XReg)
  | maxu (g : Guard) (d a b : XReg)
  | and (g : Guard) (d a b : XReg)
  | or (g : Guard) (d a b : XReg)
  | xor (g : Guard) (d a b : XReg)
  | andn (g : Guard) (d a b : XReg)
  | sll (g : Guard) (d a b : XReg)
  | srl (g : Guard) (d a b : XReg)
  | sra (g : Guard) (d a b : XReg)
  | rol (g : Guard) (d a b : XReg)
  | ror (g : Guard) (d a b : XReg)
  | clz (g : Guard) (d a : XReg)
  | ctz (g : Guard) (d a : XReg)
  | popc (g : Guard) (d a : XReg)
  | bswap (g : Guard) (d a : XReg)
  | seq (g : Guard) (d a b : XReg)
  | sne (g : Guard) (d a b : XReg)
  | slt (g : Guard) (d a b : XReg)
  | sltu (g : Guard) (d a b : XReg)
  | sext (g : Guard) (d a : XReg) (ty : Ty)
  | zext (g : Guard) (d a : XReg) (ty : Ty)
  | bfx (g : Guard) (d a : XReg) (lenm1 pos : BitVec 6)
  | bfxu (g : Guard) (d a : XReg) (lenm1 pos : BitVec 6)
  | bfi (g : Guard) (d a b : XReg) (lenm1 pos : BitVec 6)
  | sel (g : Guard) (d a b c : XReg)
  | addi (g : Guard) (d a : XReg) (imm : Half)
  | andi (g : Guard) (d a : XReg) (imm : Half)
  | ori (g : Guard) (d a : XReg) (imm : Half)
  | xori (g : Guard) (d a : XReg) (imm : Half)
  | slli (g : Guard) (d a : XReg) (sh : BitVec 6)
  | srli (g : Guard) (d a : XReg) (sh : BitVec 6)
  | srai (g : Guard) (d a : XReg) (sh : BitVec 6)
  | slti (g : Guard) (d a : XReg) (imm : Half)
  | sltiu (g : Guard) (d a : XReg) (imm : Half)
  | lea (g : Guard) (d b i : XReg) (s : BitVec 4) (off : BitVec 32)
  | li (g : Guard) (d : XReg) (imm : BitVec 32)
  | lih (g : Guard) (d a : XReg) (imm : BitVec 32)
  | mov (g : Guard) (d a : XReg)
  -- scalar floating point, R185 to R189
  | fadd (g : Guard) (d a b : XReg) (ty : FTy) (rm : Rm)
  | fsub (g : Guard) (d a b : XReg) (ty : FTy) (rm : Rm)
  | fmul (g : Guard) (d a b : XReg) (ty : FTy) (rm : Rm)
  | fdiv (g : Guard) (d a b : XReg) (ty : FTy) (rm : Rm)
  | fsqrt (g : Guard) (d a : XReg) (ty : FTy) (rm : Rm)
  | fma (g : Guard) (d a b c : XReg) (ty : FTy) (rm : Rm)
  | fmin (g : Guard) (d a b : XReg) (ty : FTy)
  | fmax (g : Guard) (d a b : XReg) (ty : FTy)
  | fcmp (g : Guard) (d a b : XReg) (ty : FTy) (c : FCond)
  | fclass (g : Guard) (d a : XReg) (ty : FTy)
  | fsgnj (g : Guard) (d a b : XReg) (ty : FTy) (v : SgnVar)
  | fcvt (g : Guard) (d a : XReg) (dt st : Ty) (rm : Rm)
  -- vector and predicate, R191 to R202
  | vfadd (g : Guard) (d a b : VReg) (ty : FTy) (rm : Rm)
  | vfsub (g : Guard) (d a b : VReg) (ty : FTy) (rm : Rm)
  | vfmul (g : Guard) (d a b : VReg) (ty : FTy) (rm : Rm)
  | vfma (g : Guard) (d a b c : VReg) (ty : FTy) (rm : Rm)
  | vfmin (g : Guard) (d a b : VReg) (ty : FTy)
  | vfmax (g : Guard) (d a b : VReg) (ty : FTy)
  | vfdiv (g : Guard) (d a b : VReg) (ty : FTy) (rm : Rm)
  | vfsqrt (g : Guard) (d a : VReg) (ty : FTy) (rm : Rm)
  | vadd (g : Guard) (d a b : VReg) (ty : Ty) (sat : Bool)
  | vsub (g : Guard) (d a b : VReg) (ty : Ty) (sat : Bool)
  | vmul (g : Guard) (d a b : VReg) (ty : Ty)
  | vmulh (g : Guard) (d a b : VReg) (ty : Ty)
  | vmin (g : Guard) (d a b : VReg) (ty : Ty)
  | vmax (g : Guard) (d a b : VReg) (ty : Ty)
  | vand (g : Guard) (d a b : VReg) (ty : Ty)
  | vor (g : Guard) (d a b : VReg) (ty : Ty)
  | vxor (g : Guard) (d a b : VReg) (ty : Ty)
  | vsll (g : Guard) (d a b : VReg) (ty : Ty)
  | vsrl (g : Guard) (d a b : VReg) (ty : Ty)
  | vsra (g : Guard) (d a b : VReg) (ty : Ty)
  | vfcmp (g : Guard) (d : QReg) (a b : VReg) (ty : FTy) (c : FCond)
  | vcmp (g : Guard) (d : QReg) (a b : VReg) (ty : Ty) (c : ICond)
  | vsel (g : Guard) (d a b : VReg) (m : QReg) (ty : Ty)
  | vredsum (g : Guard) (d : XReg) (a : VReg) (ty : Ty)
  | vredmin (g : Guard) (d : XReg) (a : VReg) (ty : Ty)
  | vredmax (g : Guard) (d : XReg) (a : VReg) (ty : Ty)
  | vscan (g : Guard) (d a : VReg) (ty : Ty) (op : RedOp)
  | vperm (g : Guard) (d a b : VReg) (ty : Ty)
  | vbcast (g : Guard) (d : VReg) (s : XReg) (ty : Ty)
  | vext (g : Guard) (d : XReg) (a : VReg) (i : XReg) (ty : Ty)
  | vins (g : Guard) (d : VReg) (s i : XReg) (ty : Ty)
  | vcompress (d a : VReg) (m : QReg) (ty : Ty)
  | vexpand (d a : VReg) (m : QReg) (ty : Ty)
  | vcvt (g : Guard) (d a : VReg) (dt st : Ty) (rm : Rm) (h : Bool)
  | vexp2 (g : Guard) (d a : VReg) (rm : Rm)
  | vrcp (g : Guard) (d a : VReg) (rm : Rm)
  | vrsqrt (g : Guard) (d a : VReg) (rm : Rm)
  | pmaskLt (g : Guard) (d : QReg) (a b : XReg) (ty : Ty)
  | pand (g : Guard) (d a b : QReg)
  | por (g : Guard) (d a b : QReg)
  | pxor (g : Guard) (d a b : QReg)
  | pnot (g : Guard) (d a : QReg)
  | pcnt (g : Guard) (d : XReg) (a : QReg)
  | pfirst (g : Guard) (d : XReg) (a : QReg)
  -- operand movement, R144 to R172
  | ld (g : Guard) (d b : XReg) (ty : Ty) (id : LsId) (off : BitVec 32)
  | st (g : Guard) (b s : XReg) (ty : Ty) (id : LsId) (off : BitVec 32)
  | vld (g : Guard) (d : VReg) (b : XReg) (ty : Ty) (id : LsId) (off : BitVec 32)
  | vst (g : Guard) (b : XReg) (s : VReg) (ty : Ty) (id : LsId) (off : BitVec 32)
  | vldf (g : Guard) (d : VReg) (b : XReg) (fmt : FmtReg) (id : LsId) (start : BitVec 10)
  | vstq (g : Guard) (b : XReg) (s : VReg) (fmt : FmtReg) (id : LsId) (start : BitVec 10) (topk : Bool)
  | get (g : Guard) (a : XReg) (fw : FWord) (ty : Ty) (p : PktMod) (sf : SlotField)
  | put (g : Guard) (a : XReg) (fw : FWord) (ty : Ty) (p : PktMod) (sf : SlotField)
  | vget (g : Guard) (a : XReg) (fw : FWord) (p : PktMod) (sf : SlotField)
  | vput (g : Guard) (a : XReg) (fw : FWord) (p : PktMod) (sf : SlotField)
  | copy (g : Guard) (d s n : XReg) (p : PktMod) (sf : SlotField)
  | gather (g : Guard) (d b : XReg) (v : VReg) (esz : BitVec 4) (bound : Half) (nm1 : BitVec 5) (p : PktMod) (sf : SlotField)
  | scatter (g : Guard) (b s : XReg) (v : VReg) (esz : BitVec 4) (bound : Half) (nm1 : BitVec 5) (p : PktMod) (sf : SlotField)
  | amsg (g : Guard) (a r : XReg) (prio : BitVec 2) (k : BitVec 4) (p : PktMod) (entry : BitVec 32)
  | own (g : Guard) (m c : XReg) (fw : FWord) (p : PktMod) (sf : SlotField)
  | ldfe (g : Guard) (a : XReg) (fw : FWord) (p : PktMod) (sf : SlotField)
  | stef (g : Guard) (a v : XReg) (p : PktMod) (sf : SlotField)
  | tagf (g : Guard) (a : XReg) (p : PktMod) (sf : SlotField)
  | tage (g : Guard) (a : XReg) (p : PktMod) (sf : SlotField)
  | amoAdd (g : Guard) (a v : XReg) (fw : FWord) (ty : Ty) (p : PktMod) (sf : SlotField)
  | amoAnd (g : Guard) (a v : XReg) (fw : FWord) (ty : Ty) (p : PktMod) (sf : SlotField)
  | amoOr (g : Guard) (a v : XReg) (fw : FWord) (ty : Ty) (p : PktMod) (sf : SlotField)
  | amoXor (g : Guard) (a v : XReg) (fw : FWord) (ty : Ty) (p : PktMod) (sf : SlotField)
  | amoMin (g : Guard) (a v : XReg) (fw : FWord) (ty : Ty) (p : PktMod) (sf : SlotField)
  | amoMax (g : Guard) (a v : XReg) (fw : FWord) (ty : Ty) (p : PktMod) (sf : SlotField)
  | amoSwap (g : Guard) (a v : XReg) (fw : FWord) (ty : Ty) (p : PktMod) (sf : SlotField)
  | amoCas (g : Guard) (a v c : XReg) (fw : FWord) (ty : Ty) (p : PktMod) (sf : SlotField)
  | redAdd (g : Guard) (a v : XReg) (ty : Ty) (p : PktMod)
  | redMin (g : Guard) (a v : XReg) (ty : Ty) (p : PktMod)
  | redMax (g : Guard) (a v : XReg) (ty : Ty) (p : PktMod)
  | csnap (g : Guard) (a : XReg) (fw : FWord) (p : PktMod) (sf : SlotField)
  | fenceRel (g : Guard) (scope : Scope)
  | fenceAcq (g : Guard) (scope : Scope)
  | sigRel (g : Guard) (f : XReg) (w : FWord) (n : BitVec 8) (p : PktMod)
  | enq (g : Guard) (d q r : XReg) (k : BitVec 4) (p : PktMod) (sf : SlotField)
  | enqA (g : Guard) (d q r : XReg) (k : BitVec 4) (p : PktMod) (sf : SlotField)
  | deq (g : Guard) (d q : XReg) (fw : FWord) (k : BitVec 4) (p : PktMod) (fresh : Bool)
  | stgClaim (g : Guard) (r s : XReg)
  | stgFree (g : Guard) (r s : XReg)
  -- matrix, R206 to R225, and format registers, R143
  | mma (g : Guard) (d : AccReg) (a b : XReg) (k : BitVec 4) (p : PktMod) (sf : SlotField)
  | mmaF32 (g : Guard) (d : AccReg) (a b : XReg) (k : BitVec 4) (p : PktMod) (sf : SlotField)
  | mmaF64 (g : Guard) (d : AccReg) (a b : XReg) (k : BitVec 4) (p : PktMod) (sf : SlotField)
  | mmag (g : Guard) (d : AccReg) (a b : XReg) (v : VReg) (k : BitVec 4) (p : PktMod) (sf : SlotField)
  | mmas (g : Guard) (d : AccReg) (a b : XReg) (k : BitVec 4) (p : PktMod) (sf : SlotField)
  | mscan (g : Guard) (d : AccReg) (a b t : XReg) (p : PktMod) (sf : SlotField)
  | mscanSeg (g : Guard) (d : AccReg) (a b t : XReg) (p : PktMod) (sf : SlotField)
  | accGet (g : Guard) (d : AccReg)
  | accGive (g : Guard) (d : AccReg)
  | accZero (g : Guard) (d : AccReg)
  | accLd (g : Guard) (d : AccReg) (a : XReg) (nm1 : BitVec 5) (ty : Ty) (p : PktMod) (sf : SlotField)
  | accSt (g : Guard) (a : XReg) (s : AccReg) (nm1 : BitVec 5) (ty : Ty) (p : PktMod) (sf : SlotField)
  | accAdd (g : Guard) (d s : AccReg) (ty : FTy)
  | accRed (g : Guard) (d s : AccReg) (ty : FTy)
  | qtile (g : Guard) (a : XReg) (s : AccReg) (fmt : FmtReg) (topk : Bool) (p : PktMod) (sf : SlotField)
  | fmtSet (g : Guard) (n : FmtReg) (s : XReg)
  | fmtGet (g : Guard) (d : XReg) (n : FmtReg)
  -- system, R278, R279
  | sysr (g : Guard) (d : XReg) (n : BitVec 5)
  | sysw (g : Guard) (n : BitVec 5) (s : XReg)
  | ctrRd (g : Guard) (d : XReg) (n : BitVec 4)
  | ctrCfg (g : Guard) (n : BitVec 4) (s : XReg)
  -- loader and storer cores, R84 to R102
  | rv64imcInstruction (w : RvWord)
  | cpGo (d a : XReg)
  | cpWait (d a b : XReg)
  | cpStat (d a : XReg)
  | lsSig (a b : XReg)
  | lsRid (d : XReg) (i : BitVec 12)
  | lsEnd
  | stgAcq (d a b : XReg)
  | stgTry (d a b : XReg)
  | stgRd (d a b : XReg)
  | epRd (d a : XReg) (i : BitVec 12)
  | lsLdw (d a b : XReg)
  | lsStw (a b : XReg)
  | cpGoChannelStart (core : Nat) (storer : Bool)
  | cpWaitResume (core : Nat) (storer : Bool)
  | stgAcqResume (core : Nat) (storer : Bool)
  | copyBeatComplete (core : Nat)
  -- slices, R57 to R79
  | sliceRequest (slice : Nat)
  | mergeWindowClose (slice : Nat)
  | lineFill (slice : Nat)
  | redInjectRelease (core : Nat)
  | stcInvAll (p : Party) (slice : Nat) (v : Word)
  | stcInvSid (p : Party) (slice : Nat) (v : Word)
  | stcInvPage (p : Party) (slice : Nat) (v : Word)
  | stcInvWriteback (slice : Nat)
  | stcInvComplete (slice : Nat)
  | faultReplay (p : Party) (slice : Nat) (ticket : BitVec 20)
  | faultFatal (p : Party) (slice : Nat) (ticket : BitVec 20)
  -- banks and frames, R111 to R124
  | bankRequest (core : Nat)
  | bankReplay (core ctx : Nat)
  | feRetry (core : Nat)
  | spillAcknowledged (core : Nat)
  | framePacketArrival (core : Nat)
  | forwardedSignal (slice : Nat)
  | refillRequest (core : Nat)
  | refillReadComplete (core : Nat)
  | refillInstall (core : Nat)
  | replyDelivery (core : Nat)
  -- tokens, messages, queues, R158 to R171, R247, R248, R271, R274
  | tokenBind (core : Nat)
  | tokenPromotion (core : Nat)
  | amsgArrival (core : Nat)
  | amsgRetry (core : Nat)
  | spawnArrival (core : Nat)
  | spawnRetry (core : Nat)
  | enqEntryArrival (core : Nat)
  | enqBufferRelease (core : Nat)
  | creditArrival (core : Nat)
  | heldPacketRelease (core : Nat)
  | rbarArrival (core : Nat)
  | rbarCompletion (core : Nat)
  | matrixRequest (core : Nat)
  | matrixRequestComplete (core : Nat)
  -- donation, R272, R313 to R316
  | taskPush (unit : Nat)
  | pop (core : Nat) (lid : BitVec 32)
  | popDelivery (core : Nat)
  | popRetry (core : Nat)
  | stealRequest (unit : Nat)
  | stealReply (unit : Nat)
  | stealRetry (unit : Nat) (lid : BitVec 32)
  -- fabric, R282 to R298
  | packetArrivalRouter (router port : Nat)
  | routerGrant (router port : Nat) (vc : VC)
  | slackTick (router : Nat)
  | slackExhaustion (router : Nat)
  | packetDelivery (router : Nat)
  | flitReceive (router port lane : Nat) (err : BitVec 560)
  | nackReceive (router port lane : Nat)
  | ackReceive (router port lane : Nat)
  | laneRetire (router port lane : Nat)
  | creditResyncSend (router port lane : Nat)
  | creditResyncReceive (router port lane : Nat)
  -- distributor, R252 to R255, R299 to R325
  | launchSubmit (p : Party) (w1 : Word)
  | launchSubmission
  | descriptorReadComplete (lid : BitVec 32)
  | poolReservationRequest (core : Nat) (lid : BitVec 32)
  | placementDecision
  | reservingTimeout (lid : BitVec 32)
  | terminationSweep (part : SweepPart)
  | hangTimeout (lid : BitVec 32)
  | faultedEnd (lid : BitVec 32)
  | faultRecordAppend (k : Nat)
  | powerLevelApply
  | supergroupPowerOff (g : Nat)
  | wakeComplete (lid : BitVec 32)
  -- Dusk wave and debugger, R330 to R340
  | duskWave (p : Party) (lid : BitVec 32)
  | freezeInPlace (p : Party) (lid : BitVec 32)
  | thaw (p : Party) (lid : BitVec 32)
  | restore (p : Party) (lid : BitVec 32)
  | waveDrainComplete
  | waveFailure
  | restoreForward (core : Nat)
  | dbgGo (p : Party) (v : Word)
  | dbgGoLoader (p : Party) (v : Word)
  -- host link and the I/O die, R343 to R355
  | hostAccess (p : Party) (addr : Word) (bytes : Nat) (write atomic : Bool) (data : Line64)
  | ingressWrite (p : Party) (addr : Word) (bytes : Nat) (v : Word)
  | ingressClose (lid : BitVec 32) (ep : Nat)
  | ownershipClaim (p : Party) (nonce : BitVec 32)
  | ownHandover (p : Party) (target : BitVec 2)
  | ownRelease (p : Party)
  | ownerTimeout
  | budgetWrite (p : Party) (v : Word)
  | daybreak
  | svnBurn (p : Party) (v : Word)
  | attestationRequest (p : Party)
  | attestationComplete
  | spaceRetire (p : Party) (v : Word)
  | spaceRetireComplete
  | cfgDataRead (p : Party)
  | cfgDataWrite (p : Party) (v : Word)
  | windowAccess (core : Nat)
  | registerWrite (p : Party) (off : Nat) (v : Word)
  | copyBeatIssue (core : Nat)
  | placementReadComplete (lid : BitVec 32)
  | zeroisationComplete (lid : BitVec 32)
  | hostInvalidationComplete (sid : BitVec 16) (va : Word)
  | managementHeartbeat
  | linkTraining (p : Party) (base : Word)
  | creditCountSoftError (router port lane : Nat) (v : Nat)
  deriving DecidableEq, Repr

end Sys2Proof
end

