-- ==== Sys2Proof/Config.lean ====
section
/-! DEFINITION. Config.lean: what the spec leaves open for the implementation, as opaque constants without a body,
and the turns of the model's agents. Each constant is named in a log entry of notes/assumptions. -/

namespace Sys2Proof

/-- What happens next in the model's one sequence of steps (log 1): an issue context goes on, a loader or storer core
goes on, an event of the opcode table takes place, or a clock advances. -/
inductive Turn where
  | ctx (core k : Nat)
  | ls (core : Nat) (storer : Bool)
  | ev (i : Instr)
  | aCycle
  | fCycle
  deriving DecidableEq, Repr, Inhabited

namespace Config

/-- A value the spec leaves free, one for each count of `State.tick` (log 5). -/
opaque freeWord : Nat → Word

/-- The turn that comes when the list of turns is empty, one for each count of `State.tick` (log 1). -/
opaque freeTurn : Nat → Turn

/-- Is a context's next head not ready to issue in an A-cycle: its operands' latencies, which the model does not keep (R14, R111,
log 66). Of a core, a context and an A-cycle. -/
opaque unready : Nat → Nat → Nat → Bool

/-- Is a launch of another package privileged, by package and launch id (R50, log 73)? No field of a packet says so. -/
opaque farPrivileged : BitVec 18 → BitVec 32 → Bool

/-- Does the address lookup that a request of another package went by give NOALLOC, by package, launch id and address (R55, R59,
log 73)? No field of a packet says so. -/
opaque farNoAlloc : BitVec 18 → BitVec 32 → Word → Bool

/-- Which entry of a router's route table the configuration network reaches at an offset of the core's window that R50 reserves,
if any: 0 to 63 the columns, 64 to 95 the rows (R286, log 74). -/
opaque routeEntry : Nat → Option Nat

/-- The capacity of one board-memory channel in bytes, which the fitted modules give (R52, log 11). -/
opaque boardChannelBytes : Nat

/-- The package identity that the BMC supplies at Daybreak (R18, R351, log 10). -/
opaque packageId : BitVec 18

/-- The operation field of a packet (R284), which the spec does not lay out: of its kind, the number of its operation and the
code of its type (log 13). -/
opaque opField : Nat → Nat → Nat → BitVec 11

/-- SHA-256 (R351), named by the spec and defined by its own standard: an uninterpreted function (log 10). -/
opaque sha256 : List Byte → BitVec 256

/-- SLH-DSA-SHA2-128s verification of a firmware image: key, message, signature (R351, log 10). -/
opaque slhVerify : List Byte → List Byte → List Byte → Bool

/-- SLH-DSA-SHA2-128s signing of an attestation report (R352, log 10). -/
opaque slhSign : List Byte → List Byte → List Byte

/-- The SLH-DSA-SHA2-128s public key that the three seeds give (R351, R352, log 10). -/
opaque slhPublic : List Byte → List Byte

/-- HKDF-SHA-256: secret, salt, info, length (R351, log 10). -/
opaque hkdf : List Byte → List Byte → List Byte → Nat → List Byte

/-- How a firmware image lies in bytes: key, version, body, signature; with the signature empty, the header and body that are
signed (R351, log 10). -/
opaque imageBytes : List Byte → Nat → List Byte → List Byte → List Byte

/-- How the first 64 bytes of an attestation report hold its fields: package identity, SVN count, image count, owner, epoch
(R352, log 10). -/
opaque attHead : BitVec 18 → Nat → Nat → Nat → Nat → List Byte

/-- The device secret DSEED in the fuses, which no party can read (R351, log 10). -/
opaque dseed : List Byte

/-- The fuse hash VKH of the vendor's public key (R351, log 10). -/
opaque vkh : BitVec 256

end Config

end Sys2Proof
end

