-- ==== Sys2Proof/Decode.lean ====
section
/-! DEFINITION. Decode.lean: from the bits of a head and its tail to an instruction (R22-R26, R39, R40 and the layouts
of R143-R258), from the bits a loader or storer core fetches to an instruction (R84, R95, R96), rejecting by name;
then the encoders, from the same tables. -/

namespace Sys2Proof

/-- Why an encoding is no instruction: each raises the illegal-instruction trap at decode (R40). -/
inductive Illegal where
  | unassignedMajor | permanentlyIllegal | reservedMinor | badTailCode | reservedGuard | reservedScope
  | reservedType | reservedRounding | destClass | destNumber | destNonzero | srcNumber | unusedNonzero
  | operandRange | badLength
  deriving DecidableEq, Repr

abbrev Dec := Except Illegal Instr

/-- The fields of a head and its tail (R22, R24); halfword B and C–D are kept whole. -/
structure Fields where
  major : BitVec 7
  tc : BitVec 2
  dest : BitVec 7
  src1 : BitVec 5
  src2 : BitVec 5
  pred : BitVec 3
  pol : BitVec 1
  minor : BitVec 2
  b : Half
  cd : BitVec 32
  deriving DecidableEq, Repr

namespace Fields
def src3 (f : Fields) : BitVec 5 := f.b.extractLsb' 11 5
def urg (f : Fields) : BitVec 4 := f.b.extractLsb' 7 4
def scope (f : Fields) : BitVec 3 := f.b.extractLsb' 4 3
def mod (f : Fields) : BitVec 4 := f.b.extractLsb' 0 4
end Fields

/-- The number of tail halfwords a tail code gives (R22). -/
def tailHalves (tc : BitVec 2) : Nat := if tc = 0 then 0 else if tc = 1 then 1 else if tc = 2 then 2 else 4

/-- The fields a head and its tail halfwords hold; absent halfwords are zero (R24). -/
def unpackHead (h : Half) (tail : List Half) : Fields :=
  let a := tail.getD 0 0
  { major := h.extractLsb' 9 7, tc := h.extractLsb' 7 2, dest := h.extractLsb' 0 7,
    src1 := a.extractLsb' 11 5, src2 := a.extractLsb' 6 5, pred := a.extractLsb' 3 3, pol := a.extractLsb' 2 1,
    minor := a.extractLsb' 0 2, b := tail.getD 1 0, cd := (tail.getD 3 0) ++ (tail.getD 2 0) }

/-- The head halfword of a field record (R22). -/
def packHead (f : Fields) : Half := (f.major ++ f.tc) ++ f.dest

/-- Halfword A of a field record (R24). -/
def packA (f : Fields) : Half := (((f.src1 ++ f.src2) ++ f.pred) ++ f.pol) ++ f.minor

/-- The tail halfwords of a field record, as many as its tail code gives. -/
def packTail (f : Fields) : List Half :=
  [packA f, f.b, f.cd.extractLsb' 0 16, f.cd.extractLsb' 16 16].take (tailHalves f.tc)

/-- Go on only where a condition holds, else reject by name. -/
def need {α : Type} (c : Bool) (e : Illegal) (k : Except Illegal α) : Except Illegal α :=
  if c then k else .error e

@[simp] theorem need_true {α : Type} (e : Illegal) (k : Except Illegal α) : need true e k = k := rfl
@[simp] theorem need_false {α : Type} (e : Illegal) (k : Except Illegal α) : need false e k = .error e := rfl

/-- The tail code and guard checks every form makes (R26, R40). -/
def form (f : Fields) (tc : BitVec 2) (k : Guard → Dec) : Dec :=
  need (f.tc = 0 || f.tc = tc) .badTailCode <|
  need (f.pred ≠ 0 || f.pol = 0) .reservedGuard <| k ⟨f.pred, f.pol = 1⟩

def noDest (f : Fields) (k : Dec) : Dec := need (f.dest = 0) .destNonzero k
def destX (f : Fields) (k : XReg → Dec) : Dec :=
  need (f.dest.extractLsb' 5 2 = 0) .destClass (k (f.dest.extractLsb' 0 5))
def destV (f : Fields) (k : VReg → Dec) : Dec :=
  need (f.dest.extractLsb' 5 2 = 1) .destClass <| need (f.dest.extractLsb' 4 1 = 0) .destNumber
    (k (f.dest.extractLsb' 0 4))
def destQ (f : Fields) (k : QReg → Dec) : Dec :=
  need (f.dest.extractLsb' 5 2 = 2) .destClass <|
  need (f.dest.extractLsb' 3 2 = 0 && f.dest.extractLsb' 0 3 ≠ 0) .destNumber (k (f.dest.extractLsb' 0 3))
def destAcc (f : Fields) (k : AccReg → Dec) : Dec :=
  need (f.dest.extractLsb' 5 2 = 3) .destClass <| need (f.dest.extractLsb' 3 2 = 0) .destNumber
    (k (f.dest.extractLsb' 0 3))
/-- Matrix-side numbers 8 to 23 are `fmt0`–`fmt15` (R22): subtracting 8 leaves four bits. -/
def destFmt (f : Fields) (k : FmtReg → Dec) : Dec :=
  need (f.dest.extractLsb' 5 2 = 3) .destClass <|
  need ((f.dest.extractLsb' 0 5 - 8#5).extractLsb' 4 1 = 0) .destNumber
    (k ((f.dest.extractLsb' 0 5 - 8#5).extractLsb' 0 4))

/-- A five-bit source number that names a vector register. -/
def srcV (s : BitVec 5) (k : VReg → Dec) : Dec := need (s.extractLsb' 4 1 = 0) .srcNumber (k (s.extractLsb' 0 4))
/-- A five-bit source number that names a predicate register or an accumulator. -/
def src8 (s : BitVec 5) (k : BitVec 3 → Dec) : Dec := need (s.extractLsb' 3 2 = 0) .srcNumber (k (s.extractLsb' 0 3))
def zero1 (f : Fields) (k : Dec) : Dec := need (f.src1 = 0) .unusedNonzero k
def zero2 (f : Fields) (k : Dec) : Dec := need (f.src2 = 0) .unusedNonzero k
def zero3 (f : Fields) (k : Dec) : Dec := need (f.src3 = 0) .unusedNonzero k
def zeroB (f : Fields) (k : Dec) : Dec := need (f.b = 0) .unusedNonzero k
def zeroCd (f : Fields) (k : Dec) : Dec := need (f.cd = 0) .unusedNonzero k
def zeroUS (f : Fields) (k : Dec) : Dec :=
  need (f.scope.extractLsb' 1 2 ≠ 3) .reservedScope <| need (f.urg = 0 && f.scope = 0) .unusedNonzero k
def zeroMod (f : Fields) (k : Dec) : Dec := need (f.mod = 0) .unusedNonzero k

/-- The type of a type code (R25). -/
def tyOfCode (c : BitVec 4) : Option Ty :=
  match c.toNat with
  | 0 => some .f64 | 1 => some .f32 | 2 => some .bf16 | 3 => some .f16 | 4 => some .s8 | 5 => some .s16
  | 6 => some .s32 | 7 => some .s64 | 8 => some .z8 | 9 => some .z16 | 10 => some .z32 | 11 => some .z64
  | _ => none

/-- The type code of a type (R25). -/
def Ty.code : Ty → BitVec 4
  | .f64 => 0 | .f32 => 1 | .bf16 => 2 | .f16 => 3 | .s8 => 4 | .s16 => 5
  | .s32 => 6 | .s64 => 7 | .z8 => 8 | .z16 => 9 | .z32 => 10 | .z64 => 11

/-- A type code that names one of the types allowed. -/
def tyIn (c : BitVec 4) (ok : List Ty) (k : Ty → Dec) : Dec :=
  match tyOfCode c with
  | none => .error .reservedType
  | some t => need (ok.contains t) .reservedType (k t)

/-- Types whose codes choose a lane width (R146, R190). -/
def laneTys : List Ty := [.f64, .f32, .s32, .s64, .z32, .z64]
/-- Types of the integer lane operations and of the atomics (R162, R192). -/
def intTys : List Ty := [.s32, .s64, .z32, .z64]
/-- Types of local loads and stores and of `get` and `put` (R145, R155). -/
def memTys : List Ty := [.f64, .f32, .s8, .s16, .s32, .s64, .z8, .z16, .z32, .z64]
def allInts : List Ty := [.s8, .s16, .s32, .s64, .z8, .z16, .z32, .z64]
def Ty.isFloat (t : Ty) : Bool := [Ty.f64, .f32].contains t

/-- The legal type pairs of `fcvt` (R189). -/
def cvtOk (d s : Ty) : Bool :=
  (d.isFloat && s.isFloat && d ≠ s) || (d.isFloat && allInts.contains s) || (allInts.contains d && s.isFloat)

/-- Types of `vcvt` are the 32- and 64-bit ones (R199). -/
def Ty.wide (t : Ty) : Bool := [Ty.f64, .s64, .z64].contains t
def vcvtOk (d s : Ty) (h : Bool) : Bool :=
  laneTys.contains d && laneTys.contains s && cvtOk d s && (d.wide ≠ s.wide || !h)

def rmOfCode (c : BitVec 3) : Option Rm :=
  match c.toNat with
  | 0 => some .rne | 1 => some .rtz | 2 => some .rup | 3 => some .rdn | 4 => some .rna | _ => none
def Rm.code : Rm → BitVec 3
  | .rne => 0 | .rtz => 1 | .rup => 2 | .rdn => 3 | .rna => 4
def FTy.code : FTy → BitVec 1
  | .f64 => 0 | .f32 => 1

/-- A floating-point modifier (R25). -/
def fmod (c : BitVec 4) (k : FTy → Rm → Dec) : Dec :=
  match rmOfCode (c.extractLsb' 0 3) with
  | none => .error .reservedRounding
  | some r => k (if c.extractLsb' 3 1 = 1 then .f32 else .f64) r

/-- A modifier whose rounding bits are required zero (R186). -/
def ftyOnly (c : BitVec 4) (k : FTy → Dec) : Dec :=
  need (c.extractLsb' 0 3 = 0) .unusedNonzero (k (if c.extractLsb' 3 1 = 1 then .f32 else .f64))

def scopeOfCode (c : BitVec 3) : Option Scope :=
  match c.toNat with
  | 0 => some .core | 1 => some .tile | 2 => some .grp | 3 => some .sgp | 4 => some .pkg | 5 => some .sys | _ => none
def Scope.code : Scope → BitVec 3
  | .core => 0 | .tile => 1 | .grp => 2 | .sgp => 3 | .pkg => 4 | .sys => 5

def withScope (f : Fields) (k : Scope → Dec) : Dec :=
  match scopeOfCode f.scope with
  | none => .error .reservedScope
  | some s => k s
def pktMod (f : Fields) (k : PktMod → Dec) : Dec := withScope f fun s => k ⟨f.urg, s⟩

/-- A slot field with bits [30:10] handed on (R149). -/
def slotField (f : Fields) (k : BitVec 21 → SlotField → Dec) : Dec :=
  k (f.cd.extractLsb' 10 21) ⟨f.cd.extractLsb' 31 1 = 1, f.cd.extractLsb' 9 1 = 1, f.cd.extractLsb' 0 9⟩
def slotOnly (f : Fields) (k : SlotField → Dec) : Dec :=
  slotField f fun mid sf => need (mid = 0) .unusedNonzero (k sf)
def slotFw (f : Fields) (k : FWord → SlotField → Dec) : Dec :=
  slotField f fun mid sf => need (mid.extractLsb' 9 12 = 0) .unusedNonzero (k (mid.extractLsb' 0 9) sf)
/-- A matrix request's slot field: FW and FRESH zero (R212). -/
def slotMat (f : Fields) (k : SlotField → Dec) : Dec :=
  slotOnly f fun sf => need (!sf.fresh) .unusedNonzero (k sf)

/-- Register ranges of `amsg`, `enq`, `spawn` and `tspawn`: G + k − 1 ≤ 31. -/
def rangeOk (g : XReg) (k : Nat) : Bool := g.toNat + k ≤ 32

def fcondOf (s : BitVec 5) (k : FCond → Dec) : Dec :=
  match s.toNat with
  | 0 => k .eq | 1 => k .lt | 2 => k .le | 3 => k .un | 4 => k .ne | _ => .error .operandRange
def FCond.code : FCond → BitVec 5
  | .eq => 0 | .lt => 1 | .le => 2 | .un => 3 | .ne => 4
def icondOf (s : BitVec 5) (k : ICond → Dec) : Dec :=
  match s.toNat with
  | 0 => k .eq | 1 => k .ne | 2 => k .lt | 3 => k .le | _ => .error .operandRange
def ICond.code : ICond → BitVec 5
  | .eq => 0 | .ne => 1 | .lt => 2 | .le => 3
def sgnOf (s : BitVec 5) (k : SgnVar → Dec) : Dec :=
  match s.toNat with
  | 0 => k .sgnj | 1 => k .sgnjn | 2 => k .sgnjx | _ => .error .operandRange
def SgnVar.code : SgnVar → BitVec 5
  | .sgnj => 0 | .sgnjn => 1 | .sgnjx => 2
def redOf (s : BitVec 5) (k : RedOp → Dec) : Dec :=
  match s.toNat with
  | 0 => k .sum | 1 => k .min | 2 => k .max | _ => .error .operandRange
def RedOp.code : RedOp → BitVec 5
  | .sum => 0 | .min => 1 | .max => 2

-- Forms shared by several rows of the opcode map.
def fXRR (f : Fields) (mk : Guard → XReg → XReg → XReg → Instr) : Dec :=
  form f 1 fun g => destX f fun d => .ok (mk g d f.src1 f.src2)
def fXR (f : Fields) (mk : Guard → XReg → XReg → Instr) : Dec :=
  form f 1 fun g => destX f fun d => zero2 f <| .ok (mk g d f.src1)
def fBr2 (f : Fields) (mk : Guard → XReg → XReg → BitVec 32 → Instr) : Dec :=
  form f 3 fun g => noDest f <| zeroB f <| .ok (mk g f.src1 f.src2 f.cd)
def fBr1 (f : Fields) (mk : Guard → XReg → BitVec 32 → Instr) : Dec :=
  form f 3 fun g => noDest f <| zeroB f <| zero2 f <| .ok (mk g f.src1 f.cd)
def fBrQ (f : Fields) (mk : Guard → QReg → BitVec 32 → Instr) : Dec :=
  form f 3 fun g => noDest f <| zeroB f <| zero2 f <| src8 f.src1 fun q => .ok (mk g q f.cd)
def fNone (f : Fields) (mk : Guard → Instr) : Dec :=
  form f 1 fun g => noDest f <| zero1 f <| zero2 f <| .ok (mk g)
def fImm (f : Fields) (mk : Guard → XReg → XReg → Half → Instr) : Dec :=
  form f 2 fun g => destX f fun d => zero2 f <| .ok (mk g d f.src1 f.b)
def fSh (f : Fields) (mk : Guard → XReg → XReg → BitVec 6 → Instr) : Dec :=
  form f 2 fun g => destX f fun d => zero2 f <| need (f.b.extractLsb' 6 10 = 0) .unusedNonzero <|
    .ok (mk g d f.src1 (f.b.extractLsb' 0 6))
def fBf (f : Fields) (k : Guard → XReg → BitVec 6 → BitVec 6 → Dec) : Dec :=
  form f 2 fun g => destX f fun d => need (f.b.extractLsb' 12 4 = 0) .unusedNonzero <|
    need ((f.b.extractLsb' 6 6).toNat + 1 + (f.b.extractLsb' 0 6).toNat ≤ 64) .operandRange <|
      k g d (f.b.extractLsb' 6 6) (f.b.extractLsb' 0 6)
def fF3 (f : Fields) (mk : Guard → XReg → XReg → XReg → FTy → Rm → Instr) : Dec :=
  form f 2 fun g => destX f fun d => zeroUS f <| zero3 f <| fmod f.mod fun t r => .ok (mk g d f.src1 f.src2 t r)
def fFmm (f : Fields) (mk : Guard → XReg → XReg → XReg → FTy → Instr) : Dec :=
  form f 2 fun g => destX f fun d => zeroUS f <| zero3 f <| ftyOnly f.mod fun t => .ok (mk g d f.src1 f.src2 t)
def fV3 (f : Fields) (mk : Guard → VReg → VReg → VReg → FTy → Rm → Instr) : Dec :=
  form f 2 fun g => destV f fun d => zeroUS f <| zero3 f <| srcV f.src1 fun a => srcV f.src2 fun b =>
    fmod f.mod fun t r => .ok (mk g d a b t r)
def fVmm (f : Fields) (mk : Guard → VReg → VReg → VReg → FTy → Instr) : Dec :=
  form f 2 fun g => destV f fun d => zeroUS f <| zero3 f <| srcV f.src1 fun a => srcV f.src2 fun b =>
    ftyOnly f.mod fun t => .ok (mk g d a b t)
def fVI (f : Fields) (ok : List Ty) (mk : Guard → VReg → VReg → VReg → Ty → Instr) : Dec :=
  form f 2 fun g => destV f fun d => zeroUS f <| zero3 f <| srcV f.src1 fun a => srcV f.src2 fun b =>
    tyIn f.mod ok fun t => .ok (mk g d a b t)
def fVsat (f : Fields) (mk : Guard → VReg → VReg → VReg → Ty → Bool → Instr) : Dec :=
  form f 2 fun g => destV f fun d => zeroUS f <| need (f.src3.extractLsb' 1 4 = 0) .unusedNonzero <|
    srcV f.src1 fun a => srcV f.src2 fun b => tyIn f.mod intTys fun t => .ok (mk g d a b t (f.src3.extractLsb' 0 1 = 1))
def fRed (f : Fields) (mk : Guard → XReg → VReg → Ty → Instr) : Dec :=
  form f 2 fun g => destX f fun d => zeroUS f <| zero3 f <| zero2 f <| srcV f.src1 fun a =>
    tyIn f.mod laneTys fun t => .ok (mk g d a t)
def fVelem (f : Fields) (mk : Guard → VReg → VReg → Rm → Instr) : Dec :=
  form f 2 fun g => destV f fun d => zeroUS f <| zero3 f <| zero2 f <| srcV f.src1 fun a =>
    need (f.mod.extractLsb' 3 1 = 1) .reservedType <| fmod f.mod fun _ r => .ok (mk g d a r)
def fVcx (f : Fields) (mk : VReg → VReg → QReg → Ty → Instr) : Dec :=
  form f 2 fun g => need (g.pred = 0) .reservedGuard <| destV f fun d => zeroUS f <| zero2 f <|
    srcV f.src1 fun a => src8 f.src3 fun m => tyIn f.mod laneTys fun t => .ok (mk d a m t)
def fQQQ (f : Fields) (mk : Guard → QReg → QReg → QReg → Instr) : Dec :=
  form f 1 fun g => destQ f fun d => src8 f.src1 fun a => src8 f.src2 fun b => .ok (mk g d a b)
def fXQ (f : Fields) (mk : Guard → XReg → QReg → Instr) : Dec :=
  form f 1 fun g => destX f fun d => zero2 f <| src8 f.src1 fun a => .ok (mk g d a)
def fGet (f : Fields) (mk : Guard → XReg → FWord → Ty → PktMod → SlotField → Instr) : Dec :=
  form f 3 fun g => noDest f <| zero2 f <| zero3 f <| pktMod f fun p => tyIn f.mod memTys fun t =>
    slotFw f fun w sf => .ok (mk g f.src1 w t p sf)
def fVget (f : Fields) (mk : Guard → XReg → FWord → PktMod → SlotField → Instr) : Dec :=
  form f 3 fun g => noDest f <| zero2 f <| zero3 f <| zeroMod f <| pktMod f fun p =>
    slotFw f fun w sf => need (w.extractLsb' 0 3 = 0) .operandRange <| .ok (mk g f.src1 w p sf)
def fTag (f : Fields) (mk : Guard → XReg → PktMod → SlotField → Instr) : Dec :=
  form f 3 fun g => noDest f <| zero2 f <| zero3 f <| zeroMod f <| pktMod f fun p =>
    slotOnly f fun sf => .ok (mk g f.src1 p sf)
def fAmo (f : Fields) (mk : Guard → XReg → XReg → FWord → Ty → PktMod → SlotField → Instr) : Dec :=
  form f 3 fun g => noDest f <| zero3 f <| pktMod f fun p => tyIn f.mod intTys fun t =>
    slotFw f fun w sf => .ok (mk g f.src1 f.src2 w t p sf)
def fRedn (f : Fields) (ok : List Ty) (mk : Guard → XReg → XReg → Ty → PktMod → Instr) : Dec :=
  form f 3 fun g => noDest f <| zero3 f <| zeroCd f <| pktMod f fun p => tyIn f.mod ok fun t =>
    .ok (mk g f.src1 f.src2 t p)
/-- `gather` and `scatter`: R157 has MOD from 3 to 12 and names no trap for another value, which is an operand field out of its
range here, an illegal instruction (R173; log 64). -/
def fGs (f : Fields) (mk : Guard → XReg → XReg → VReg → BitVec 4 → Half → BitVec 5 → PktMod → SlotField → Instr) : Dec :=
  form f 3 fun g => noDest f <| srcV f.src3 fun v => need (3 ≤ f.mod.toNat && f.mod.toNat ≤ 12) .operandRange <|
    pktMod f fun p => slotField f fun mid sf =>
      .ok (mk g f.src1 f.src2 v f.mod (mid.extractLsb' 5 16) (mid.extractLsb' 0 5) p sf)
def fFence (f : Fields) (mk : Guard → Scope → Instr) : Dec :=
  form f 2 fun g => noDest f <| zero1 f <| zero2 f <| zero3 f <| need (f.urg = 0) .unusedNonzero <| zeroMod f <|
    withScope f fun s => .ok (mk g s)
def fEnq (f : Fields) (sv : Bool) (mk : Guard → XReg → XReg → XReg → BitVec 4 → PktMod → SlotField → Instr) : Dec :=
  form f 3 fun g => destX f fun d => zero3 f <| need (f.mod.toNat ≤ 3) .operandRange <|
    need (rangeOk f.src2 (2 ^ f.mod.toNat)) .operandRange <| pktMod f fun p => slotOnly f fun sf =>
      need (sv || !sf.sv) .unusedNonzero <| .ok (mk g d f.src1 f.src2 f.mod p sf)
def fStg (f : Fields) (mk : Guard → XReg → XReg → Instr) : Dec :=
  form f 3 fun g => noDest f <| zeroB f <| zeroCd f <| .ok (mk g f.src1 f.src2)
def fMma (f : Fields) (mk : Guard → AccReg → XReg → XReg → BitVec 4 → PktMod → SlotField → Instr) : Dec :=
  form f 3 fun g => destAcc f fun d => zero3 f <| pktMod f fun p => slotMat f fun sf =>
    .ok (mk g d f.src1 f.src2 f.mod p sf)
def fScan (f : Fields) (mk : Guard → AccReg → XReg → XReg → XReg → PktMod → SlotField → Instr) : Dec :=
  form f 3 fun g => destAcc f fun d => zeroMod f <| pktMod f fun p => slotMat f fun sf =>
    .ok (mk g d f.src1 f.src2 f.src3 p sf)
def fAcc (f : Fields) (mk : Guard → AccReg → Instr) : Dec :=
  form f 2 fun g => destAcc f fun d => zero1 f <| zero2 f <| zeroB f <| .ok (mk g d)
def fAcc2 (f : Fields) (mk : Guard → AccReg → AccReg → FTy → Instr) : Dec :=
  form f 2 fun g => destAcc f fun d => zero2 f <| zeroUS f <| zero3 f <| src8 f.src1 fun s =>
    tyIn f.mod [.f64, .f32] fun t => .ok (mk g d s (if t = .f32 then .f32 else .f64))
def fSigBody (f : Fields) (k : FWord → BitVec 8 → FWord → Dec) : Dec :=
  zero3 f <| zeroMod f <| need (f.scope = 0) .unusedNonzero <|
  need (f.cd.extractLsb' 26 6 = 0) .unusedNonzero <| need (f.cd.extractLsb' 9 8 ≠ 0) .operandRange <|
    k (f.cd.extractLsb' 0 9) (f.cd.extractLsb' 9 8) (f.cd.extractLsb' 17 9)
def fFrame (f : Fields) (mk : Guard → XReg → Instr) : Dec :=
  form f 2 fun g => noDest f <| zero2 f <| zeroB f <| .ok (mk g f.src1)
/-- `fld`, `fst`, `fldv`, `fstv`: C–D[8:0] is WIDX, the rest zero (R144). -/
def fFw (f : Fields) (k : FWord → Dec) : Dec :=
  zeroUS f <| zeroMod f <| need (f.cd.extractLsb' 9 23 = 0) .unusedNonzero <| k (f.cd.extractLsb' 0 9)

/-- Does `sigv` keep its slot word out of its data words (R267)? -/
def sigvOk (w d : FWord) : Bool := d.extractLsb' 0 3 = 0 && !(d.toNat ≤ w.toNat && w.toNat ≤ d.toNat + 7)

/-- Control and threadlet majors (R39, R258). -/
def decControl (f : Fields) : Dec :=
  match f.major.toNat, f.minor.toNat with
  | 0x00, 0 => fNone f .endT
  | 0x00, 1 => fNone f .next
  | 0x00, 2 => fNone f .nop
  | 0x01, 0 => fBr2 f .bEq
  | 0x01, 1 => fBr2 f .bNe
  | 0x01, 2 => fBr2 f .bLt
  | 0x01, 3 => fBr2 f .bGe
  | 0x02, 0 => fBr2 f .bLtu
  | 0x02, 1 => fBr2 f .bGeu
  | 0x02, 2 => fBr1 f .bLtz
  | 0x02, 3 => fBr1 f .bGez
  | 0x03, 0 => fBrQ f .bqAny
  | 0x03, 1 => fBrQ f .bqAll
  | 0x04, 0 => form f 3 fun g => destX f fun d => zero1 f <| zero2 f <| zeroB f <| .ok (.jal g d f.cd)
  | 0x05, 0 => form f 1 fun g => noDest f <| zero2 f <| .ok (.jr g f.src1)
  | 0x06, 0 => fBr1 f .loop
  | 0x06, 1 => form f 3 fun g => noDest f <| zero1 f <| zero2 f <| .ok (.loopi g f.b f.cd)
  | 0x07, 0 => form f 3 fun g => need (f.dest.extractLsb' 2 5 = 0) .destNonzero <|
      need (f.b.extractLsb' 0 7 = 0) .unusedNonzero <|
        .ok (.sarm g (f.dest.extractLsb' 0 2) f.src1 f.src2 (f.b.extractLsb' 7 9) f.cd)
  | 0x08, 0 => form f 3 fun g => noDest f <| zero2 f <| fSigBody f fun w n d =>
      need (d = 0) .unusedNonzero <| .ok (.sig g f.src1 f.urg w n)
  | 0x08, 1 => form f 3 fun g => noDest f <| fSigBody f fun w n d =>
      need (w ≠ d) .operandRange <| .ok (.sigw g f.src1 f.src2 f.urg w n d)
  | 0x09, 0 => form f 3 fun g => noDest f <| srcV f.src2 fun v => fSigBody f fun w n d =>
      need (sigvOk w d) .operandRange <| .ok (.sigv g f.src1 v f.urg w n d)
  | 0x0A, 0 => form f 2 fun g => destX f fun d => zero1 f <| zero2 f <|
      need (f.b.extractLsb' 2 14 = 0) .unusedNonzero <| .ok (.falloc g d (f.b.extractLsb' 0 2))
  | 0x0A, 1 => fFrame f .ffree
  | 0x0A, 2 => fFrame f .fpin
  | 0x0A, 3 => fFrame f .funpin
  | 0x0B, 0 => form f 3 fun g => noDest f <| need (f.scope = 0) .unusedNonzero <|
      need (f.src3.extractLsb' 4 1 = 0) .unusedNonzero <|
      need (f.mod.toNat ≤ 6 && rangeOk f.src2 f.mod.toNat) .operandRange <|
        .ok (.spawn g f.src1 f.src2 f.urg (f.src3.extractLsb' 2 2) (f.src3.extractLsb' 0 2) f.mod f.cd)
  | 0x0B, 1 => form f 3 fun g => noDest f <| zero2 f <| zero3 f <| zeroUS f <|
      need (f.mod.toNat ≤ 6 && rangeOk f.src1 f.mod.toNat) .operandRange <| .ok (.tspawn g f.src1 f.mod f.cd)
  | 0x0C, 0 => form f 3 fun g => destX f fun d => zero2 f <| zero3 f <| zeroMod f <|
      need (f.scope = 0) .unusedNonzero <| slotOnly f fun sf => .ok (.launch g d f.src1 f.urg sf)
  | 0x0C, 1 => form f 3 fun g => noDest f <| zero1 f <| zero2 f <|
      need (f.src3.extractLsb' 3 2 = 0 && f.mod.extractLsb' 3 1 = 0) .unusedNonzero <| pktMod f fun p =>
      slotOnly f fun sf => need sf.sv .operandRange <|
        .ok (.rbar g p (f.mod.extractLsb' 0 3) (f.src3.extractLsb' 0 3) sf)
  | 0x0D, 0 => form f 1 fun g => destX f fun d => zero2 f <| need (f.src1.toNat ≤ 17) .operandRange <|
      .ok (.rid g d f.src1)
  | 0x0E, 0 => form f 3 fun g => destX f fun d => zero2 f <| fFw f fun w => .ok (.fld g d f.src1 w f.src3)
  | 0x0E, 1 => form f 3 fun g => noDest f <| fFw f fun w => .ok (.fst g f.src1 f.src2 w f.src3)
  | 0x0E, 2 => form f 3 fun g => destV f fun d => zero2 f <| fFw f fun w => .ok (.fldv g d f.src1 w f.src3)
  | 0x0E, 3 => form f 3 fun g => noDest f <| srcV f.src2 fun s => fFw f fun w => .ok (.fstv g f.src1 s w f.src3)
  | 0x0F, 0 => form f 2 fun g => noDest f <| zero1 f <| zero2 f <| .ok (.trap g f.b)
  | 0x0F, 1 => form f 2 fun g => noDest f <| zero1 f <| zero2 f <| .ok (.brk g f.b)
  | 0x0F, 2 => fFrame f .tresume
  | _, _ => .error .reservedMinor

/-- Scalar integer and address majors (R39, R177-R183). -/
def decScalar (f : Fields) : Dec :=
  match f.major.toNat, f.minor.toNat with
  | 0x10, 0 => fXRR f .add
  | 0x10, 1 => fXRR f .sub
  | 0x10, 2 => fXRR f .mul
  | 0x11, 0 => fXRR f .mulh
  | 0x11, 1 => fXRR f .mulhu
  | 0x12, 0 => fXRR f .div
  | 0x12, 1 => fXRR f .divu
  | 0x12, 2 => fXRR f .rem
  | 0x12, 3 => fXRR f .remu
  | 0x13, 0 => fXRR f .min
  | 0x13, 1 => fXRR f .max
  | 0x13, 2 => fXRR f .minu
  | 0x13, 3 => fXRR f .maxu
  | 0x14, 0 => fXRR f .and
  | 0x14, 1 => fXRR f .or
  | 0x14, 2 => fXRR f .xor
  | 0x14, 3 => fXRR f .andn
  | 0x15, 0 => fXRR f .sll
  | 0x15, 1 => fXRR f .srl
  | 0x15, 2 => fXRR f .sra
  | 0x15, 3 => fXRR f .rol
  | 0x16, 0 => fXRR f .ror
  | 0x16, 1 => fXR f .clz
  | 0x16, 2 => fXR f .ctz
  | 0x16, 3 => fXR f .popc
  | 0x17, 0 => fXR f .bswap
  | 0x18, 0 => form f 2 fun g => destX f fun d => zeroUS f <| zero2 f <| zero3 f <|
      tyIn f.mod [.s8, .s16, .s32] fun t => .ok (.sext g d f.src1 t)
  | 0x18, 1 => form f 2 fun g => destX f fun d => zeroUS f <| zero2 f <| zero3 f <|
      tyIn f.mod [.z8, .z16, .z32] fun t => .ok (.zext g d f.src1 t)
  | 0x19, 0 => fBf f fun g d l p => zero2 f <| .ok (.bfx g d f.src1 l p)
  | 0x19, 1 => fBf f fun g d l p => zero2 f <| .ok (.bfxu g d f.src1 l p)
  | 0x19, 2 => fBf f fun g d l p => .ok (.bfi g d f.src1 f.src2 l p)
  | 0x1A, 0 => fXRR f .seq
  | 0x1A, 1 => fXRR f .sne
  | 0x1A, 2 => fXRR f .slt
  | 0x1A, 3 => fXRR f .sltu
  | 0x1B, 0 => form f 2 fun g => destX f fun d => zeroUS f <| zeroMod f <| .ok (.sel g d f.src1 f.src2 f.src3)
  | 0x1C, 0 => fImm f .addi
  | 0x1C, 1 => fImm f .andi
  | 0x1C, 2 => fImm f .ori
  | 0x1C, 3 => fImm f .xori
  | 0x1D, 0 => fSh f .slli
  | 0x1D, 1 => fSh f .srli
  | 0x1D, 2 => fSh f .srai
  | 0x1E, 0 => fImm f .slti
  | 0x1E, 1 => fImm f .sltiu
  | 0x1F, 0 => form f 3 fun g => destX f fun d => zeroUS f <| zero3 f <| need (f.mod.toNat ≤ 6) .operandRange <|
      .ok (.lea g d f.src1 f.src2 f.mod f.cd)
  | 0x20, 0 => form f 3 fun g => destX f fun d => zero1 f <| zero2 f <| zeroB f <| .ok (.li g d f.cd)
  | 0x20, 1 => form f 3 fun g => destX f fun d => zero2 f <| zeroB f <| .ok (.lih g d f.src1 f.cd)
  | 0x21, 0 => fXR f .mov
  | _, _ => .error .reservedMinor

/-- `fcvt` and `vcvt` share the layout of halfword B (R189, R199). -/
def cvtB (f : Fields) (k : Ty → Ty → Rm → Dec) : Dec :=
  match tyOfCode (f.b.extractLsb' 12 4), tyOfCode (f.b.extractLsb' 8 4), rmOfCode (f.b.extractLsb' 5 3) with
  | some d, some s, some r => k d s r
  | _, _, none => .error .reservedRounding
  | _, _, _ => .error .reservedType

/-- Scalar floating-point majors (R39, R185-R189). -/
def decFloat (f : Fields) : Dec :=
  match f.major.toNat, f.minor.toNat with
  | 0x28, 0 => fF3 f .fadd
  | 0x28, 1 => fF3 f .fsub
  | 0x28, 2 => fF3 f .fmul
  | 0x28, 3 => fF3 f .fdiv
  | 0x29, 0 => form f 2 fun g => destX f fun d => zeroUS f <| zero2 f <| zero3 f <| fmod f.mod fun t r =>
      .ok (.fsqrt g d f.src1 t r)
  | 0x29, 1 => form f 2 fun g => destX f fun d => zeroUS f <| fmod f.mod fun t r =>
      .ok (.fma g d f.src1 f.src2 f.src3 t r)
  | 0x29, 2 => fFmm f .fmin
  | 0x29, 3 => fFmm f .fmax
  | 0x2A, 0 => form f 2 fun g => destX f fun d => zeroUS f <| ftyOnly f.mod fun t => fcondOf f.src3 fun c =>
      .ok (.fcmp g d f.src1 f.src2 t c)
  | 0x2A, 1 => form f 2 fun g => destX f fun d => zeroUS f <| zero2 f <| zero3 f <| ftyOnly f.mod fun t =>
      .ok (.fclass g d f.src1 t)
  | 0x2A, 2 => form f 2 fun g => destX f fun d => zeroUS f <| ftyOnly f.mod fun t => sgnOf f.src3 fun v =>
      .ok (.fsgnj g d f.src1 f.src2 t v)
  | 0x2A, 3 => form f 2 fun g => destX f fun d => zero2 f <| need (f.b.extractLsb' 0 5 = 0) .unusedNonzero <|
      cvtB f fun dt st r => need (cvtOk dt st) .reservedType <| .ok (.fcvt g d f.src1 dt st r)
  | _, _ => .error .reservedMinor

/-- Vector and predicate majors (R39, R191-R202). -/
def decVector (f : Fields) : Dec :=
  match f.major.toNat, f.minor.toNat with
  | 0x30, 0 => fV3 f .vfadd
  | 0x30, 1 => fV3 f .vfsub
  | 0x30, 2 => fV3 f .vfmul
  | 0x30, 3 => form f 2 fun g => destV f fun d => zeroUS f <| srcV f.src1 fun a => srcV f.src2 fun b =>
      srcV f.src3 fun c => fmod f.mod fun t r => .ok (.vfma g d a b c t r)
  | 0x31, 0 => fVmm f .vfmin
  | 0x31, 1 => fVmm f .vfmax
  | 0x31, 2 => fV3 f .vfdiv
  | 0x31, 3 => form f 2 fun g => destV f fun d => zeroUS f <| zero2 f <| zero3 f <| srcV f.src1 fun a =>
      fmod f.mod fun t r => .ok (.vfsqrt g d a t r)
  | 0x32, 0 => fVsat f .vadd
  | 0x32, 1 => fVsat f .vsub
  | 0x32, 2 => fVI f intTys .vmul
  | 0x32, 3 => fVI f intTys .vmulh
  | 0x33, 0 => fVI f intTys .vmin
  | 0x33, 1 => fVI f intTys .vmax
  | 0x33, 2 => fVI f laneTys .vand
  | 0x33, 3 => fVI f laneTys .vor
  | 0x34, 0 => fVI f laneTys .vxor
  | 0x34, 1 => fVI f laneTys .vsll
  | 0x34, 2 => fVI f laneTys .vsrl
  | 0x34, 3 => fVI f laneTys .vsra
  | 0x35, 0 => form f 2 fun g => destQ f fun d => zeroUS f <| srcV f.src1 fun a => srcV f.src2 fun b =>
      ftyOnly f.mod fun t => fcondOf f.src3 fun c => .ok (.vfcmp g d a b t c)
  | 0x35, 1 => form f 2 fun g => destQ f fun d => zeroUS f <| srcV f.src1 fun a => srcV f.src2 fun b =>
      tyIn f.mod intTys fun t => icondOf f.src3 fun c => .ok (.vcmp g d a b t c)
  | 0x36, 0 => form f 2 fun g => destV f fun d => zeroUS f <| srcV f.src1 fun a => srcV f.src2 fun b =>
      src8 f.src3 fun m => tyIn f.mod laneTys fun t => .ok (.vsel g d a b m t)
  | 0x37, 0 => fRed f .vredsum
  | 0x37, 1 => fRed f .vredmin
  | 0x37, 2 => fRed f .vredmax
  | 0x38, 0 => form f 2 fun g => destV f fun d => zeroUS f <| zero2 f <| srcV f.src1 fun a =>
      tyIn f.mod laneTys fun t => redOf f.src3 fun o => .ok (.vscan g d a t o)
  | 0x39, 0 => fVI f laneTys .vperm
  | 0x39, 1 => form f 2 fun g => destV f fun d => zeroUS f <| zero2 f <| zero3 f <|
      tyIn f.mod laneTys fun t => .ok (.vbcast g d f.src1 t)
  | 0x39, 2 => form f 2 fun g => destX f fun d => zeroUS f <| zero3 f <| srcV f.src1 fun a =>
      tyIn f.mod laneTys fun t => .ok (.vext g d a f.src2 t)
  | 0x39, 3 => form f 2 fun g => destV f fun d => zeroUS f <| zero3 f <|
      tyIn f.mod laneTys fun t => .ok (.vins g d f.src1 f.src2 t)
  | 0x3A, 0 => fVcx f .vcompress
  | 0x3A, 1 => fVcx f .vexpand
  | 0x3B, 0 => form f 2 fun g => destV f fun d => zero2 f <| need (f.b.extractLsb' 1 4 = 0) .unusedNonzero <|
      srcV f.src1 fun a => cvtB f fun dt st r => need (vcvtOk dt st (f.b.extractLsb' 0 1 = 1)) .reservedType <|
        .ok (.vcvt g d a dt st r (f.b.extractLsb' 0 1 = 1))
  | 0x3C, 0 => fVelem f .vexp2
  | 0x3C, 1 => fVelem f .vrcp
  | 0x3C, 2 => fVelem f .vrsqrt
  | 0x3D, 0 => form f 2 fun g => destQ f fun d => zeroUS f <| zero3 f <|
      tyIn f.mod laneTys fun t => .ok (.pmaskLt g d f.src1 f.src2 t)
  | 0x3E, 0 => fQQQ f .pand
  | 0x3E, 1 => fQQQ f .por
  | 0x3E, 2 => fQQQ f .pxor
  | 0x3E, 3 => form f 1 fun g => destQ f fun d => zero2 f <| src8 f.src1 fun a => .ok (.pnot g d a)
  | 0x3F, 0 => fXQ f .pcnt
  | 0x3F, 1 => fXQ f .pfirst
  | _, _ => .error .reservedMinor

/-- Memory, split-phase, atomic, fence, queue and stage majors (R39, R144-R172). -/
def decMemory (f : Fields) : Dec :=
  match f.major.toNat, f.minor.toNat with
  | 0x50, 0 => form f 3 fun g => destX f fun d => zeroUS f <| zero2 f <|
      tyIn f.mod memTys fun t => .ok (.ld g d f.src1 t f.src3 f.cd)
  | 0x50, 1 => form f 3 fun g => noDest f <| zeroUS f <|
      tyIn f.mod memTys fun t => .ok (.st g f.src1 f.src2 t f.src3 f.cd)
  | 0x51, 0 => form f 3 fun g => destV f fun d => zeroUS f <| zero2 f <|
      tyIn f.mod laneTys fun t => .ok (.vld g d f.src1 t f.src3 f.cd)
  | 0x51, 1 => form f 3 fun g => noDest f <| zeroUS f <| srcV f.src2 fun s =>
      tyIn f.mod laneTys fun t => .ok (.vst g f.src1 s t f.src3 f.cd)
  | 0x52, 0 => form f 3 fun g => destV f fun d => zeroUS f <| zero2 f <|
      need (f.cd.extractLsb' 10 22 = 0) .unusedNonzero <| .ok (.vldf g d f.src1 f.mod f.src3 (f.cd.extractLsb' 0 10))
  | 0x52, 1 => form f 3 fun g => noDest f <| zeroUS f <| srcV f.src2 fun s =>
      need (f.cd.extractLsb' 11 21 = 0) .unusedNonzero <|
        .ok (.vstq g f.src1 s f.mod f.src3 (f.cd.extractLsb' 0 10) (f.cd.extractLsb' 10 1 = 1))
  | 0x53, 0 => fGet f .get
  | 0x53, 1 => fGet f .put
  | 0x54, 0 => fVget f .vget
  | 0x54, 1 => fVget f .vput
  | 0x55, 0 => form f 3 fun g => noDest f <| zeroMod f <| pktMod f fun p => slotOnly f fun sf =>
      .ok (.copy g f.src1 f.src2 f.src3 p sf)
  | 0x56, 0 => fGs f .gather
  | 0x56, 1 => fGs f .scatter
  | 0x57, 0 => form f 3 fun g => noDest f <| need (f.src3.extractLsb' 2 3 = 0) .operandRange <|
      need (f.mod.toNat ≤ 6 && rangeOk f.src2 f.mod.toNat) .operandRange <| pktMod f fun p =>
        .ok (.amsg g f.src1 f.src2 (f.src3.extractLsb' 0 2) f.mod p f.cd)
  | 0x57, 1 => form f 3 fun g => noDest f <| zero3 f <| zeroMod f <| pktMod f fun p => slotFw f fun w sf =>
      .ok (.own g f.src1 f.src2 w p sf)
  | 0x58, 0 => form f 3 fun g => noDest f <| zero2 f <| zero3 f <| zeroMod f <| pktMod f fun p =>
      slotFw f fun w sf => .ok (.ldfe g f.src1 w p sf)
  | 0x58, 1 => form f 3 fun g => noDest f <| zero3 f <| zeroMod f <| pktMod f fun p => slotOnly f fun sf =>
      .ok (.stef g f.src1 f.src2 p sf)
  | 0x58, 2 => fTag f .tagf
  | 0x58, 3 => fTag f .tage
  | 0x59, 0 => fAmo f .amoAdd
  | 0x59, 1 => fAmo f .amoAnd
  | 0x59, 2 => fAmo f .amoOr
  | 0x59, 3 => fAmo f .amoXor
  | 0x5A, 0 => fAmo f .amoMin
  | 0x5A, 1 => fAmo f .amoMax
  | 0x5A, 2 => fAmo f .amoSwap
  | 0x5A, 3 => form f 3 fun g => noDest f <| pktMod f fun p => tyIn f.mod intTys fun t =>
      slotFw f fun w sf => .ok (.amoCas g f.src1 f.src2 f.src3 w t p sf)
  | 0x5B, 0 => fRedn f [.s64, .f32, .f64] .redAdd
  | 0x5B, 1 => fRedn f [.s64, .z64, .f32, .f64] .redMin
  | 0x5B, 2 => fRedn f [.s64, .z64, .f32, .f64] .redMax
  | 0x5C, 0 => fVget f .csnap
  | 0x5D, 0 => fFence f .fenceRel
  | 0x5D, 1 => fFence f .fenceAcq
  | 0x5E, 0 => form f 3 fun g => noDest f <| zero2 f <| zero3 f <| zeroMod f <| pktMod f fun p =>
      need (f.cd.extractLsb' 17 15 = 0) .unusedNonzero <| need (f.cd.extractLsb' 9 8 ≠ 0) .operandRange <|
        .ok (.sigRel g f.src1 (f.cd.extractLsb' 0 9) (f.cd.extractLsb' 9 8) p)
  | 0x5F, 0 => fEnq f false .enq
  | 0x5F, 1 => fEnq f true .enqA
  | 0x5F, 2 => form f 3 fun g => destX f fun d => zero2 f <| zero3 f <| need (f.mod.toNat ≤ 3) .operandRange <|
      pktMod f fun p => slotFw f fun w sf => need (!sf.sv && sf.slot = 0) .unusedNonzero <|
        .ok (.deq g d f.src1 w f.mod p sf.fresh)
  | 0x60, 0 => fStg f .stgClaim
  | 0x60, 1 => fStg f .stgFree
  | _, _ => .error .reservedMinor

/-- Matrix and system majors (R39, R143, R206, R213, R258). -/
def decMatrix (f : Fields) : Dec :=
  match f.major.toNat, f.minor.toNat with
  | 0x68, 0 => fMma f .mma
  | 0x68, 1 => fMma f .mmaF32
  | 0x68, 2 => fMma f .mmaF64
  | 0x69, 0 => form f 3 fun g => destAcc f fun d => srcV f.src3 fun v => pktMod f fun p => slotMat f fun sf =>
      .ok (.mmag g d f.src1 f.src2 v f.mod p sf)
  | 0x69, 1 => fMma f .mmas
  | 0x6A, 0 => fScan f .mscan
  | 0x6A, 1 => fScan f .mscanSeg
  | 0x6B, 0 => fAcc f .accGet
  | 0x6B, 1 => fAcc f .accGive
  | 0x6B, 2 => fAcc f .accZero
  | 0x6C, 0 => form f 3 fun g => destAcc f fun d => zero2 f <| pktMod f fun p => tyIn f.mod [.f64, .f32] fun t =>
      need (t ≠ .f64 || f.src3.extractLsb' 4 1 = 0) .operandRange <| slotMat f fun sf =>
        .ok (.accLd g d f.src1 f.src3 t p sf)
  | 0x6C, 1 => form f 3 fun g => noDest f <| src8 f.src2 fun s => pktMod f fun p =>
      tyIn f.mod [.f64, .f32, .bf16] fun t => need (t ≠ .f64 || f.src3.extractLsb' 4 1 = 0) .operandRange <|
        slotMat f fun sf => .ok (.accSt g f.src1 s f.src3 t p sf)
  | 0x6D, 0 => fAcc2 f .accAdd
  | 0x6D, 1 => fAcc2 f .accRed
  | 0x6E, 0 => form f 3 fun g => noDest f <| zero3 f <| src8 f.src2 fun s => pktMod f fun p =>
      slotField f fun mid sf => need (mid.extractLsb' 0 20 = 0 && !sf.fresh) .unusedNonzero <|
        .ok (.qtile g f.src1 s f.mod (mid.extractLsb' 20 1 = 1) p sf)
  | 0x6F, 0 => form f 1 fun g => destFmt f fun n => zero2 f <| .ok (.fmtSet g n f.src1)
  | 0x6F, 1 => form f 1 fun g => destX f fun d => zero2 f <| srcV f.src1 fun n => .ok (.fmtGet g d n)
  | 0x78, 0 => form f 2 fun g => destX f fun d => zero2 f <| zeroB f <|
      need ([0, 1, 2, 3, 4, 5, 8, 9, 10].contains f.src1.toNat) .operandRange <| .ok (.sysr g d f.src1)
  | 0x78, 1 => form f 2 fun g => noDest f <| zeroB f <|
      need ([0, 1, 2, 3, 4, 5, 8, 9, 10].contains f.src1.toNat) .operandRange <| .ok (.sysw g f.src1 f.src2)
  | 0x79, 0 => form f 2 fun g => destX f fun d => zero2 f <| zeroB f <| srcV f.src1 fun n => .ok (.ctrRd g d n)
  | 0x79, 1 => form f 2 fun g => noDest f <| zeroB f <| srcV f.src1 fun n => .ok (.ctrCfg g n f.src2)
  | _, _ => .error .reservedMinor

/-- The instruction that the fields of a head and tail name, or why they name none (R39, R40). -/
def decodeFields (f : Fields) : Dec :=
  if f.major = 0x7F then .error .permanentlyIllegal
  else if f.major.toNat < 0x10 then decControl f
  else if f.major.toNat < 0x22 then decScalar f
  else if 0x28 ≤ f.major.toNat ∧ f.major.toNat < 0x2B then decFloat f
  else if 0x30 ≤ f.major.toNat ∧ f.major.toNat < 0x40 then decVector f
  else if 0x50 ≤ f.major.toNat ∧ f.major.toNat < 0x61 then decMemory f
  else if 0x68 ≤ f.major.toNat ∧ f.major.toNat < 0x70 then decMatrix f
  else if f.major = 0x78 ∨ f.major = 0x79 then decMatrix f
  else .error .unassignedMajor

/-- The instruction of a head halfword and its tail halfwords. -/
def decodeHead (h : Half) (tail : List Half) : Dec :=
  if tail.length = tailHalves (h.extractLsb' 7 2) then decodeFields (unpackHead h tail) else .error .badLength

-- The encoder, from the same tables.

/-- A field record from its parts; MINOR and the guard go into halfword A. -/
def mkF (maj : BitVec 7) (minor : BitVec 2) (tc : BitVec 2) (dest : BitVec 7) (g : Guard) (s1 s2 : BitVec 5)
    (b : Half) (cd : BitVec 32) : Option Fields :=
  some { major := maj, tc, dest, src1 := s1, src2 := s2, pred := g.pred, pol := if g.pol then 1 else 0, minor, b, cd }

def dX (d : XReg) : BitVec 7 := 0#2 ++ d
def dV (d : VReg) : BitVec 7 := 1#2 ++ (0#1 ++ d)
def dQ (d : QReg) : BitVec 7 := 2#2 ++ (0#2 ++ d)
def dA (d : AccReg) : BitVec 7 := 3#2 ++ (0#2 ++ d)
def dF (d : FmtReg) : BitVec 7 := 3#2 ++ ((0#1 ++ d) + 8#5)
def s4 (v : BitVec 4) : BitVec 5 := 0#1 ++ v
def s3 (v : BitVec 3) : BitVec 5 := 0#2 ++ v
/-- Halfword B with its usual fields (R24). -/
def mkB (src3 : BitVec 5) (urg : BitVec 4) (sc : BitVec 3) (m : BitVec 4) : Half := ((src3 ++ urg) ++ sc) ++ m
def bP (src3 : BitVec 5) (p : PktMod) (m : BitVec 4) : Half := mkB src3 p.urg p.scope.code m
def bM (src3 : BitVec 5) (m : BitVec 4) : Half := mkB src3 0 0 m
def fm (t : FTy) (r : Rm) : BitVec 4 := t.code ++ r.code
def bit1 (b : Bool) : BitVec 1 := if b then 1 else 0
def cdS (mid : BitVec 21) (sf : SlotField) : BitVec 32 := ((bit1 sf.fresh ++ mid) ++ bit1 sf.sv) ++ sf.slot
def cdW (w : FWord) (sf : SlotField) : BitVec 32 := cdS (0#12 ++ w) sf
def cdSig (d : FWord) (n : BitVec 8) (w : FWord) : BitVec 32 := ((0#6 ++ d) ++ n) ++ w
def cdF (w : FWord) : BitVec 32 := 0#23 ++ w
def bBf (l p : BitVec 6) : Half := (0#4 ++ l) ++ p
def bCvt (d s : Ty) (r : Rm) (h : Bool) : Half := (((d.code ++ s.code) ++ r.code) ++ 0#4) ++ bit1 h
def ftyTy : FTy → Ty
  | .f64 => .f64 | .f32 => .f32

/-- The field record of an instruction, with the tail code the opcode map gives; none for an event or for an
instruction of the loader and storer cores. -/
def fieldsOf : Instr → Option Fields
  | .endT g => mkF 0x00 0 1 0 g 0 0 0 0
  | .next g => mkF 0x00 1 1 0 g 0 0 0 0
  | .nop g => mkF 0x00 2 1 0 g 0 0 0 0
  | .bEq g a b d => mkF 0x01 0 3 0 g a b 0 d
  | .bNe g a b d => mkF 0x01 1 3 0 g a b 0 d
  | .bLt g a b d => mkF 0x01 2 3 0 g a b 0 d
  | .bGe g a b d => mkF 0x01 3 3 0 g a b 0 d
  | .bLtu g a b d => mkF 0x02 0 3 0 g a b 0 d
  | .bGeu g a b d => mkF 0x02 1 3 0 g a b 0 d
  | .bLtz g a d => mkF 0x02 2 3 0 g a 0 0 d
  | .bGez g a d => mkF 0x02 3 3 0 g a 0 0 d
  | .bqAny g a d => mkF 0x03 0 3 0 g (s3 a) 0 0 d
  | .bqAll g a d => mkF 0x03 1 3 0 g (s3 a) 0 0 d
  | .jal g d disp => mkF 0x04 0 3 (dX d) g 0 0 0 disp
  | .jr g a => mkF 0x05 0 1 0 g a 0 0 0
  | .loop g c d => mkF 0x06 0 3 0 g c 0 0 d
  | .loopi g n d => mkF 0x06 1 3 0 g 0 0 n d
  | .sarm g prio c i w e => mkF 0x07 0 3 (0#5 ++ prio) g c i (w ++ 0#7) e
  | .sig g f u w n => mkF 0x08 0 3 0 g f 0 (mkB 0 u 0 0) (cdSig 0 n w)
  | .sigw g f v u w n d => mkF 0x08 1 3 0 g f v (mkB 0 u 0 0) (cdSig d n w)
  | .sigv g f v u w n d => mkF 0x09 0 3 0 g f (s4 v) (mkB 0 u 0 0) (cdSig d n w)
  | .falloc g d c => mkF 0x0A 0 2 (dX d) g 0 0 (0#14 ++ c) 0
  | .ffree g f => mkF 0x0A 1 2 0 g f 0 0 0
  | .fpin g f => mkF 0x0A 2 2 0 g f 0 0 0
  | .funpin g f => mkF 0x0A 3 2 0 g f 0 0 0
  | .spawn g c a u cls prio k e => mkF 0x0B 0 3 0 g c a (mkB ((0#1 ++ cls) ++ prio) u 0 k) e
  | .tspawn g a k e => mkF 0x0B 1 3 0 g a 0 (bM 0 k) e
  | .launch g d a u sf => mkF 0x0C 0 3 (dX d) g a 0 (mkB 0 u 0 0) (cdS 0 sf)
  | .rbar g p lw lh sf => mkF 0x0C 1 3 0 g 0 0 (bP (0#2 ++ lh) p (0#1 ++ lw)) (cdS 0 sf)
  | .rid g d i => mkF 0x0D 0 1 (dX d) g i 0 0 0
  | .fld g d i w id => mkF 0x0E 0 3 (dX d) g i 0 (bM id 0) (cdF w)
  | .fst g i s w id => mkF 0x0E 1 3 0 g i s (bM id 0) (cdF w)
  | .fldv g d i w id => mkF 0x0E 2 3 (dV d) g i 0 (bM id 0) (cdF w)
  | .fstv g i s w id => mkF 0x0E 3 3 0 g i (s4 s) (bM id 0) (cdF w)
  | .trap g c => mkF 0x0F 0 2 0 g 0 0 c 0
  | .brk g c => mkF 0x0F 1 2 0 g 0 0 c 0
  | .tresume g p => mkF 0x0F 2 2 0 g p 0 0 0
  | .add g d a b => mkF 0x10 0 1 (dX d) g a b 0 0
  | .sub g d a b => mkF 0x10 1 1 (dX d) g a b 0 0
  | .mul g d a b => mkF 0x10 2 1 (dX d) g a b 0 0
  | .mulh g d a b => mkF 0x11 0 1 (dX d) g a b 0 0
  | .mulhu g d a b => mkF 0x11 1 1 (dX d) g a b 0 0
  | .div g d a b => mkF 0x12 0 1 (dX d) g a b 0 0
  | .divu g d a b => mkF 0x12 1 1 (dX d) g a b 0 0
  | .rem g d a b => mkF 0x12 2 1 (dX d) g a b 0 0
  | .remu g d a b => mkF 0x12 3 1 (dX d) g a b 0 0
  | .min g d a b => mkF 0x13 0 1 (dX d) g a b 0 0
  | .max g d a b => mkF 0x13 1 1 (dX d) g a b 0 0
  | .minu g d a b => mkF 0x13 2 1 (dX d) g a b 0 0
  | .maxu g d a b => mkF 0x13 3 1 (dX d) g a b 0 0
  | .and g d a b => mkF 0x14 0 1 (dX d) g a b 0 0
  | .or g d a b => mkF 0x14 1 1 (dX d) g a b 0 0
  | .xor g d a b => mkF 0x14 2 1 (dX d) g a b 0 0
  | .andn g d a b => mkF 0x14 3 1 (dX d) g a b 0 0
  | .sll g d a b => mkF 0x15 0 1 (dX d) g a b 0 0
  | .srl g d a b => mkF 0x15 1 1 (dX d) g a b 0 0
  | .sra g d a b => mkF 0x15 2 1 (dX d) g a b 0 0
  | .rol g d a b => mkF 0x15 3 1 (dX d) g a b 0 0
  | .ror g d a b => mkF 0x16 0 1 (dX d) g a b 0 0
  | .seq g d a b => mkF 0x1A 0 1 (dX d) g a b 0 0
  | .sne g d a b => mkF 0x1A 1 1 (dX d) g a b 0 0
  | .slt g d a b => mkF 0x1A 2 1 (dX d) g a b 0 0
  | .sltu g d a b => mkF 0x1A 3 1 (dX d) g a b 0 0
  | .clz g d a => mkF 0x16 1 1 (dX d) g a 0 0 0
  | .ctz g d a => mkF 0x16 2 1 (dX d) g a 0 0 0
  | .popc g d a => mkF 0x16 3 1 (dX d) g a 0 0 0
  | .bswap g d a => mkF 0x17 0 1 (dX d) g a 0 0 0
  | .mov g d a => mkF 0x21 0 1 (dX d) g a 0 0 0
  | .sext g d a t => mkF 0x18 0 2 (dX d) g a 0 (bM 0 t.code) 0
  | .zext g d a t => mkF 0x18 1 2 (dX d) g a 0 (bM 0 t.code) 0
  | .bfx g d a l p => mkF 0x19 0 2 (dX d) g a 0 (bBf l p) 0
  | .bfxu g d a l p => mkF 0x19 1 2 (dX d) g a 0 (bBf l p) 0
  | .bfi g d a b l p => mkF 0x19 2 2 (dX d) g a b (bBf l p) 0
  | .sel g d a b c => mkF 0x1B 0 2 (dX d) g a b (bM c 0) 0
  | .addi g d a i => mkF 0x1C 0 2 (dX d) g a 0 i 0
  | .andi g d a i => mkF 0x1C 1 2 (dX d) g a 0 i 0
  | .ori g d a i => mkF 0x1C 2 2 (dX d) g a 0 i 0
  | .xori g d a i => mkF 0x1C 3 2 (dX d) g a 0 i 0
  | .slli g d a s => mkF 0x1D 0 2 (dX d) g a 0 (0#10 ++ s) 0
  | .srli g d a s => mkF 0x1D 1 2 (dX d) g a 0 (0#10 ++ s) 0
  | .srai g d a s => mkF 0x1D 2 2 (dX d) g a 0 (0#10 ++ s) 0
  | .slti g d a i => mkF 0x1E 0 2 (dX d) g a 0 i 0
  | .sltiu g d a i => mkF 0x1E 1 2 (dX d) g a 0 i 0
  | .lea g d b i s off => mkF 0x1F 0 3 (dX d) g b i (bM 0 s) off
  | .li g d i => mkF 0x20 0 3 (dX d) g 0 0 0 i
  | .lih g d a i => mkF 0x20 1 3 (dX d) g a 0 0 i
  | .fadd g d a b t r => mkF 0x28 0 2 (dX d) g a b (bM 0 (fm t r)) 0
  | .fsub g d a b t r => mkF 0x28 1 2 (dX d) g a b (bM 0 (fm t r)) 0
  | .fmul g d a b t r => mkF 0x28 2 2 (dX d) g a b (bM 0 (fm t r)) 0
  | .fdiv g d a b t r => mkF 0x28 3 2 (dX d) g a b (bM 0 (fm t r)) 0
  | .fsqrt g d a t r => mkF 0x29 0 2 (dX d) g a 0 (bM 0 (fm t r)) 0
  | .fma g d a b c t r => mkF 0x29 1 2 (dX d) g a b (bM c (fm t r)) 0
  | .fmin g d a b t => mkF 0x29 2 2 (dX d) g a b (bM 0 (fm t .rne)) 0
  | .fmax g d a b t => mkF 0x29 3 2 (dX d) g a b (bM 0 (fm t .rne)) 0
  | .fcmp g d a b t c => mkF 0x2A 0 2 (dX d) g a b (bM c.code (fm t .rne)) 0
  | .fclass g d a t => mkF 0x2A 1 2 (dX d) g a 0 (bM 0 (fm t .rne)) 0
  | .fsgnj g d a b t v => mkF 0x2A 2 2 (dX d) g a b (bM v.code (fm t .rne)) 0
  | .fcvt g d a dt st r => mkF 0x2A 3 2 (dX d) g a 0 (bCvt dt st r false) 0
  | .vfadd g d a b t r => mkF 0x30 0 2 (dV d) g (s4 a) (s4 b) (bM 0 (fm t r)) 0
  | .vfsub g d a b t r => mkF 0x30 1 2 (dV d) g (s4 a) (s4 b) (bM 0 (fm t r)) 0
  | .vfmul g d a b t r => mkF 0x30 2 2 (dV d) g (s4 a) (s4 b) (bM 0 (fm t r)) 0
  | .vfdiv g d a b t r => mkF 0x31 2 2 (dV d) g (s4 a) (s4 b) (bM 0 (fm t r)) 0
  | .vfma g d a b c t r => mkF 0x30 3 2 (dV d) g (s4 a) (s4 b) (bM (s4 c) (fm t r)) 0
  | .vfmin g d a b t => mkF 0x31 0 2 (dV d) g (s4 a) (s4 b) (bM 0 (fm t .rne)) 0
  | .vfmax g d a b t => mkF 0x31 1 2 (dV d) g (s4 a) (s4 b) (bM 0 (fm t .rne)) 0
  | .vfsqrt g d a t r => mkF 0x31 3 2 (dV d) g (s4 a) 0 (bM 0 (fm t r)) 0
  | .vadd g d a b t s => mkF 0x32 0 2 (dV d) g (s4 a) (s4 b) (bM (0#4 ++ bit1 s) t.code) 0
  | .vsub g d a b t s => mkF 0x32 1 2 (dV d) g (s4 a) (s4 b) (bM (0#4 ++ bit1 s) t.code) 0
  | .vmul g d a b t => mkF 0x32 2 2 (dV d) g (s4 a) (s4 b) (bM 0 t.code) 0
  | .vmulh g d a b t => mkF 0x32 3 2 (dV d) g (s4 a) (s4 b) (bM 0 t.code) 0
  | .vmin g d a b t => mkF 0x33 0 2 (dV d) g (s4 a) (s4 b) (bM 0 t.code) 0
  | .vmax g d a b t => mkF 0x33 1 2 (dV d) g (s4 a) (s4 b) (bM 0 t.code) 0
  | .vand g d a b t => mkF 0x33 2 2 (dV d) g (s4 a) (s4 b) (bM 0 t.code) 0
  | .vor g d a b t => mkF 0x33 3 2 (dV d) g (s4 a) (s4 b) (bM 0 t.code) 0
  | .vxor g d a b t => mkF 0x34 0 2 (dV d) g (s4 a) (s4 b) (bM 0 t.code) 0
  | .vsll g d a b t => mkF 0x34 1 2 (dV d) g (s4 a) (s4 b) (bM 0 t.code) 0
  | .vsrl g d a b t => mkF 0x34 2 2 (dV d) g (s4 a) (s4 b) (bM 0 t.code) 0
  | .vsra g d a b t => mkF 0x34 3 2 (dV d) g (s4 a) (s4 b) (bM 0 t.code) 0
  | .vperm g d a b t => mkF 0x39 0 2 (dV d) g (s4 a) (s4 b) (bM 0 t.code) 0
  | .vfcmp g d a b t c => mkF 0x35 0 2 (dQ d) g (s4 a) (s4 b) (bM c.code (fm t .rne)) 0
  | .vcmp g d a b t c => mkF 0x35 1 2 (dQ d) g (s4 a) (s4 b) (bM c.code t.code) 0
  | .vsel g d a b m t => mkF 0x36 0 2 (dV d) g (s4 a) (s4 b) (bM (s3 m) t.code) 0
  | .vredsum g d a t => mkF 0x37 0 2 (dX d) g (s4 a) 0 (bM 0 t.code) 0
  | .vredmin g d a t => mkF 0x37 1 2 (dX d) g (s4 a) 0 (bM 0 t.code) 0
  | .vredmax g d a t => mkF 0x37 2 2 (dX d) g (s4 a) 0 (bM 0 t.code) 0
  | .vscan g d a t o => mkF 0x38 0 2 (dV d) g (s4 a) 0 (bM o.code t.code) 0
  | .vbcast g d s t => mkF 0x39 1 2 (dV d) g s 0 (bM 0 t.code) 0
  | .vext g d a i t => mkF 0x39 2 2 (dX d) g (s4 a) i (bM 0 t.code) 0
  | .vins g d s i t => mkF 0x39 3 2 (dV d) g s i (bM 0 t.code) 0
  | .vcompress d a m t => mkF 0x3A 0 2 (dV d) ⟨0, false⟩ (s4 a) 0 (bM (s3 m) t.code) 0
  | .vexpand d a m t => mkF 0x3A 1 2 (dV d) ⟨0, false⟩ (s4 a) 0 (bM (s3 m) t.code) 0
  | .vcvt g d a dt st r h => mkF 0x3B 0 2 (dV d) g (s4 a) 0 (bCvt dt st r h) 0
  | .vexp2 g d a r => mkF 0x3C 0 2 (dV d) g (s4 a) 0 (bM 0 (fm .f32 r)) 0
  | .vrcp g d a r => mkF 0x3C 1 2 (dV d) g (s4 a) 0 (bM 0 (fm .f32 r)) 0
  | .vrsqrt g d a r => mkF 0x3C 2 2 (dV d) g (s4 a) 0 (bM 0 (fm .f32 r)) 0
  | .pmaskLt g d a b t => mkF 0x3D 0 2 (dQ d) g a b (bM 0 t.code) 0
  | .pand g d a b => mkF 0x3E 0 1 (dQ d) g (s3 a) (s3 b) 0 0
  | .por g d a b => mkF 0x3E 1 1 (dQ d) g (s3 a) (s3 b) 0 0
  | .pxor g d a b => mkF 0x3E 2 1 (dQ d) g (s3 a) (s3 b) 0 0
  | .pnot g d a => mkF 0x3E 3 1 (dQ d) g (s3 a) 0 0 0
  | .pcnt g d a => mkF 0x3F 0 1 (dX d) g (s3 a) 0 0 0
  | .pfirst g d a => mkF 0x3F 1 1 (dX d) g (s3 a) 0 0 0
  | .ld g d b t id off => mkF 0x50 0 3 (dX d) g b 0 (bM id t.code) off
  | .st g b s t id off => mkF 0x50 1 3 0 g b s (bM id t.code) off
  | .vld g d b t id off => mkF 0x51 0 3 (dV d) g b 0 (bM id t.code) off
  | .vst g b s t id off => mkF 0x51 1 3 0 g b (s4 s) (bM id t.code) off
  | .vldf g d b n id st => mkF 0x52 0 3 (dV d) g b 0 (bM id n) (0#22 ++ st)
  | .vstq g b s n id st k => mkF 0x52 1 3 0 g b (s4 s) (bM id n) ((0#21 ++ bit1 k) ++ st)
  | .get g a w t p sf => mkF 0x53 0 3 0 g a 0 (bP 0 p t.code) (cdW w sf)
  | .put g a w t p sf => mkF 0x53 1 3 0 g a 0 (bP 0 p t.code) (cdW w sf)
  | .vget g a w p sf => mkF 0x54 0 3 0 g a 0 (bP 0 p 0) (cdW w sf)
  | .vput g a w p sf => mkF 0x54 1 3 0 g a 0 (bP 0 p 0) (cdW w sf)
  | .copy g d s n p sf => mkF 0x55 0 3 0 g d s (bP n p 0) (cdS 0 sf)
  | .gather g d b v e bd n p sf => mkF 0x56 0 3 0 g d b (bP (s4 v) p e) (cdS (bd ++ n) sf)
  | .scatter g b s v e bd n p sf => mkF 0x56 1 3 0 g b s (bP (s4 v) p e) (cdS (bd ++ n) sf)
  | .amsg g a r prio k p e => mkF 0x57 0 3 0 g a r (bP (0#3 ++ prio) p k) e
  | .own g m c w p sf => mkF 0x57 1 3 0 g m c (bP 0 p 0) (cdW w sf)
  | .ldfe g a w p sf => mkF 0x58 0 3 0 g a 0 (bP 0 p 0) (cdW w sf)
  | .stef g a v p sf => mkF 0x58 1 3 0 g a v (bP 0 p 0) (cdS 0 sf)
  | .tagf g a p sf => mkF 0x58 2 3 0 g a 0 (bP 0 p 0) (cdS 0 sf)
  | .tage g a p sf => mkF 0x58 3 3 0 g a 0 (bP 0 p 0) (cdS 0 sf)
  | .amoAdd g a v w t p sf => mkF 0x59 0 3 0 g a v (bP 0 p t.code) (cdW w sf)
  | .amoAnd g a v w t p sf => mkF 0x59 1 3 0 g a v (bP 0 p t.code) (cdW w sf)
  | .amoOr g a v w t p sf => mkF 0x59 2 3 0 g a v (bP 0 p t.code) (cdW w sf)
  | .amoXor g a v w t p sf => mkF 0x59 3 3 0 g a v (bP 0 p t.code) (cdW w sf)
  | .amoMin g a v w t p sf => mkF 0x5A 0 3 0 g a v (bP 0 p t.code) (cdW w sf)
  | .amoMax g a v w t p sf => mkF 0x5A 1 3 0 g a v (bP 0 p t.code) (cdW w sf)
  | .amoSwap g a v w t p sf => mkF 0x5A 2 3 0 g a v (bP 0 p t.code) (cdW w sf)
  | .amoCas g a v c w t p sf => mkF 0x5A 3 3 0 g a v (bP c p t.code) (cdW w sf)
  | .redAdd g a v t p => mkF 0x5B 0 3 0 g a v (bP 0 p t.code) 0
  | .redMin g a v t p => mkF 0x5B 1 3 0 g a v (bP 0 p t.code) 0
  | .redMax g a v t p => mkF 0x5B 2 3 0 g a v (bP 0 p t.code) 0
  | .csnap g a w p sf => mkF 0x5C 0 3 0 g a 0 (bP 0 p 0) (cdW w sf)
  | .fenceRel g s => mkF 0x5D 0 2 0 g 0 0 (mkB 0 0 s.code 0) 0
  | .fenceAcq g s => mkF 0x5D 1 2 0 g 0 0 (mkB 0 0 s.code 0) 0
  | .sigRel g f w n p => mkF 0x5E 0 3 0 g f 0 (bP 0 p 0) ((0#15 ++ n) ++ w)
  | .enq g d q r k p sf => mkF 0x5F 0 3 (dX d) g q r (bP 0 p k) (cdS 0 sf)
  | .enqA g d q r k p sf => mkF 0x5F 1 3 (dX d) g q r (bP 0 p k) (cdS 0 sf)
  | .deq g d q w k p fr => mkF 0x5F 2 3 (dX d) g q 0 (bP 0 p k) (cdW w ⟨fr, false, 0⟩)
  | .stgClaim g r s => mkF 0x60 0 3 0 g r s 0 0
  | .stgFree g r s => mkF 0x60 1 3 0 g r s 0 0
  | .mma g d a b k p sf => mkF 0x68 0 3 (dA d) g a b (bP 0 p k) (cdS 0 sf)
  | .mmaF32 g d a b k p sf => mkF 0x68 1 3 (dA d) g a b (bP 0 p k) (cdS 0 sf)
  | .mmaF64 g d a b k p sf => mkF 0x68 2 3 (dA d) g a b (bP 0 p k) (cdS 0 sf)
  | .mmag g d a b v k p sf => mkF 0x69 0 3 (dA d) g a b (bP (s4 v) p k) (cdS 0 sf)
  | .mmas g d a b k p sf => mkF 0x69 1 3 (dA d) g a b (bP 0 p k) (cdS 0 sf)
  | .mscan g d a b t p sf => mkF 0x6A 0 3 (dA d) g a b (bP t p 0) (cdS 0 sf)
  | .mscanSeg g d a b t p sf => mkF 0x6A 1 3 (dA d) g a b (bP t p 0) (cdS 0 sf)
  | .accGet g d => mkF 0x6B 0 2 (dA d) g 0 0 0 0
  | .accGive g d => mkF 0x6B 1 2 (dA d) g 0 0 0 0
  | .accZero g d => mkF 0x6B 2 2 (dA d) g 0 0 0 0
  | .accLd g d a n t p sf => mkF 0x6C 0 3 (dA d) g a 0 (bP n p t.code) (cdS 0 sf)
  | .accSt g a s n t p sf => mkF 0x6C 1 3 0 g a (s3 s) (bP n p t.code) (cdS 0 sf)
  | .accAdd g d s t => mkF 0x6D 0 2 (dA d) g (s3 s) 0 (bM 0 (ftyTy t).code) 0
  | .accRed g d s t => mkF 0x6D 1 2 (dA d) g (s3 s) 0 (bM 0 (ftyTy t).code) 0
  | .qtile g a s n k p sf => mkF 0x6E 0 3 0 g a (s3 s) (bP 0 p n) (cdS (bit1 k ++ 0#20) sf)
  | .fmtSet g n s => mkF 0x6F 0 1 (dF n) g s 0 0 0
  | .fmtGet g d n => mkF 0x6F 1 1 (dX d) g (s4 n) 0 0 0
  | .sysr g d n => mkF 0x78 0 2 (dX d) g n 0 0 0
  | .sysw g n s => mkF 0x78 1 2 0 g n s 0 0
  | .ctrRd g d n => mkF 0x79 0 2 (dX d) g (s4 n) 0 0 0
  | .ctrCfg g n s => mkF 0x79 1 2 0 g (s4 n) s 0 0
  | _ => none

-- Loader and storer cores: RV64IMC and the custom forms (R84, R95, R96).

/-- The sixteen-bit compressed forms, each as the base instruction it stands for (RV64C, R84).
The all-zero halfword and the reserved encodings give none. -/
def rvcExpand (h : Half) : Option RvInstr :=
  let op := (h.extractLsb' 0 2).toNat
  let f3 := (h.extractLsb' 13 3).toNat
  let rd : XReg := h.extractLsb' 7 5
  let rs2 : XReg := h.extractLsb' 2 5
  let rdp : XReg := 1#2 ++ (h.extractLsb' 2 3)
  let rs1p : XReg := 1#2 ++ (h.extractLsb' 7 3)
  let imm6 : BitVec 12 := (h.extractLsb' 12 1 ++ h.extractLsb' 2 5).signExtend 12
  let sh6 : BitVec 6 := h.extractLsb' 12 1 ++ h.extractLsb' 2 5
  let uimmW : BitVec 12 := (((h.extractLsb' 5 1 ++ h.extractLsb' 10 3) ++ h.extractLsb' 6 1) ++ 0#2).setWidth 12
  let uimmD : BitVec 12 := ((h.extractLsb' 5 2 ++ h.extractLsb' 10 3) ++ 0#3).setWidth 12
  let bimm : BitVec 12 := ((((h.extractLsb' 12 1 ++ h.extractLsb' 5 2) ++ h.extractLsb' 2 1) ++ h.extractLsb' 10 2) ++
    h.extractLsb' 3 2).signExtend 12
  let jimm : BitVec 20 := (((((((h.extractLsb' 12 1 ++ h.extractLsb' 8 1) ++ h.extractLsb' 9 2) ++ h.extractLsb' 6 1) ++
    h.extractLsb' 7 1) ++ h.extractLsb' 2 1) ++ h.extractLsb' 11 1) ++ h.extractLsb' 3 3).signExtend 20
  match op, f3 with
  | 0, 0 =>
    let u : BitVec 12 := ((((h.extractLsb' 7 4 ++ h.extractLsb' 11 2) ++ h.extractLsb' 5 1) ++ h.extractLsb' 6 1) ++ 0#2).setWidth 12
    if u = 0 then none else some (.imm .addi rdp 2 u)
  | 0, 2 => some (.load .lw rdp rs1p uimmW)
  | 0, 3 => some (.load .ld rdp rs1p uimmD)
  | 0, 6 => some (.store .sw rs1p rdp uimmW)
  | 0, 7 => some (.store .sd rs1p rdp uimmD)
  | 1, 0 => some (.imm .addi rd rd imm6)
  | 1, 1 => if rd = 0 then none else some (.addiw rd rd imm6)
  | 1, 2 => some (.imm .addi rd 0 imm6)
  | 1, 3 =>
    if rd = 2 then
      let u : BitVec 12 := (((((h.extractLsb' 12 1 ++ h.extractLsb' 3 2) ++ h.extractLsb' 5 1) ++ h.extractLsb' 2 1) ++
        h.extractLsb' 6 1) ++ 0#4).signExtend 12
      if u = 0 then none else some (.imm .addi 2 2 u)
    else if sh6 = 0 then none else some (.lui rd (sh6.signExtend 20))
  | 1, 4 =>
    match (h.extractLsb' 10 2).toNat with
    | 0 => some (.sh .srli rs1p rs1p sh6)
    | 1 => some (.sh .srai rs1p rs1p sh6)
    | 2 => some (.imm .andi rs1p rs1p imm6)
    | _ =>
      match (h.extractLsb' 12 1).toNat, (h.extractLsb' 5 2).toNat with
      | 0, 0 => some (.op .sub rs1p rs1p rdp)
      | 0, 1 => some (.op .xor rs1p rs1p rdp)
      | 0, 2 => some (.op .or rs1p rs1p rdp)
      | 0, 3 => some (.op .and rs1p rs1p rdp)
      | 1, 0 => some (.opw .subw rs1p rs1p rdp)
      | 1, 1 => some (.opw .addw rs1p rs1p rdp)
      | _, _ => none
  | 1, 5 => some (.jal 0 jimm)
  | 1, 6 => some (.br .beq rs1p 0 bimm)
  | 1, 7 => some (.br .bne rs1p 0 bimm)
  | 2, 0 => some (.sh .slli rd rd sh6)
  | 2, 2 =>
    if rd = 0 then none
    else some (.load .lw rd 2 ((((h.extractLsb' 2 2 ++ h.extractLsb' 12 1) ++ h.extractLsb' 4 3) ++ 0#2).setWidth 12))
  | 2, 3 =>
    if rd = 0 then none
    else some (.load .ld rd 2 ((((h.extractLsb' 2 3 ++ h.extractLsb' 12 1) ++ h.extractLsb' 5 2) ++ 0#3).setWidth 12))
  | 2, 4 =>
    if h.extractLsb' 12 1 = 0 then
      if rs2 = 0 then (if rd = 0 then none else some (.jalr 0 rd 0)) else some (.op .add rd 0 rs2)
    else if rs2 = 0 then (if rd = 0 then some .ebreak else some (.jalr 1 rd 0)) else some (.op .add rd rd rs2)
  | 2, 6 => some (.store .sw 2 rs2 (((h.extractLsb' 7 2 ++ h.extractLsb' 9 4) ++ 0#2).setWidth 12))
  | 2, 7 => some (.store .sd 2 rs2 (((h.extractLsb' 7 3 ++ h.extractLsb' 10 3) ++ 0#3).setWidth 12))
  | _, _ => none

/-- The register arithmetic that funct7 and funct3 name. -/
def rvOpOf (f7 f3 : Nat) : Option RvOp :=
  match f7, f3 with
  | 0, 0 => some .add | 0x20, 0 => some .sub | 0, 1 => some .sll | 0, 2 => some .slt | 0, 3 => some .sltu
  | 0, 4 => some .xor | 0, 5 => some .srl | 0x20, 5 => some .sra | 0, 6 => some .or | 0, 7 => some .and
  | 1, 0 => some .mul | 1, 1 => some .mulh | 1, 2 => some .mulhsu | 1, 3 => some .mulhu
  | 1, 4 => some .div | 1, 5 => some .divu | 1, 6 => some .rem | 1, 7 => some .remu
  | _, _ => none

def RvOp.code : RvOp → BitVec 7 × BitVec 3
  | .add => (0, 0) | .sub => (0x20, 0) | .sll => (0, 1) | .slt => (0, 2) | .sltu => (0, 3)
  | .xor => (0, 4) | .srl => (0, 5) | .sra => (0x20, 5) | .or => (0, 6) | .and => (0, 7)
  | .mul => (1, 0) | .mulh => (1, 1) | .mulhsu => (1, 2) | .mulhu => (1, 3)
  | .div => (1, 4) | .divu => (1, 5) | .rem => (1, 6) | .remu => (1, 7)

def rvOpwOf (f7 f3 : Nat) : Option RvOpW :=
  match f7, f3 with
  | 0, 0 => some .addw | 0x20, 0 => some .subw | 0, 1 => some .sllw | 0, 5 => some .srlw | 0x20, 5 => some .sraw
  | 1, 0 => some .mulw | 1, 4 => some .divw | 1, 5 => some .divuw | 1, 6 => some .remw | 1, 7 => some .remuw
  | _, _ => none

def RvOpW.code : RvOpW → BitVec 7 × BitVec 3
  | .addw => (0, 0) | .subw => (0x20, 0) | .sllw => (0, 1) | .srlw => (0, 5) | .sraw => (0x20, 5)
  | .mulw => (1, 0) | .divw => (1, 4) | .divuw => (1, 5) | .remw => (1, 6) | .remuw => (1, 7)

def RvBr.code : RvBr → BitVec 3
  | .beq => 0 | .bne => 1 | .blt => 4 | .bge => 5 | .bltu => 6 | .bgeu => 7
def rvBrOf : Nat → Option RvBr
  | 0 => some .beq | 1 => some .bne | 4 => some .blt | 5 => some .bge | 6 => some .bltu | 7 => some .bgeu | _ => none
def RvLd.code : RvLd → BitVec 3
  | .lb => 0 | .lh => 1 | .lw => 2 | .ld => 3 | .lbu => 4 | .lhu => 5 | .lwu => 6
def rvLdOf : Nat → Option RvLd
  | 0 => some .lb | 1 => some .lh | 2 => some .lw | 3 => some .ld | 4 => some .lbu | 5 => some .lhu | 6 => some .lwu
  | _ => none
def RvSt.code : RvSt → BitVec 3
  | .sb => 0 | .sh => 1 | .sw => 2 | .sd => 3
def rvStOf : Nat → Option RvSt
  | 0 => some .sb | 1 => some .sh | 2 => some .sw | 3 => some .sd | _ => none
def RvImm.code : RvImm → BitVec 3
  | .addi => 0 | .slti => 2 | .sltiu => 3 | .xori => 4 | .ori => 6 | .andi => 7

/-- The custom forms of R96 under the opcodes custom-0 and, with `op1`, custom-1: the R-type fields of R95, or the 12-bit
immediate of the I-type forms; the fields the table requires zero. -/
def rvCustom (w : BitVec 32) (op1 : Bool) : Dec :=
  let f7 := w.extractLsb' 25 7
  let rs2 : XReg := w.extractLsb' 20 5
  let rs1 : XReg := w.extractLsb' 15 5
  let rd : XReg := w.extractLsb' 7 5
  let imm : BitVec 12 := w.extractLsb' 20 12
  match op1, (w.extractLsb' 12 3).toNat with
  | false, 0 => need (f7 = 0 && rs2 = 0) .unusedNonzero <| .ok (.cpGo rd rs1)
  | false, 1 => need (f7 = 0) .unusedNonzero <| .ok (.cpWait rd rs1 rs2)
  | false, 2 => need (f7 = 0 && rs2 = 0) .unusedNonzero <| .ok (.cpStat rd rs1)
  | false, 3 => need (f7 = 0 && rd = 0) .unusedNonzero <| .ok (.lsSig rs1 rs2)
  | false, 4 => need (rs1 = 0) .unusedNonzero <| .ok (.lsRid rd imm)
  | false, 5 => need (f7 = 0 && rs2 = 0 && rs1 = 0 && rd = 0) .unusedNonzero <| .ok .lsEnd
  | true, 0 => need (f7 = 0) .unusedNonzero <| .ok (.stgAcq rd rs1 rs2)
  | true, 1 => need (f7 = 0) .unusedNonzero <| .ok (.stgTry rd rs1 rs2)
  | true, 2 => need (f7 = 0) .unusedNonzero <| .ok (.stgRd rd rs1 rs2)
  | true, 3 => .ok (.epRd rd rs1 imm)
  | true, 4 => need (f7 = 0) .unusedNonzero <| .ok (.lsLdw rd rs1 rs2)
  | true, 5 => need (f7 = 0 && rd = 0) .unusedNonzero <| .ok (.lsStw rs1 rs2)
  | _, _ => .error .reservedMinor

/-- A base RV64IM instruction of 32 bits. -/
def rvBase (w : BitVec 32) : Option RvInstr :=
  let f7 := (w.extractLsb' 25 7).toNat
  let rs2 : XReg := w.extractLsb' 20 5
  let rs1 : XReg := w.extractLsb' 15 5
  let rd : XReg := w.extractLsb' 7 5
  let f3 := (w.extractLsb' 12 3).toNat
  let imm : BitVec 12 := w.extractLsb' 20 12
  match (w.extractLsb' 0 7).toNat with
  | 0x37 => some (.lui rd (w.extractLsb' 12 20))
  | 0x17 => some (.auipc rd (w.extractLsb' 12 20))
  | 0x6f => some (.jal rd (((w.extractLsb' 31 1 ++ w.extractLsb' 12 8) ++ w.extractLsb' 20 1) ++ w.extractLsb' 21 10))
  | 0x67 => if f3 = 0 then some (.jalr rd rs1 imm) else none
  | 0x63 => (rvBrOf f3).map fun o =>
      .br o rs1 rs2 (((w.extractLsb' 31 1 ++ w.extractLsb' 7 1) ++ w.extractLsb' 25 6) ++ w.extractLsb' 8 4)
  | 0x03 => (rvLdOf f3).map fun o => .load o rd rs1 imm
  | 0x23 => (rvStOf f3).map fun o => .store o rs1 rs2 (w.extractLsb' 25 7 ++ w.extractLsb' 7 5)
  | 0x13 =>
    match f3 with
    | 0 => some (.imm .addi rd rs1 imm)
    | 2 => some (.imm .slti rd rs1 imm)
    | 3 => some (.imm .sltiu rd rs1 imm)
    | 4 => some (.imm .xori rd rs1 imm)
    | 6 => some (.imm .ori rd rs1 imm)
    | 7 => some (.imm .andi rd rs1 imm)
    | 1 => if w.extractLsb' 26 6 = 0 then some (.sh .slli rd rs1 (w.extractLsb' 20 6)) else none
    | _ => if w.extractLsb' 26 6 = 0 then some (.sh .srli rd rs1 (w.extractLsb' 20 6))
           else if w.extractLsb' 26 6 = 0x10 then some (.sh .srai rd rs1 (w.extractLsb' 20 6)) else none
  | 0x1b =>
    match f3, f7 with
    | 0, _ => some (.addiw rd rs1 imm)
    | 1, 0 => some (.shw .slliw rd rs1 rs2)
    | 5, 0 => some (.shw .srliw rd rs1 rs2)
    | 5, 0x20 => some (.shw .sraiw rd rs1 rs2)
    | _, _ => none
  | 0x33 => (rvOpOf f7 f3).map fun o => .op o rd rs1 rs2
  | 0x3b => (rvOpwOf f7 f3).map fun o => .opw o rd rs1 rs2
  | 0x0f => if f3 = 0 then some (.fence rd rs1 imm) else none
  | 0x73 => if w = 0x00000073 then some .ecall else if w = 0x00100073 then some .ebreak else none
  | _ => none

/-- A 32-bit instruction of a loader or storer core. -/
def decodeRv32 (w : BitVec 32) : Dec :=
  match (w.extractLsb' 0 7).toNat with
  | 0x0b => rvCustom w false
  | 0x2b => rvCustom w true
  | _ => match rvBase w with
    | some i => .ok (.rv64imcInstruction (.full i))
    | none => .error .unassignedMajor

/-- A 16-bit instruction of a loader or storer core. -/
def decodeRv16 (h : Half) : Dec :=
  match rvcExpand h with
  | some i => .ok (.rv64imcInstruction (.comp h i))
  | none => .error .unassignedMajor

/-- The bits of a base instruction in its 32-bit form. -/
def encodeRvBase : RvInstr → BitVec 32
  | .lui rd i => (i ++ rd) ++ 0x37#7
  | .auipc rd i => (i ++ rd) ++ 0x17#7
  | .jal rd i => ((((i.extractLsb' 19 1 ++ i.extractLsb' 0 10) ++ i.extractLsb' 10 1) ++ i.extractLsb' 11 8) ++ rd) ++ 0x6f#7
  | .jalr rd rs1 i => (((i ++ rs1) ++ 0#3) ++ rd) ++ 0x67#7
  | .br o rs1 rs2 i => ((((((i.extractLsb' 11 1 ++ i.extractLsb' 4 6) ++ rs2) ++ rs1) ++ o.code) ++ i.extractLsb' 0 4) ++
      i.extractLsb' 10 1) ++ 0x63#7
  | .load o rd rs1 i => (((i ++ rs1) ++ o.code) ++ rd) ++ 0x03#7
  | .store o rs1 rs2 i => ((((i.extractLsb' 5 7 ++ rs2) ++ rs1) ++ o.code) ++ i.extractLsb' 0 5) ++ 0x23#7
  | .imm o rd rs1 i => (((i ++ rs1) ++ o.code) ++ rd) ++ 0x13#7
  | .sh .slli rd rs1 s => ((((0#6 ++ s) ++ rs1) ++ 1#3) ++ rd) ++ 0x13#7
  | .sh .srli rd rs1 s => ((((0#6 ++ s) ++ rs1) ++ 5#3) ++ rd) ++ 0x13#7
  | .sh .srai rd rs1 s => ((((0x10#6 ++ s) ++ rs1) ++ 5#3) ++ rd) ++ 0x13#7
  | .addiw rd rs1 i => (((i ++ rs1) ++ 0#3) ++ rd) ++ 0x1b#7
  | .shw .slliw rd rs1 s => ((((0#7 ++ s) ++ rs1) ++ 1#3) ++ rd) ++ 0x1b#7
  | .shw .srliw rd rs1 s => ((((0#7 ++ s) ++ rs1) ++ 5#3) ++ rd) ++ 0x1b#7
  | .shw .sraiw rd rs1 s => ((((0x20#7 ++ s) ++ rs1) ++ 5#3) ++ rd) ++ 0x1b#7
  | .op o rd rs1 rs2 => ((((o.code.1 ++ rs2) ++ rs1) ++ o.code.2) ++ rd) ++ 0x33#7
  | .opw o rd rs1 rs2 => ((((o.code.1 ++ rs2) ++ rs1) ++ o.code.2) ++ rd) ++ 0x3b#7
  | .fence rd rs1 i => (((i ++ rs1) ++ 0#3) ++ rd) ++ 0x0f#7
  | .ecall => 0x00000073#32
  | .ebreak => 0x00100073#32

/-- An R-type custom word (R95). -/
def rvR (rs2 rs1 : XReg) (f3 : BitVec 3) (rd : XReg) (op : BitVec 7) : BitVec 32 :=
  ((((0#7 ++ rs2) ++ rs1) ++ f3) ++ rd) ++ op
/-- An I-type custom word (R95). -/
def rvI (i : BitVec 12) (rs1 : XReg) (f3 : BitVec 3) (rd : XReg) (op : BitVec 7) : BitVec 32 :=
  (((i ++ rs1) ++ f3) ++ rd) ++ op

/-- The 32-bit word of an instruction of the loader and storer cores. -/
def rvWordOf : Instr → Option (BitVec 32)
  | .rv64imcInstruction (.full i) => some (encodeRvBase i)
  | .cpGo d a => some (rvR 0 a 0 d 0x0b)
  | .cpWait d a b => some (rvR b a 1 d 0x0b)
  | .cpStat d a => some (rvR 0 a 2 d 0x0b)
  | .lsSig a b => some (rvR b a 3 0 0x0b)
  | .lsRid d i => some (rvI i 0 4 d 0x0b)
  | .lsEnd => some (rvR 0 0 5 0 0x0b)
  | .stgAcq d a b => some (rvR b a 0 d 0x2b)
  | .stgTry d a b => some (rvR b a 1 d 0x2b)
  | .stgRd d a b => some (rvR b a 2 d 0x2b)
  | .epRd d a i => some (rvI i a 3 d 0x2b)
  | .lsLdw d a b => some (rvR b a 4 d 0x2b)
  | .lsStw a b => some (rvR b a 5 0 0x2b)
  | _ => none

/-- The halfwords of an instruction, first one first: a head with its tail, or the halves of a loader or storer
instruction. None for an event, which has no encoding. -/
def encode (i : Instr) : Option (List Half) :=
  match fieldsOf i with
  | some f => some (packHead f :: packTail f)
  | none =>
    match i with
    | .rv64imcInstruction (.comp h _) => some [h]
    | _ => (rvWordOf i).map fun w => [w.extractLsb' 0 16, w.extractLsb' 16 16]

/-- The instruction a loader or storer core reads from the halfwords at its pc; two low bits of 0b11 make it 32 bits. -/
def decodeRv (h0 h1 : Half) : Dec :=
  if h0.extractLsb' 0 2 = 3 then decodeRv32 (h1 ++ h0) else decodeRv16 h0

/-- The instruction of a table row whose bits are w: 16 or 32 bits are an instruction of the loader and storer cores
(the rows with bits of their own); 48 and 80 bits are a head with its tail of 4 or 8 bytes. -/
def decodeTableWord (nbits w : Nat) : Option Instr :=
  let half (n : Nat) : Half := BitVec.ofNat 16 (w / 2 ^ (16 * n))
  let r : Dec :=
    match nbits with
    | 16 => decodeRv (half 0) 0
    | 32 => decodeRv (half 0) (half 1)
    | 48 => decodeHead (half 0) [half 1, half 2]
    | 80 => decodeHead (half 0) [half 1, half 2, half 3, half 4]
    | _ => .error .badLength
  match r with
  | .ok i => some i
  | .error _ => none

-- The line (R21-R28).

/-- Byte k of a line image. -/
def lineByte (l : Line64) (k : Nat) : Byte := l.extractLsb' (8 * k) 8
/-- Halfword n of a line image (R3). -/
def lineHalf (l : Line64) (n : Nat) : Half := l.extractLsb' (16 * n) 16

/-- The header of a line (R21). -/
structure LineHdr where
  h : Nat
  tlen : Nat
  kind : BitVec 2
  low : BitVec 4
  mask : BitVec 32
  deriving DecidableEq, Repr

def lineHdr (l : Line64) : LineHdr :=
  { h := ((lineHalf l 0).extractLsb' 11 5).toNat, tlen := ((lineHalf l 0).extractLsb' 6 5).toNat,
    kind := (lineHalf l 0).extractLsb' 4 2, low := (lineHalf l 0).extractLsb' 0 4,
    mask := lineHalf l 2 ++ lineHalf l 1 }

/-- The head halfwords of a line. -/
def lineHeads (l : Line64) (h : Nat) : List Half := (List.range h).map fun k => lineHalf l (3 + k)

/-- The tail length in bytes of a head (R22). -/
def headLen (h : Half) : Nat := 2 * tailHalves (h.extractLsb' 7 2)

/-- The field records of the heads, from head k at tail offset off (R23). -/
def lineFields (l : Line64) : List Half → Nat → List Fields
  | [], _ => []
  | h :: hs, off =>
    let n := tailHalves (h.extractLsb' 7 2)
    let base := 32 - off - n
    unpackHead h ((List.range n).map fun j => lineHalf l (base + j)) :: lineFields l hs (off + n)

/-- The role of a head in the load/store identifiers (R28, R39): "ld", "st" or neither. -/
inductive LsRole where
  | ld | st | none
  deriving DecidableEq, Repr

def lsRole (f : Fields) : LsRole :=
  match f.major.toNat, f.minor.toNat with
  | 0x0E, 0 => .ld | 0x0E, 1 => .st | 0x0E, 2 => .ld | 0x0E, 3 => .st
  | 0x50, 0 => .ld | 0x50, 1 => .st | 0x51, 0 => .ld | 0x51, 1 => .st | 0x52, 0 => .ld | 0x52, 1 => .st
  | _, _ => .none

/-- A head that takes part in the rules of R28: marked ld or st, with tail code 0 or the map's. -/
def lsTakesPart (f : Fields) : Bool := lsRole f ≠ .none && (f.tc = 0 || f.tc = 3)

/-- Identifiers rise strictly (R28). -/
def idsRise : List Fields → Option Nat → Bool
  | [], _ => true
  | f :: fs, last =>
    if lsTakesPart f then
      (match last with | some n => n < f.src3.toNat | none => true) && idsRise fs (some f.src3.toNat)
    else idsRise fs last

/-- The store mask the heads ask for (R28). -/
def wantMask : List Fields → BitVec 32
  | [] => 0
  | f :: fs => (if lsTakesPart f && lsRole f = .st then 1#32 <<< f.src3.toNat else 0) ||| wantMask fs

/-- Matrix requests by major and minor (R203). -/
def isMatReq (f : Fields) : Bool :=
  (f.major = 0x68 && f.minor ≠ 3) || (f.major = 0x6B && f.minor = 2) ||
  ([0x69, 0x6A, 0x6C, 0x6D].contains f.major.toNat && f.minor.toNat ≤ 1)

/-- The checks of R27 on a line, in one answer: true when the line-format trap is not raised. Matrix and copy heads are counted
by major and minor, an illegal tail code among them, on which the spec is silent (log 52). -/
def lineOk (l : Line64) : Bool :=
  let hd := lineHdr l
  let heads := lineHeads l hd.h
  let total := (heads.map headLen).sum
  let fs := lineFields l heads 0
  0 < hd.h && hd.h < 30 && 6 + 2 * hd.h + total ≤ 64 && hd.tlen * 2 = total && hd.kind ≠ 3 && hd.low = 0 &&
  ((List.range (64 - 6 - 2 * hd.h - total)).all fun k => lineByte l (6 + 2 * hd.h + k) = 0) &&
  idsRise fs none && wantMask fs = hd.mask &&
  (fs.filter isMatReq).length ≤ 8 && (fs.filter fun f => f.major = 0x55 && f.minor = 0).length ≤ 8

/-- The heads of a line that passes R27, decoded (R29): each its instruction or why it has none. -/
def lineDecode (l : Line64) : List Dec :=
  (lineFields l (lineHeads l (lineHdr l).h) 0).map decodeFields

end Sys2Proof
end

