-- ==== Sys2Proof/Machine/Map.lean ====
section
/-! DEFINITION. Map.lean: sparse maps with numbers as keys, the one container of the machine's state. A map lists its
keys in rising order; a key it does not list stands for the default value of that map. -/

namespace Sys2Proof.Machine

/-- A sparse map: pairs of key and value. -/
abbrev Map (α : Type) := List (Nat × α)

variable {α : Type}

/-- The value at a key, or the default. -/
def mget (d : α) : Map α → Nat → α
  | [], _ => d
  | (k, v) :: t, i => if i = k then v else mget d t i

/-- The map without a key. -/
def merase (i : Nat) : Map α → Map α
  | [] => []
  | (k, v) :: t => if i = k then merase i t else (k, v) :: merase i t

/-- Place a key before the first larger one. -/
def mins (i : Nat) (v : α) : Map α → Map α
  | [] => [(i, v)]
  | (k, w) :: t => if i < k then (i, v) :: (k, w) :: t else (k, w) :: mins i v t

/-- Set a key, whatever the value. -/
def mput (i : Nat) (v : α) (m : Map α) : Map α := mins i v (merase i m)

/-- Set a key in canonical form: the default value is not listed. -/
def mset [DecidableEq α] (d : α) (i : Nat) (v : α) (m : Map α) : Map α :=
  if v = d then merase i m else mput i v m

/-- Is the key listed? -/
def mhas : Map α → Nat → Bool
  | [], _ => false
  | (k, _) :: t, i => i = k || mhas t i

/-- Keys rise strictly. -/
def mrising : Map α → Bool
  | [] => true
  | [_] => true
  | (k, _) :: (k', v') :: t => k < k' && mrising ((k', v') :: t)

/-- The canonical form: keys rise and no entry holds the default. -/
def mcanon [DecidableEq α] (d : α) (m : Map α) : Bool := mrising m && m.all fun p => decide (p.2 ≠ d)

end Sys2Proof.Machine
end

