-- ==== Sys2Proof/Machine/State.lean ====
section
/-! DEFINITION. State.lean: everything the spec gives the machine, as plain data, and the machine right after reset.
INVENTORY.md lists each piece with its rule. Numbers of agents, offsets and counts are Nat; register contents, addresses
under computation and words that software reads whole are bit vectors. -/

namespace Sys2Proof.Machine

/-- Why a step stops with a fault. -/
inductive Fault where
  /-- Raised by an event that names an agent the package does not have (a core, context, slice, unit, router, port or
  party beyond R10-R14, R282, R346). Safe: the hardware has no such step. -/
  | noSuchAgent
  deriving DecidableEq, Repr, Inhabited

/-- Why a step has no meaning. -/
inductive Refusal where
  /-- Raised by an arm of `exec` whose instruction has no meaning yet. Safe: nothing can be concluded from it. -/
  | notModelled (mnemonic : String)
  deriving DecidableEq, Repr, Inhabited

/-- The trap classes of R321, in the order of their codes from 1. -/
inductive TrapClass where
  | illegal | privilege | lineFormat | emptyWord | index | alignment | format
  | listOverflow | scratchProtection | control | frame | accumulator | stage | software
  deriving DecidableEq, Repr, Inhabited

/-- A trap with the ADDR and CODE words of its record (R323). -/
structure Trap where
  cls : TrapClass
  addr : Word := 0
  code : Half := 0
  deriving DecidableEq, Repr, Inhabited

/-- A loop-stack entry (R263). -/
structure LoopEnt where
  first : BitVec 27 := 0
  last : BitVec 27 := 0
  rem : BitVec 32 := 0
  deriving DecidableEq, Repr, Inhabited

/-- The registers of an issue context (R34, R35, R113). `x0` and `q0` are never listed. -/
structure Regs where
  x : Map Word := []
  v : Map Line64 := []
  q : Map Half := []
  cf : BitVec 7 := 0
  marks : BitVec 32 := 0
  depth : BitVec 2 := 0
  l0 : LoopEnt := {}
  l1 : LoopEnt := {}
  deriving DecidableEq, Repr, Inhabited

/-- The control outcome of a block so far (R31, R259). -/
inductive Ctl where
  | fall
  | jump (line : Nat)
  | loopIn (line : Nat) (push : Option LoopEnt)
  | next
  | endT
  | resume (pos : Option (BitVec 32))
  deriving DecidableEq, Repr, Inhabited

/-- A store of the block in progress: bytes at a scratch offset of a core of the supergroup; a byte that is none is not
written; `mark` becomes P of the word (R113). -/
structure PStore where
  core : Nat
  off : Nat
  bytes : List (Option Byte)
  mark : Bool := false
  deriving DecidableEq, Repr, Inhabited

/-- The data a signal carries (R267): none, a word with its pointer mark, or a vector. -/
inductive SigData where
  | none
  | word (d : Nat) (v : Word) (mark : Bool)
  | vec (d : Nat) (v : Line64)
  | words (d : Nat) (vs : List Word)
  deriving DecidableEq, Repr, Inhabited

/-- An operand view read at execute (R207), with the value of its format register. -/
structure View where
  addr : Word := 0
  base : Word := 0
  rstr : Nat := 0
  cstr : Nat := 0
  fmt : Word := 0
  aux : Word := 0
  deriving DecidableEq, Repr, Inhabited

/-- The matrix requests (R203). -/
inductive MForm where
  | mma | mmaF32 | mmaF64 | mmag | mmas | mscan | accZero | accLd | accSt | accAdd | accRed
  deriving DecidableEq, Repr, Inhabited

/-- A matrix request as its head read it (R209-R213), with the requests its threadlet's earlier fences make its completion wait
for (R232). -/
structure MReq where
  form : MForm
  id : Nat := 0
  d : Nat := 0
  s : Nat := 0
  a : View := {}
  b : View := {}
  rows : List Nat := []
  budget : List Byte := []
  chunks : Nat := 0
  t : Word := 0
  ty : Ty := .f32
  addr : Word := 0
  n : Nat := 0
  p : PktMod := ⟨0, .core⟩
  slot : Option Nat := none
  fp : Word := 0
  lid : BitVec 32 := 0
  sid : Half := 0
  thr : Nat := 0
  pos : BitVec 32 := 0
  fault : Bool := false
  wait : List Nat := []
  deriving DecidableEq, Repr, Inhabited

/-- Full/empty operations (R161). -/
inductive FeOp where
  | ldfe | stef | tagf | tage
  deriving DecidableEq, Repr, Inhabited

/-- What a block does at its commit beside its stores, in head order (R30). Registers are read already; frame words named
as operands are read at commit (R150). -/
inductive Act where
  | arm (w n : Nat) (e : BitVec 32) (p : Nat)
  | sig (f : Word) (urg : BitVec 4) (w n : Nat) (d : SigData) (rel : Option Scope)
  | falloc (unit cls gen : Nat)
  | ffree (f : Word)
  | fpin (f : Word)
  | funpin (f : Word)
  | spawn (core : Nat) (args : List Word) (urg : BitVec 4) (cls prio : Nat) (e : BitVec 32)
  | tspawn (args : List Word) (e : BitVec 32)
  | launch (addr : Word) (urg : BitVec 4) (slot : Option Nat) (fresh : Bool)
  | rbar (p : PktMod) (lw lh slot : Nat) (fresh : Bool)
  | sysw (n : Nat) (v : Word)
  | ctrCfg (n : Nat) (v : Word)
  | fmtSet (n : Nat) (v : Word)
  | get (a : Word) (w : Nat) (ty : Ty) (p : PktMod) (sf : SlotField)
  | put (a : Word) (w : Nat) (ty : Ty) (p : PktMod) (sf : SlotField)
  | vget (a : Word) (w : Nat) (p : PktMod) (sf : SlotField)
  | vput (a : Word) (w : Nat) (p : PktMod) (sf : SlotField)
  | copy (d s : Word) (n : Nat) (p : PktMod) (sf : SlotField)
  | gather (d b : Word) (idx : List Nat) (esz : Nat) (p : PktMod) (sf : SlotField)
  | scatter (b : Word) (bytes : List Byte) (idx : List Nat) (esz : Nat) (p : PktMod) (sf : SlotField)
  | amsg (core : Nat) (a : Word) (args : List Word) (prio : Nat) (p : PktMod) (e : BitVec 32)
  | own (m c : Word) (w : Nat) (p : PktMod) (sf : SlotField)
  | fe (op : FeOp) (a v : Word) (w : Nat) (p : PktMod) (sf : SlotField)
  | amo (op : AmoOp) (ty : Ty) (a v c : Word) (w : Nat) (p : PktMod) (sf : SlotField)
  | red (op : RedOp) (ty : Ty) (a v : Word) (p : PktMod)
  | csnap (a : Word) (w : Nat) (p : PktMod) (sf : SlotField)
  | fenceRel (s : Scope)
  | fenceAcq (s : Scope)
  | enq (q : Word) (ws : List Word) (p : PktMod) (slot : Option Nat) (fresh : Bool)
  | deq (q w k : Nat) (p : PktMod) (fresh : Bool)
  | stage (claim : Bool) (r s : Word)
  | matrix (m : MReq)
  | tile (core off : Nat) (bytes : List Byte) (p : PktMod) (slot : Option Nat)
  | accGet (n : Nat)
  | accGive (n : Nat)
  | accUse (n : Nat)
  deriving DecidableEq, Repr, Inhabited

/-- The working copy of a block in progress (R29). `seen` lists what its indivisible accesses read, as core, scratch offset
and bytes: they stand until the commit, or the block runs again (R147, R171, R237). -/
structure Work where
  active : Bool := false
  line : Nat := 0
  image : Line64 := 0
  k : Nat := 0
  regs : Regs := {}
  stores : List PStore := []
  fmt : Map Word := []
  acts : List (Nat × Act) := []
  ctl : Ctl := .fall
  ctlHead : Nat := 0
  seen : List (Nat × Nat × List Byte) := []
  deriving DecidableEq, Repr, Inhabited

/-- What of the way a position was reached is still to be checked against its line: nothing, a transfer, or the new position of
a `tresume` (R264, R277, R331; log 57). -/
inductive Owed where
  | no | transfer | resume
  deriving DecidableEq, Repr, Inhabited

/-- An issue context (R34, R38) with the threadlet it runs (R249), and the A-cycle in which a bank last did not grant its
access (R111). -/
structure Ctx where
  bound : Bool := false
  regs : Regs := {}
  fp : Word := 0
  pos : BitVec 32 := 0
  lid : BitVec 32 := 0
  thr : Nat := 0
  handler : Bool := false
  pass : Bool := false
  owed : Owed := .no
  work : Work := {}
  replayAt : Option Nat := none
  deriving DecidableEq, Repr, Inhabited

/-- What queued a token: a slot or a packet, trap delivery, or parking (R277, R322, R332). -/
inductive TokKind where
  | plain
  | handler
  | park (handler : Bool)
  deriving DecidableEq, Repr, Inhabited

/-- A token in a ready queue or hold list (R241, R246), with the A-cycle it entered its class; a park token names the
threadlet that goes on with it (R332), any other 0; `owed` is its context's. `place` is its entry of the token area, or none in the core (R246). -/
structure Token where
  fp : Word := 0
  pos : BitVec 32 := 0
  since : Nat := 0
  kind : TokKind := .plain
  pass : Bool := false
  owed : Owed := .no
  thr : Nat := 0
  place : Option Nat := none
  deriving DecidableEq, Repr, Inhabited

/-- A frame directory location (R119), with the launch tags of its resident and its spilled frame (R306) and the last touch
of R120. -/
structure FDir where
  alloc : Bool := false
  spilled : Bool := false
  refill : Bool := false
  pin : Bool := false
  cls : BitVec 2 := 0
  gen : BitVec 8 := 0
  sgen : BitVec 8 := 0
  spa : BitVec 39 := 0
  lid : BitVec 32 := 0
  slid : BitVec 32 := 0
  touch : Nat := 0
  reserved : Bool := false
  deriving DecidableEq, Repr, Inhabited

/-- The source or destination of a packet (R284): port 0 network interface, 1 slice, 2 I/O die. -/
structure Node where
  pkg : BitVec 18 := 0
  core : BitVec 11 := 0
  port : BitVec 3 := 0
  deriving DecidableEq, Repr, Inhabited

/-- What a reply is for at its requester. A host access carries its port and, in a faulted reply, the kind of the fault. -/
inductive Cont where
  | word (fp : Word) (w : Nat) (ty : Ty) (slot : Option Nat)
  | block (fp : Word) (w : Nat) (slot : Option Nat)
  | slot (fp : Word) (slot : Option Nat)
  | elem (grp : Nat) (core off : Nat)
  | ownHdr (fp : Word) (w : Nat) (slot : Option Nat) (m c : Word) (p : PktMod) (fresh : Bool)
  | ownTab (fp : Word) (w : Nat) (slot : Option Nat) (obase : BitVec 20) (hi : Bool)
  | engRead (unit piece off : Nat)
  | engWrite (unit piece off n : Nat)
  | line (lid : BitVec 32) (idx : Nat)
  | spill (u : Nat)
  | fwd (u : Nat)
  | refill (u off : Nat)
  | qdesc (q : Word)
  | desc (lid : BitVec 32) (img off : Nat)
  | child (lid : BitVec 32) (fp : Word) (slot : Option Nat)
  | host (port kind : Nat)
  | none
  deriving DecidableEq, Repr, Inhabited

/-- The kinds of read a slice tells apart by their rights (R71). -/
inductive RdKind where
  | data | fetch
  deriving DecidableEq, Repr, Inhabited

/-- A task control block (R312). -/
structure Tcb where
  entry : BitVec 32 := 0
  sid : Half := 0
  lid : BitVec 32 := 0
  args : List Word := []
  deriving DecidableEq, Repr, Inhabited

/-- What a packet carries (R285). -/
inductive Body where
  | read (a : Word) (n : Nat) (k : RdKind) (c : Cont)
  | write (a : Word) (bytes : List (Option Byte)) (c : Cont)
  | amo (op : AmoOp) (ty : Ty) (a v cmp : Word) (c : Cont)
  | csnap (a : Word) (c : Cont)
  | red (op : RedOp) (ty : Ty) (a v : Word) (region : Bool) (c : Cont)
  | fe (op : FeOp) (a v : Word) (c : Cont)
  | sig (f : Word) (w n : Nat) (d : SigData)
  | amsg (a : Word) (args : List Word) (prio : Nat) (e : BitVec 32) (fr : Word)
  | spawn (args : List Word) (cls prio : Nat) (e : BitVec 32) (fr : Word)
  | task (t : List Tcb)
  | stealReq (lid : BitVec 32) (grp : Nat)
  | stealRep (lid : BitVec 32) (grp : Nat) (t : List Tcb)
  | launch (desc : Word) (depth : Nat) (core : Nat) (fp : Word) (slot : Option Nat) (parent : BitVec 32)
  | bara (lw lh : Nat) (corner : Nat)
  | barc (lw lh : Nat)
  | fwd (f : Word) (w n : Nat) (d : SigData) (rec : Word) (home : Nat) (u : Nat)
  | refill (f : Word) (e : BitVec 32) (prio word : Nat)
  | data (bytes : List Byte) (c : Cont)
  | ack (c : Cont) (fired : Option (BitVec 32 × Nat))
  | credit (q : Word)
  | entry (q : Word) (ws : List Word) (fp : Word) (slot : Option Nat)
  deriving DecidableEq, Repr, Inhabited

/-- A packet (R284, R317): its header fields but OPF, which its body gives (`Packet.opf`), the launch id, the threadlet that
sent it and the identifier its reply carries (log 6). -/
structure Packet where
  dst : Node := {}
  src : Node := {}
  vc : VC := .req
  slack : BitVec 10 := 0
  e : Bool := true
  xd : Bool := false
  fresh : Bool := false
  fslk : BitVec 10 := 0
  sid : Half := 0
  kind : BitVec 6 := 0
  len : BitVec 3 := 1
  fault : Bool := false
  dlc : Bool := false
  esc : Bool := false
  lid : BitVec 32 := 0
  thr : Nat := 0
  id : Nat := 0
  at_ : Nat := 0
  body : Body := .ack .none none
  deriving DecidableEq, Repr, Inhabited

/-- A request of a core not yet completed (R151, R165, R318): the bytes it concerns, `len` of them from `addr`; a write to
host memory through an endpoint is `host` (R230). -/
structure Outst where
  id : Nat
  thr : Nat
  lid : BitVec 32
  addr : Word
  isWrite : Bool
  isRed : Bool := false
  rscope : Nat := 0
  slice : Option Nat := none
  beat : Bool := false
  len : Nat := 1
  host : Bool := false
  deriving DecidableEq, Repr, Inhabited

/-- A packet the network interface holds until requests are acknowledged (R61, R157, R165-R167). -/
structure Held where
  pkt : Packet
  wait : List Nat
  deriving DecidableEq, Repr, Inhabited

/-- A packet to be tried again, and when (R115, R158, R271). -/
structure Retry where
  pkt : Packet
  due : Nat
  deriving DecidableEq, Repr, Inhabited

/-- A fence in force for a threadlet (R165, R166). -/
structure Fence where
  thr : Nat
  wait : List Nat
  deriving DecidableEq, Repr, Inhabited

/-- A gather or scatter not yet complete (R157), with the requests its threadlet's earlier fences name (R232). -/
structure Group where
  id : Nat
  left : Nat
  fault : Bool := false
  fp : Word
  slot : Option Nat
  wait : List Nat := []
  deriving DecidableEq, Repr, Inhabited

/-- A credit counter (R169). -/
structure Credit where
  q : Word
  count : Option Nat := none
  res : Nat := 0
  deriving DecidableEq, Repr, Inhabited

/-- An entry in the enqueue buffer (R169), with the requests its threadlet's earlier fences make it wait for. -/
structure EnqEnt where
  q : Word
  pkt : Packet
  wait : List Nat := []
  deriving DecidableEq, Repr, Inhabited

/-- A barrier record of a core (R274). -/
structure BarRec where
  lid : BitVec 32
  lw : Nat
  lh : Nat
  fp : Word
  slot : Nat
  deriving DecidableEq, Repr, Inhabited

/-- Arrivals counted at a corner (R274). -/
structure BarCnt where
  lid : BitVec 32
  lw : Nat
  lh : Nat
  n : Nat
  deriving DecidableEq, Repr, Inhabited

/-- A deferred full/empty request (R115). -/
structure Deferred where
  off : Nat
  pkt : Packet
  deriving DecidableEq, Repr, Inhabited

/-- A unit of a transfer under way, with the addresses of its two sides: a beat of at most 64 bytes of a raw transfer; a tile of
a converting one, whose beats are issued one 64-byte piece of the destination at a time (R86, R89). `sent` counts the bytes of
its beats issued; `beats` lists, for each, its number in the unit and its identifier. -/
structure Piece where
  id : Nat
  src : Word := 0
  dst : Word := 0
  dLen : Nat
  need : Nat
  data : Map Byte := []
  sLen : Nat
  sent : Nat := 0
  left : Nat := 0
  beats : List (Nat × Nat) := []
  deriving DecidableEq, Repr, Inhabited

/-- A transfer of the copy engine (R86-R90, R156). A compute copy waits for the requests that its threadlet's earlier fences
name. `moved` counts the bytes of its ring side that it had issued before its descriptor was last written (R107). -/
structure Xfer where
  id : Nat := 0
  src : Word := 0
  dst : Word := 0
  len : Nat := 0
  srcEp : Bool := false
  dstEp : Bool := false
  conv : Nat := 0
  fmt : Word := 0
  elect : Bool := false
  urg : BitVec 4 := 0
  scope : Scope := .core
  ring : Option (Nat × Nat) := none
  moved : Nat := 0
  w2 : Word := 0
  w3 : Word := 0
  stray : Word := 0
  issued : Nat := 0
  count : Nat := 0
  pieces : List Piece := []
  stopped : Bool := false
  fault : Bool := false
  pc : BitVec 14 := 0
  lid : BitVec 32 := 0
  sid : Half := 0
  thr : Nat := 0
  fp : Word := 0
  slot : Option Nat := none
  fresh : Bool := false
  wait : List Nat := []
  deriving DecidableEq, Repr, Inhabited

/-- A channel of the copy engine: its status word (R86) and its transfer. -/
structure Chan where
  busy : Bool := false
  fault : Bool := false
  cause : BitVec 6 := 0
  count : BitVec 25 := 0
  x : Xfer := {}
  deriving DecidableEq, Repr, Inhabited

/-- A slot count of R93. -/
structure SlotCnt where
  rdesc : Nat
  slot : Nat
  bytes : Nat
  deriving DecidableEq, Repr, Inhabited

/-- A loader or storer core (R84, R107); `written` lists its channels whose descriptor the window wrote since the core's last
custom form. -/
structure LsCore where
  x : Map Word := []
  pc : Word := 0
  imem : Map Byte := []
  dmem : Map Byte := []
  present : Bool := false
  running : Bool := false
  ended : Bool := false
  faulted : Bool := false
  halted : Bool := false
  frozen : Bool := false
  waiting : Option (BitVec 32) := none
  written : List Nat := []
  deriving DecidableEq, Repr, Inhabited

/-- A refill asked for or under way (R124); one for an `fpin` (R270) queues no token, and one whose `fpin` has committed pins the
frame as it comes back. -/
structure Refill where
  u : Nat
  fp : Word
  entry : BitVec 32
  prio : Nat
  word : Nat := 0
  lid : BitVec 32 := 0
  forPin : Bool := false
  pin : Bool := false
  started : Bool := false
  reading : Bool := false
  need : Nat := 0
  buf : Map Byte := []
  deriving DecidableEq, Repr, Inhabited

/-- Termination counts of one launch at one node (R318), and the work since the last sweep (R336). -/
structure Count where
  s : BitVec 32 := 0
  r : BitVec 32 := 0
  worked : Bool := false
  deriving DecidableEq, Repr, Inhabited

/-- The network interface of a core. -/
structure Ni where
  outs : List Outst := []
  held : List Held := []
  retry : List Retry := []
  fences : List Fence := []
  groups : List Group := []
  credits : List Credit := []
  enqBuf : List EnqEnt := []
  bars : List BarRec := []
  barCnt : List BarCnt := []
  resv : Map Nat := []
  children : Map Nat := []
  exh : BitVec 32 := 0
  exhAt : Option Nat := none
  counts : Map Count := []
  pops : List (BitVec 32 × Option Tcb × Nat) := []
  popAt : Map Nat := []
  runs : List (Tcb × Nat) := []
  deriving DecidableEq, Repr, Inhabited

/-- The frames of a core (R118-R124). `announced` has the launches of the refills announced and not yet queued (R318), `early`
those of refills that ended before their announcement arrived. -/
structure Frames where
  dir : Map FDir := []
  gens : Map (BitVec 8 × BitVec 8) := []
  free : Map (List Nat) := []
  frs : Nat := 0
  spills : Map (List Nat) := []
  fwds : Map Nat := []
  refills : List Refill := []
  heldPkts : List (Nat × Packet) := []
  announced : List (BitVec 32) := []
  early : List (BitVec 32) := []
  deriving DecidableEq, Repr, Inhabited

/-- A compute core with its engines (R14). Of the current A-cycle it keeps what has happened: `phase`, the A-cycle and the
place in R111's order of the last access to its banks; `checkedAt`, when a frame packet was last checked (R123); `bindAt` and
`commitAt`, when a token last bound and a block last committed (R30, R248); `issueS` and `issueM`, when each side last issued
and from which context (R14). `rrS` and `rrM` are the contexts that each side offers an issue first (R14). `replays` counts the
replays in a row of an access of a context, or of a unit: 16 the loader core, 17 the storer core, 18 the copy engine, 19 packets, 20 the matrix unit;
`replayedAt` is the A-cycle of a unit's last replay plus 1 (R111). `due` of its deliveries stood in its inbox: they take effect in
their order, before any other and before a token binds (R335). -/
structure Core where
  scr : Map Byte := []
  empty : Map Bool := []
  ptr : Map Bool := []
  acc : Map Byte := []
  owner : Map Word := []
  fmt : Map Word := []
  ctxs : Map Ctx := []
  ready : Map (List Token) := []
  hold : List Token := []
  tfps : List (Word × Word) := []
  fr : Frames := {}
  defer : List Deferred := []
  lines : Map Line64 := []
  lineReq : List Nat := []
  win : Map Word := []
  ctr : Map Word := []
  ctrCfg : Map Word := []
  upAt : Nat := 0
  ni : Ni := {}
  chans : Map Chan := []
  copyQ : List Xfer := []
  engPtr : Nat := 0
  slotCnts : Map SlotCnt := []
  rings : List Nat := []
  mq : List MReq := []
  mdone : List MReq := []
  loader : LsCore := {}
  storer : LsCore := {}
  inq : List Packet := []
  due : Nat := 0
  inbox : List Packet := []
  frozen : Bool := false
  stopped : Bool := false
  park : Bool := false
  fwdTo : Option Nat := none
  forwarded : Bool := false
  lids : List (BitVec 32) := []
  sid : Half := 0
  lastSid : Option Half := none
  woken : Bool := false
  ifps : Map Word := []
  touched : Map Bool := []
  replays : Map Nat := []
  replayedAt : Map Nat := []
  phase : Nat × Nat := (0, 0)
  checkedAt : Option Nat := none
  bindAt : Option Nat := none
  commitAt : Option Nat := none
  issueS : Option (Nat × Nat) := none
  issueM : Option (Nat × Nat) := none
  rrS : Nat := 0
  rrM : Nat := 0
  deriving DecidableEq, Repr, Inhabited

/-- A line of L2 (R57, R66): the recorded physical address, the level of the page it was translated by, sector masks and
data. -/
structure L2Line where
  sid : Half
  va : BitVec 55
  pa : Nat
  level : Nat := 0
  valid : BitVec 8 := 0
  dirty : BitVec 8 := 0
  poison : BitVec 8 := 0
  data : Map Byte := []
  deriving DecidableEq, Repr, Inhabited

/-- A merge window or an outstanding fill of a line, with the requests that wait on it in arrival order (R58), each with
the pieces it was translated to: virtual address, physical address, length. `level` is that of the largest page they were
translated by. -/
structure MWin where
  sid : Half
  va : BitVec 55
  pa : Nat
  level : Nat := 0
  at_ : Nat
  issued : Bool := false
  noalloc : Bool := false
  wanted : BitVec 8 := 0
  reqs : List (Packet × List (Nat × Nat × Nat)) := []
  deriving DecidableEq, Repr, Inhabited

/-- An STC entry (R72): level 0 to 2, the virtual page at that size, the leaf and its companion word. -/
structure StcEnt where
  sid : Half
  level : Nat
  page : Nat
  leaf : Word
  comp : Word
  deriving DecidableEq, Repr, Inhabited

/-- A reduction cell (R62), with its place in the spill area, or none while it is resident (R63). -/
structure RCell where
  sid : Half
  va : Word
  who : Nat
  op : RedOp
  ty : Ty
  v : Word
  spilled : Option Nat := none
  deriving DecidableEq, Repr

/-- A parked request (R76, R77): its ticket and its fault kind, 0 where it is parked for migration; the 4 KiB pages it is
parked for, and the level of the page that is moving; the requests behind it. Each request has its place in the spill area,
or none while it is resident in the buffer. -/
structure Parked where
  pkt : Packet
  ticket : Nat
  kind : Nat
  pages : List Nat
  level : Nat := 0
  place : Option Nat := none
  behind : List (Packet × Option Nat) := []
  deriving DecidableEq, Repr, Inhabited

/-- An L2 slice (R57-R79); `wbs` holds the write-backs parked while their page moves (R64). -/
structure Slice where
  inq : List Packet := []
  lines : List L2Line := []
  wbs : List L2Line := []
  wins : List MWin := []
  stc : List StcEnt := []
  cells : List RCell := []
  parked : List Parked := []
  nextTicket : Nat := 0
  rsv : Word := 0
  sdir : Word := 0
  stcinv : Word := 0
  fres : Word := 0
  inv : Nat := 0
  deriving DecidableEq, Repr, Inhabited

/-- A donation unit (R312-R316). -/
structure DonUnit where
  deques : List (BitVec 32 × List Tcb) := []
  pushes : List Packet := []
  stealIn : List Packet := []
  stealing : List (BitVec 32 × Nat) := []
  waits : List (BitVec 32 × Nat) := []
  replies : List Packet := []
  counts : Map Count := []
  opAt : Option Nat := none
  deriving DecidableEq, Repr, Inhabited

/-- A packet in an input slot of a router (R283, R291): its input port, the lane its slot belongs to, its arrival, and the
F-cycle at which it stood exhausted here. -/
structure InPkt where
  pkt : Packet
  port : Nat
  lane : Nat
  at_ : Nat
  exh : Option Nat := none
  deriving DecidableEq, Repr, Inhabited

/-- A flit on a lane (R297): its sequence number, its place in its packet, and the lane whose slot the packet holds. -/
structure Flit where
  seq : BitVec 8
  idx : Nat
  slot : Nat
  pkt : Packet
  deriving DecidableEq, Repr, Inhabited

/-- A credit-resync record in flight (R298). -/
structure Resync where
  free : Nat × Nat
  s : BitVec 8
  epoch : Bool
  deriving DecidableEq, Repr, Inhabited

/-- One direction of one lane, kept at its sender (R297, R298): the sender's side, the flits on the wire, and the
receiver's side. `replays` counts the replays of the flit `failed`. `sent` tells of each flit sent, newest first, whether it began a packet and in which dateline class;
`credit0` and `credit1` are the sender's credit counts of the two classes. -/
structure Lane where
  busyTill : Nat := 0
  next : BitVec 8 := 0
  unacked : List Flit := []
  sent : List (Option Bool) := []
  wire : List Flit := []
  expect : BitVec 8 := 0
  rx : List (Packet × Nat) := []
  naks : List (BitVec 8) := []
  acks : List (BitVec 8) := []
  replays : Nat := 0
  failed : BitVec 8 := 0
  retired : Bool := false
  credit0 : Nat := 1
  credit1 : Nat := 1
  epoch : Bool := false
  resyncs : List Resync := []
  resyncAt : Nat := 0
  deriving DecidableEq, Repr, Inhabited

/-- A router of the core torus, or the system switch (R282-R292); `rounds` holds, for each output port and channel, the
F-cycle after the last one in which it granted. -/
structure Router where
  ins : List InPkt := []
  merge : List (Nat × Packet) := []
  eject : List Packet := []
  ejBusy : Map Nat := []
  lanes : Map Lane := []
  rr : Map Nat := []
  rounds : Map Nat := []
  tab : Map Word := []
  ticked : Nat := 0
  fcyc : Nat := 0
  deriving DecidableEq, Repr, Inhabited

/-- Where a launch stands (R252, R253, R299-R304, R325, R331). -/
inductive LPhase where
  | submitted | queued | placing | waking | zeroing | resident | ending | over
  deriving DecidableEq, Repr, Inhabited

/-- How far a Dusk operation on a launch has come (R330-R335). -/
inductive Frozen where
  | no | stopping | image | inPlace | restoring
  deriving DecidableEq, Repr, Inhabited

/-- A launch from its submission to its end. -/
structure Launch where
  lid : BitVec 32
  sid : Half
  depth : Nat
  desc : Word
  ws : List Word := []
  phase : LPhase := .submitted
  faulted : Bool := false
  priv : Bool := false
  seq : Nat := 0
  bornAt : Nat := 0
  poolRes : Bool := false
  poolDepth : Nat := 0
  parent : Option (BitVec 32) := none
  pcore : Nat := 0
  pfp : Word := 0
  pslot : Option Nat := none
  nested : Bool := false
  root : BitVec 32 := 0
  ox : Nat := 0
  oy : Nat := 0
  prio : Nat := 0
  lhang : Nat := 24
  imgs : Map (Map Byte) := []
  need : Nat := 0
  bodies : Bool := false
  lost : List Nat := []
  reserved : Option (Nat × Nat) := none
  wakeAt : Nat := 0
  zeroAt : Nat := 0
  closed : List Nat := []
  closing : List Nat := []
  accepted : Map Nat := []
  posted : Map Nat := []
  lastS : Option (BitVec 32 × BitVec 32) := none
  lastIdle : Bool := false
  busyAt : Nat := 0
  frozen : Frozen := .no
  hung : Bool := false
  waitMapped : Bool := false
  deriving DecidableEq, Repr, Inhabited

/-- A termination sweep under way (R319): what each node has answered, per launch. -/
structure Sweep where
  on : Bool := false
  at_ : Nat := 0
  asked : List Nat := []
  sums : Map (BitVec 32 × BitVec 32 × Bool × Bool) := []
  deriving DecidableEq, Repr, Inhabited

/-- A Dusk operation under way (R330, R331), or, after a restore, an old rectangle not yet released (R335): the requests
outstanding at the stop, and the old cores with their new counterparts. -/
structure Wave where
  op : Nat
  lid : BitVec 32
  stopAt : Nat
  outs : List Nat := []
  oldCores : List (Nat × Nat) := []
  balanced : Nat := 0
  deriving DecidableEq, Repr, Inhabited

/-- What a Dusk image holds beside the bytes of R333, kept structured by the model (log 12), and where its inboxes lie. -/
structure Image where
  lid : BitVec 32
  boxAt : Nat := 0
  boxLen : Nat := 0
  cores : Map Core
  units : Map DonUnit
  deriving DecidableEq, Repr, Inhabited

/-- A pool reservation (R301): its depth, whether its entry is one reserved to that depth, and the core and launch it is held
for. -/
structure PoolRes where
  depth : Nat
  own : Bool
  core : Nat
  lid : BitVec 32
  deriving DecidableEq, Repr, Inhabited

/-- The distributor, the power arbiter and the debugger registers (R299-R311, R330-R340). -/
structure Dist where
  q : Map Word := []
  used : Map Nat := []
  ptr : Map Nat := []
  sub0 : Word := 0
  status : BitVec 2 := 0
  subLid : BitVec 32 := 0
  subSid : Half := 0
  nextLid : BitVec 32 := 1
  launches : Map Launch := []
  held : List PoolRes := []
  inq : List Packet := []
  nextSeq : Nat := 0
  decideAt : Nat := 0
  budget : Nat := 2400
  levels : Map Nat := []
  newLevels : Option (Map Nat × Nat) := none
  recompute : Bool := false
  off : Map Bool := []
  idleSince : Map Nat := []
  sweep : Sweep := {}
  frz : Word := 0
  img : Word := 0
  wave : Option Wave := none
  images : List Image := []
  waves : List Wave := []
  dbgCtl : Word := 0
  bp : Map Word := []
  sw : Map Word := []
  deriving DecidableEq, Repr, Inhabited

/-- A fault record on its way to the I/O die, without SEQ (R327). -/
structure FRec where
  w0 : Word
  w1 : Word
  w2 : Word
  w3 : Word
  w5 : Word := 0
  w6 : Word := 0
  w7 : Word := 0
  deriving DecidableEq, Repr, Inhabited

/-- The I/O die (R326, R343-R355), the fuses and the boot inputs (R351). `claimAt` is the A-cycle and the party of the last
claim served (R347). -/
structure Io where
  own : Word := 0
  claimAt : Option (Nat × Nat) := none
  lastFlit : Nat := 0
  dbk : Word := 0
  flog : Word := 0
  sdel : Word := 0
  attCtl : Word := 0
  attChal : List Byte := []
  attRep : List Byte := []
  cfgAddr : Word := 0
  ap : Map Word := []
  trained : Map Word := []
  recIn : List FRec := []
  seqs : Map Nat := []
  exhausted : Map Nat := []
  notes : List (Word × Word) := []
  devLog : List (Word × Word) := []
  svn : Nat := 0
  firmware : List (List Byte × Nat × List Byte × List Byte) := []
  measures : List (List Byte) := []
  skey : List Byte := []
  inq : List Packet := []
  deriving DecidableEq, Repr, Inhabited

/-- A host access through an aperture, in the queue of its port (R240, R343, R345): what of it is left, the bytes still to
store or already read, and whether its request is on its way. An ingress word has its endpoint in `va`. -/
structure HostAcc where
  sid : Half
  ingress : Bool := false
  va : Word
  left : Nat
  wr : Bool
  bytes : List Byte := []
  sent : Bool := false
  deriving DecidableEq, Repr, Inhabited

/-- The host: its memory, the device lines it caches, those being invalidated with the acknowledgements that wait for them,
the accesses of each port not yet complete, what the last access to complete answered, with error or busy status, and the end
reports it has had (R240, R255, R301, R343). -/
structure HostSide where
  mem : Map Byte := []
  cached : List (Half × Word) := []
  pendInv : List (Half × Word) := []
  waiting : List (Packet × List (Half × Word)) := []
  queue : Map (List HostAcc) := []
  answer : Option (List Byte) := none
  error : Bool := false
  busy : Bool := false
  reports : List (BitVec 32 × Nat × Bool) := []
  deriving DecidableEq, Repr, Inhabited

/-- The agent whose turn it is (log 1): a core, and an issue context (0 to 15), the loader (16) or the storer (17). -/
structure Agent where
  core : Nat := 0
  unit : Nat := 0
  deriving DecidableEq, Repr, Inhabited

/-- The machine. -/
structure State where
  tick : Nat := 0
  free : Nat := 0
  acyc : Nat := 0
  fcyc : Nat := 0
  turns : List Turn := []
  cur : Agent := {}
  nextId : Nat := 0
  pkg : BitVec 18 := 0
  present : List (BitVec 18) := []
  cores : Map Core := []
  slices : Map Slice := []
  units : Map DonUnit := []
  routers : Map Router := []
  sysIn : List (Nat × Packet) := []
  sysOut : List (Nat × Packet) := []
  mem : List Host.Cell := []
  poison : List Nat := []
  dist : Dist := {}
  io : Io := {}
  host : HostSide := {}
  deriving DecidableEq, Repr, Inhabited

/-- The machine right after reset: every field at its reset value (R6, the Reset columns of spec/; what the spec leaves
without one is named in log entries 2 to 11). -/
def State.reset : State := {}

end Sys2Proof.Machine
end

