-- ==== Sys2Proof/Machine/Ops.lean ====
section
/-! DEFINITION. Ops.lean: the named operations over registers, memory and scratch that every meaning is made of: byte
order (R3), registers (R34, R113), package memory (R52), scratch words and their tags (R108-R116), the address classes
(R48-R54, R110), the protection unit (R82), packets and their slack (R284-R294). -/

namespace Sys2Proof.Machine

abbrev Out := Host.Outcome State Fault Refusal

/-! Bytes and words. -/

/-- The number that bytes hold, lowest address first (R3). -/
def leNat : List Byte → Nat
  | [] => 0
  | b :: t => b.toNat + 256 * leNat t

/-- The n low bytes of a number, lowest address first (R3). -/
def natLe : Nat → Nat → List Byte
  | 0, _ => []
  | n + 1, v => BitVec.ofNat 8 v :: natLe n (v / 256)

def wordBytes (v : Word) : List Byte := natLe 8 v.toNat
def lineBytes (v : Line64) : List Byte := natLe 64 v.toNat
def bytesWord (bs : List Byte) : Word := BitVec.ofNat 64 (leNat bs)
def bytesLine (bs : List Byte) : Line64 := BitVec.ofNat 512 (leNat bs)
/-- Cut a list into pieces of n, at most fuel of them. -/
def chunks {α : Type} (n : Nat) : Nat → List α → List (List α)
  | 0, _ => []
  | _, [] => []
  | f + 1, l => l.take n :: chunks n f (l.drop n)
def bytesWords (bs : List Byte) : List Word := (chunks 8 bs.length bs).map bytesWord
/-- Bits hi down to lo of a word as a number. -/
def bits (v : Word) (hi lo : Nat) : Nat := (v.toNat / 2 ^ lo) % 2 ^ (hi + 1 - lo)
def bitOf (v : Word) (i : Nat) : Bool := v.toNat.testBit i
def b2n (b : Bool) : Nat := if b then 1 else 0
def wd (n : Nat) : Word := BitVec.ofNat 64 n

/-! Maps. -/

/-- Replace the value at a key by a function of it. -/
def mmod {α : Type} (d : α) (i : Nat) (f : α → α) (m : Map α) : Map α := mput i (f (mget d m i)) m
/-- Read n consecutive bytes of a byte map. -/
def readMap (m : Map Byte) (a n : Nat) : List Byte := (List.range n).map fun k => mget 0 m (a + k)
/-- Write consecutive bytes; a byte that is none is left alone. -/
def writeMap (m : Map Byte) (a : Nat) : List (Option Byte) → Map Byte
  | [] => m
  | none :: t => writeMap m (a + 1) t
  | some b :: t => writeMap (mset 0 a b m) (a + 1) t
def whole (bs : List Byte) : List (Option Byte) := bs.map some

/-! Registers (R34, R113). -/

/-- Read `x`n; `x0` reads 0. -/
def Regs.rx (r : Regs) (n : XReg) : Word := if n = 0 then 0 else mget 0 r.x n.toNat
/-- Write `x`n with its pointer mark; a write to `x0` is discarded. -/
def Regs.wxm (r : Regs) (n : XReg) (v : Word) (mark : Bool) : Regs :=
  if n = 0 then r
  else { r with x := mset 0 n.toNat v r.x,
                marks := if mark then r.marks ||| (1#32 <<< n.toNat) else r.marks &&& ~~~(1#32 <<< n.toNat) }
/-- Write `x`n and clear its pointer mark. -/
def Regs.wx (r : Regs) (n : XReg) (v : Word) : Regs := r.wxm n v false
def Regs.mark (r : Regs) (n : XReg) : Bool := n ≠ 0 && r.marks.getLsbD n.toNat
def Regs.rv (r : Regs) (n : VReg) : Line64 := mget 0 r.v n.toNat
def Regs.wv (r : Regs) (n : VReg) (v : Line64) : Regs := { r with v := mset 0 n.toNat v r.v }
/-- Read `q`n; `q0` reads 0xffff. -/
def Regs.rq (r : Regs) (n : QReg) : Half := if n = 0 then 0xffff else mget 0 r.q n.toNat
def Regs.wq (r : Regs) (n : QReg) (v : Half) : Regs := if n = 0 then r else { r with q := mset 0 n.toNat v r.q }
def Regs.setFlags (r : Regs) (f : BitVec 7) : Regs := { r with cf := r.cf ||| f }
/-- A register number k above another (the ranges of R158, R169, R271). -/
def regUp (n : XReg) (k : Nat) : XReg := n + BitVec.ofNat 5 k
/-- The values of k registers from G. -/
def Regs.range (r : Regs) (g : XReg) (k : Nat) : List Word := (List.range k).map fun j => r.rx (regUp g j)
/-- The loop stack as a list, innermost last. -/
def Regs.loops (r : Regs) : List LoopEnt :=
  if r.depth = 0 then [] else if r.depth = 1 then [r.l0] else [r.l0, r.l1]
def Regs.setLoops (r : Regs) (l : List LoopEnt) : Regs :=
  { r with depth := BitVec.ofNat 2 l.length, l0 := l.getD 0 {}, l1 := l.getD 1 {} }

/-! The state's parts. -/

def State.core (s : State) (c : Nat) : Core := mget {} s.cores c
def State.setCore (s : State) (c : Nat) (x : Core) : State := { s with cores := mput c x s.cores }
def State.modCore (s : State) (c : Nat) (f : Core → Core) : State := s.setCore c (f (s.core c))
def State.modNi (s : State) (c : Nat) (f : Ni → Ni) : State := s.modCore c fun x => { x with ni := f x.ni }
def State.modFr (s : State) (c : Nat) (f : Frames → Frames) : State := s.modCore c fun x => { x with fr := f x.fr }
def Core.ctx (x : Core) (k : Nat) : Ctx := mget {} x.ctxs k
def State.ctx (s : State) (c k : Nat) : Ctx := (s.core c).ctx k
def State.setCtx (s : State) (c k : Nat) (x : Ctx) : State := s.modCore c fun y => { y with ctxs := mput k x y.ctxs }
def State.modCtx (s : State) (c k : Nat) (f : Ctx → Ctx) : State := s.setCtx c k (f (s.ctx c k))
/-- The context whose head executes. -/
def State.me (s : State) : Ctx := s.ctx s.cur.core s.cur.unit
def State.work (s : State) : Work := s.me.work
def State.setWork (s : State) (w : Work) : State := s.modCtx s.cur.core s.cur.unit fun x => { x with work := w }
def State.slice (s : State) (n : Nat) : Slice := mget {} s.slices n
def State.modSlice (s : State) (n : Nat) (f : Slice → Slice) : State :=
  { s with slices := mput n (f (s.slice n)) s.slices }
def State.unit (s : State) (n : Nat) : DonUnit := mget {} s.units n
def State.modUnit (s : State) (n : Nat) (f : DonUnit → DonUnit) : State :=
  { s with units := mput n (f (s.unit n)) s.units }
def State.router (s : State) (n : Nat) : Router := mget {} s.routers n
def State.modRouter (s : State) (n : Nat) (f : Router → Router) : State :=
  { s with routers := mput n (f (s.router n)) s.routers }
def State.modDist (s : State) (f : Dist → Dist) : State := { s with dist := f s.dist }
def State.modIo (s : State) (f : Io → Io) : State := { s with io := f s.io }
def State.modHost (s : State) (f : HostSide → HostSide) : State := { s with host := f s.host }
def Launch.none : Launch := { lid := 0, sid := 0, depth := 0, desc := 0 }
def State.launch (s : State) (l : BitVec 32) : Launch := mget .none s.dist.launches l.toNat
def State.hasLaunch (s : State) (l : BitVec 32) : Bool := mhas s.dist.launches l.toNat
def State.modLaunch (s : State) (l : BitVec 32) (f : Launch → Launch) : State :=
  s.modDist fun d => { d with launches := mput l.toNat (f (s.launch l)) d.launches }
/-- A new identifier (log 6). -/
def State.fresh (s : State) : Nat × State := (s.nextId + 1, { s with nextId := s.nextId + 1 })
/-- The next free value (log 5). -/
def State.freeVal (s : State) : Word × State := (Config.freeWord s.free, { s with free := s.free + 1 })
/-- Fold a state function over a list. -/
def State.each {α : Type} (s : State) (l : List α) (f : State → α → State) : State := l.foldl f s

/-! Coordinates (R11-R13). -/

def cxOf (c : Nat) : Nat := c % 64
def cyOf (c : Nat) : Nat := c / 64
def coreAt (x y : Nat) : Nat := y * 64 + x
def groupOf (c : Nat) : Nat := (cyOf c / 4) * 16 + cxOf c / 4
def sgpOf (c : Nat) : Nat := (cyOf c / 8) * 8 + cxOf c / 8
def tileOf (c : Nat) : Nat := (cyOf c / 2) * 32 + cxOf c / 2
def dieOf (c : Nat) : Nat := (cyOf c / 16) * 4 + cxOf c / 16
/-- The corner core of a group, where its slice and donation unit attach (R13). -/
def cornerOf (g : Nat) : Nat := coreAt (4 * (g % 16)) (4 * (g / 16))
/-- The gateway router of a core's die (R282). -/
def gatewayOf (c : Nat) : Nat := coreAt (16 * (cxOf c / 16) + 7) (16 * (cyOf c / 16) + 7)
/-- The on-chip physical base of a core (R48). -/
def baseOf (p : BitVec 18) (c : Nat) : Word := wd (2 ^ 63 + p.toNat * 2 ^ 45 + c * 2 ^ 34)

/-! Package physical memory (R52). -/

abbrev Memory := List Host.Cell
/-- The canonical form of memory: addresses rise strictly and no listed byte is the 0 that an unlisted one reads as. -/
def Memory.wf (m : Memory) : Bool := mcanon (0 : Byte) m
/-- What an unlisted byte of package memory reads as (log 2). -/
def unlisted : Byte := 0
def Memory.read (m : Memory) (a : Nat) : Byte := mget unlisted m a
def Memory.write (m : Memory) (a : Nat) (v : Byte) : Memory := mset unlisted a v m
/-- Write consecutive bytes; a byte that is none is left alone. -/
def Memory.writes (m : Memory) (a : Nat) : List (Option Byte) → Memory
  | [] => m
  | none :: t => Memory.writes m (a + 1) t
  | some b :: t => Memory.writes (Memory.write m a b) (a + 1) t
def State.pread (s : State) (a n : Nat) : List Byte := (List.range n).map fun k => Memory.read s.mem (a + k)
def State.pword (s : State) (a : Nat) : Word := bytesWord (s.pread a 8)
def State.pwrite (s : State) (a : Nat) (bs : List (Option Byte)) : State := { s with mem := Memory.writes s.mem a bs }
def State.pwriteWord (s : State) (a : Nat) (v : Word) : State := s.pwrite a (whole (wordBytes v))
/-- A first-tier address, or a second-tier one that a fitted module holds (R52). -/
def physOk (pa : Nat) : Bool :=
  pa < 0x10000000000 || (0x40000000000 ≤ pa && pa < 0x40000000000 + 8 * Config.boardChannelBytes)

/-! Launches and their images (R251, R253). Images are kept under the number of the descriptor word that names them. -/

def Launch.w (l : Launch) (n : Nat) : Word := l.ws.getD n 0
def Launch.code (l : Launch) : Word := l.w 0
def Launch.clen (l : Launch) : Nat := bits (l.w 1) 26 0
def Launch.lw (l : Launch) : Nat := bits (l.w 14) 53 51
def Launch.lh (l : Launch) : Nat := bits (l.w 14) 50 48
def Launch.width (l : Launch) : Nat := 2 ^ l.lw
def Launch.height (l : Launch) : Nat := 2 ^ l.lh
def Launch.trapPos (l : Launch) : BitVec 32 := (l.w 2).extractLsb' 32 32
def Launch.entry (l : Launch) : BitVec 32 := (l.w 1).extractLsb' 32 32
def Launch.iclass (l : Launch) : Nat := bits (l.w 2) 29 28
def Launch.iprio (l : Launch) : Nat := bits (l.w 2) 31 30
def Launch.argn (l : Launch) : Nat := bits (l.w 2) 27 19
/-- FRS in bytes with the default split (R118, R251). -/
def Launch.frs (l : Launch) : Nat := if bits (l.w 12) 63 56 = 0 then 0x40000 else 4096 * bits (l.w 12) 63 56
/-- The frame counts N0 to N3 with the default split. -/
def Launch.counts (l : Launch) : List Nat :=
  if bits (l.w 12) 63 12 = 0 then [1024, 256, 64, 16]
  else [bits (l.w 12) 25 12, bits (l.w 12) 37 26, bits (l.w 12) 47 38, bits (l.w 12) 55 48]
def Launch.tqa (l : Launch) : Nat := bits (l.w 15) 63 56
def Launch.img (l : Launch) (w off n : Nat) : List Byte := readMap (mget [] l.imgs w) off n
def Launch.imgWord (l : Launch) (w off : Nat) : Word := bytesWord (l.img w off 8)
/-- Word k of endpoint record e (R102). -/
def Launch.endpoint (l : Launch) (e k : Nat) : Word := if l.w 10 = 0 || 256 ≤ e then 0 else l.imgWord 10 (32 * e + 8 * k)
def Launch.inRect (l : Launch) (c : Nat) : Bool :=
  l.ox ≤ cxOf c && cxOf c < l.ox + l.width && l.oy ≤ cyOf c && cyOf c < l.oy + l.height
/-- The cores of a rectangle, in lidx order. -/
def rectCores (ox oy w h : Nat) : List Nat :=
  (List.range (w * h)).map fun k => coreAt (ox + k % w) (oy + k / w)
def Launch.cores (l : Launch) : List Nat := rectCores l.ox l.oy l.width l.height
/-- Is the launch on its cores? -/
def Launch.live (l : Launch) : Bool := l.phase = .resident || l.phase = .ending
def State.launches (s : State) : List Launch := s.dist.launches.map (·.2)
/-- The launch whose environment a core shares (R305): the outermost resident one. -/
def State.env (s : State) (c : Nat) : Launch :=
  match (s.core c).lids with
  | [] => .none
  | l :: _ => s.launch (s.launch l).root
def frameSize (cls : Nat) : Nat := 64 * 4 ^ cls
def frameWords (cls : Nat) : Nat := 8 * 4 ^ cls

/-! Choosing a slice (R53, R54). -/

/-- The words of ART entry n. -/
def Launch.artEnt (l : Launch) (n : Nat) : Word × Word :=
  if n < bits (l.w 14) 24 18 then (l.imgWord 6 (16 * n), l.imgWord 6 (16 * n + 8)) else (0, 0)
/-- The first ART entry that matches a granule, from entry n on. -/
def artFind (l : Launch) (g : Nat) : List Nat → Option (Word × Word)
  | [] => none
  | n :: t =>
    let e := l.artEnt n
    if bitOf e.1 63 && bits e.1 24 0 ≤ g && g ≤ bits e.1 49 25 then some e else artFind l g t
def artMatch (l : Launch) (va : Word) : Option (Word × Word) := artFind l (bits va 44 20) (List.range 64)
/-- The default hash over va[47:8] (R54). -/
def defaultSlice (va : Word) : Nat :=
  ((bits va 14 8) ^^^ (bits va 21 15)) ^^^ ((bits va 28 22) ^^^ (bits va 35 29)) ^^^
    ((bits va 42 36) ^^^ (bits va 47 43))
def sliceOf (l : Launch) (va : Word) : Nat :=
  match artMatch l va with
  | some e =>
    let rel := bits va 44 0 - bits e.1 24 0 * 2 ^ 20
    (bits e.2 6 0 + (rel / 2 ^ bits e.2 17 13) % 2 ^ bits e.2 12 10) % 128
  | none => defaultSlice va
/-- Attribute bit i of the matching entry's second word; 23 SECOND, 22 NOALLOC, 21 RED. -/
def artBit (l : Launch) (va : Word) (i : Nat) : Bool :=
  match artMatch l va with
  | some e => bitOf e.2 i
  | none => false
def artScope (l : Launch) (va : Word) : Nat :=
  match artMatch l va with
  | some e => bits e.2 20 18
  | none => 0
/-- Does a slice hold a line, an open merge window or a reduction cell of a space? -/
def State.inL2 (s : State) (sid : Half) : Bool :=
  s.slices.any fun p => (p.2.lines ++ p.2.wbs).any (fun l => l.sid = sid) || p.2.cells.any (fun c => c.sid = sid) || p.2.wins.any fun w => w.sid = sid
/-- The ART the I/O die uses for a space (R53): that of a resident launch, else the copy it keeps of the last one that ended,
since a space's lines stay at their slices and every launch of it has the same image (R56, log 48), while any of them is there;
else none. -/
def State.ioArt (s : State) (sid : Half) : Launch :=
  match s.launches.find? fun l => l.sid = sid && l.live with
  | some l => s.launch l.root
  | none => if !s.inL2 sid then .none else ((s.launches.filter fun l => l.sid = sid && !l.nested && l.bodies && l.phase = .over).getLast?).getD .none

/-! Address classes (R48, R110) and the protection unit (R81, R82). -/

def onChip (a : Word) : Bool := bitOf a 63
def addrPkg (a : Word) : BitVec 18 := a.extractLsb' 45 18
def addrCore (a : Word) : Nat := bits a 44 34
def addrOff (a : Word) : Nat := bits a 21 0
/-- Is the package in the system configuration (R49)? -/
def State.pkgPresent (s : State) (p : BitVec 18) : Bool := p = s.pkg || s.present.contains p
/-- Does one of the eight windows of a core grant every right an access needs (R82)? -/
def Core.grants (x : Core) (sid : Half) (off len : Nat) (rd wr : Bool) : Bool :=
  (List.range 8).any fun n =>
    let w0 := mget 0 x.win (4 * n)
    bitOf w0 63 && (!rd || bitOf w0 62) && (!wr || bitOf w0 61) && bits w0 15 0 = sid.toNat &&
      bits (mget 0 x.win (4 * n + 1)) 21 0 ≤ off && off + len - 1 ≤ bits (mget 0 x.win (4 * n + 2)) 21 0
/-- An access that needs one right (R82). -/
def Core.permits (x : Core) (sid : Half) (off len : Nat) (wr : Bool) : Bool := x.grants sid off len (!wr) wr
/-- The core and offset a local address names (R110), or none. -/
def State.localAddr (s : State) (c : Nat) (a : Word) : Option (Nat × Nat) :=
  if a.toNat < 0x100000 then some (c, a.toNat)
  else if onChip a && bits a 33 22 = 0 && addrPkg a = s.pkg && addrOff a < 0x100000 && sgpOf (addrCore a) = sgpOf c then
    some (addrCore a, addrOff a)
  else none
/-- A local address checked by R110 and R82 for len bytes in one core's scratch. -/
def State.localOk (s : State) (c : Nat) (sid : Half) (a : Word) (len : Nat) (wr : Bool) : Option (Nat × Nat) :=
  match s.localAddr c a with
  | none => none
  | some (t, off) => if off + len ≤ 0x100000 && (s.core t).permits sid off len wr then some (t, off) else none

/-! Frame pointers (R117) and the directory (R119). -/

def fpPkg (f : Word) : BitVec 18 := f.extractLsb' 46 18
def fpCore (f : Word) : Nat := bits f 45 35
/-- The frame's location: its first 64-byte unit of scratch. -/
def fpUnit (f : Word) : Nat := bits f 29 16
def fpGen (f : Word) : BitVec 8 := f.extractLsb' 8 8
def fpCls (f : Word) : Nat := bits f 7 6
def mkFp (p : BitVec 18) (c u : Nat) (gen : BitVec 8) (cls : Nat) : Word :=
  wd (p.toNat * 2 ^ 46 + c * 2 ^ 35 + u * 2 ^ 16 + gen.toNat * 2 ^ 8 + cls * 2 ^ 6)
/-- Do two pointers name one frame: the same home, location and generation (R119)? CLASS takes no part. -/
def sameFrame (f g : Word) : Bool := fpPkg f = fpPkg g && fpCore f = fpCore g && fpUnit f = fpUnit g && fpGen f = fpGen g
def Core.dir (x : Core) (u : Nat) : FDir := mget {} x.fr.dir u
/-- A pointer with the CLASS of the location it names, which no check of R117 or R123 compares with the pointer's own: it is
passed on so (log 67). -/
def Core.asHome (x : Core) (f : Word) : Word :=
  (f &&& ~~~0xc0#64) ||| wd ((x.dir (fpUnit f)).cls.toNat * 2 ^ 6)
def State.modDir (s : State) (c u : Nat) (f : FDir → FDir) : State :=
  s.modFr c fun fr => { fr with dir := mput u (f (mget {} fr.dir u)) fr.dir }
/-- First unit of the frame region. -/
def Frames.base (f : Frames) : Nat := (0x100000 - f.frs) / 64
/-- Is the pointer malformed at its home (R117)? -/
def fpMalformed (x : Core) (f : Word) : Bool :=
  bits f 34 30 ≠ 0 || bits f 5 0 ≠ 0 || !mhas x.fr.dir (fpUnit f)
/-- The location of the frame that holds a scratch offset, if it lies in one. -/
def Core.frameAt (x : Core) (off : Nat) : Option Nat :=
  if off < 64 * x.fr.base then none
  else ([0, 1, 2, 3].map fun k => ((off / frameSize k) * 4 ^ k, k)).findSome? fun p =>
    if mhas x.fr.dir p.1 && (x.dir p.1).cls.toNat = p.2 then some p.1 else none
/-- The resident frame's pointer, or none when the location holds no frame. -/
def State.residentFp (s : State) (c u : Nat) : Word :=
  mkFp s.pkg c u ((s.core c).dir u).gen ((s.core c).dir u).cls.toNat

/-! Scratch words and their tags (R108, R112-R114). -/

def Core.full (x : Core) (w : Nat) : Bool := !mget false x.empty w
def Core.isPtr (x : Core) (w : Nat) : Bool := mget false x.ptr w
def Core.setF (x : Core) (w : Nat) (f : Bool) : Core := { x with empty := mset false w (!f) x.empty }
def Core.setP (x : Core) (w : Nat) (p : Bool) : Core := { x with ptr := mset false w p x.ptr }
def Core.readScr (x : Core) (off n : Nat) : List Byte := readMap x.scr off n
def Core.scrWord (x : Core) (off : Nat) : Word := bytesWord (x.readScr off 8)
/-- The row of a scratch offset, numbered bank-major (R108, R333). -/
def rowOf (off : Nat) : Nat := ((off / 64) % 8) * 2048 + (off / 512) % 2048
/-- The words any of whose bytes a write at an offset changes. -/
def wordsHit (off : Nat) (bs : List (Option Byte)) : List Nat :=
  ((List.range ((off + bs.length + 7) / 8 - off / 8)).map (· + off / 8)).filter fun w =>
    (List.range 8).any fun k => 8 * w + k ≥ off && (bs.getD (8 * w + k - off) none).isSome
/-- Note an access to a frame's words (R120). -/
def Core.touch (x : Core) (off now : Nat) : Core :=
  match x.frameAt off with
  | none => x
  | some u => { x with fr := { x.fr with dir := mput u { x.dir u with touch := now } x.fr.dir } }
/-- Note an access to n bytes on every frame they fall in (R120); frames begin at multiples of 64. -/
def Core.touchN (x : Core) (off n now : Nat) : Core :=
  (List.range ((off + n + 63) / 64 - off / 64)).foldl (fun x j => x.touch (64 * (off / 64 + j)) now) x
/-- Write bytes: every word written gets F := 1 and its P (R113, R114). -/
def Core.writeScr (x : Core) (off : Nat) (bs : List (Option Byte)) (mark : Bool) : Core :=
  let x := { x with scr := writeMap x.scr off bs }
  (wordsHit off bs).foldl (fun x w => { (x.setF w true).setP w mark with touched := mset false (rowOf (8 * w)) true x.touched }) x

/-! Counting (R317, R318, R341). -/

/-- Is a network interface, or the donation unit of a group, a node of the launch (R317)? -/
def Launch.isNode (l : Launch) (n : Node) (task : Bool) : Bool :=
  n.port = 0 && (l.inRect n.core.toNat ||
    (task && (l.cores.any fun c => groupOf c = groupOf n.core.toNat) && n.core.toNat = cornerOf (groupOf n.core.toNat)))
/-- Is a packet for a donation unit? -/
def isTask : Body → Bool
  | .task _ | .stealReq _ _ | .stealRep _ _ _ => true
  | _ => false
/-- Is a packet from a donation unit? A push is from the network interface of its core. -/
def isSteal : Body → Bool
  | .stealReq _ _ | .stealRep _ _ _ => true
  | _ => false
def State.counted (s : State) (p : Packet) : Bool :=
  p.vc ≠ .sys && p.src.pkg = s.pkg && p.dst.pkg = s.pkg && s.hasLaunch p.lid &&
    (s.launch p.lid).isNode p.src (isSteal p.body) && (s.launch p.lid).isNode p.dst (isTask p.body)
def countS (c : Count) : Count := { c with s := c.s + 1 }
def countR (c : Count) : Count := { c with r := c.r + 1, worked := true }
/-- Count a packet at the node that sends or receives it, a network interface or a donation unit (R318). -/
def State.count (s : State) (p : Packet) (n : Node) (unit : Bool) (f : Count → Count) : State :=
  if s.counted p then
    if unit then s.modUnit (groupOf n.core.toNat) fun u => { u with counts := mmod {} p.lid.toNat f u.counts }
    else s.modNi n.core.toNat fun ni => { ni with counts := mmod {} p.lid.toNat f ni.counts }
  else s
/-- Add to the counters of a core that count an event of a space (R341). -/
def State.event (s : State) (c : Nat) (sid : Half) (code n : Nat) : State :=
  s.modCore c fun x => (List.range 16).foldl (fun x k =>
    let g := mget 0 x.ctrCfg k
    if bitOf g 31 && bits g 23 8 = sid.toNat && bits g 7 0 = code then
      { x with ctr := mset 0 k (mget 0 x.ctr k + wd n) x.ctr } else x) x

/-! Packets (R284, R285, R289, R294). -/

def coreNode (s : State) (c : Nat) : Node := ⟨s.pkg, BitVec.ofNat 11 c, 0⟩
def sliceNode (p : BitVec 18) (n : Nat) : Node := ⟨p, BitVec.ofNat 11 (cornerOf n), 1⟩
def ioNode (p : BitVec 18) : Node := ⟨p, 0, 2⟩
/-- Where a request for a global address goes (R48, R54). -/
def addrNode (l : Launch) (a : Word) : Node :=
  if onChip a then ⟨addrPkg a, a.extractLsb' 34 11, 0⟩ else sliceNode (addrPkg a) (sliceOf l a)
/-- The slack of an urgency class in a launch's table (R289). -/
def slackOf (l : Launch) (k : BitVec 4) : BitVec 10 :=
  if l.w 5 = 0 then if k = 0 then 0 else BitVec.ofNat 10 (min (2 ^ (k.toNat - 1)) 1023)
  else BitVec.ofNat 10 (bits (bytesWord (l.img 5 (2 * k.toNat) 2)) 9 0)
/-- Flits for n bytes of data beside an address (R285; the split is log 13's). -/
def flitsFor (n : Nat) : Nat := min 5 (1 + (n - 24 + 63) / 64)
def sigLen : SigData → Nat
  | .vec _ _ => 2
  | .words _ vs => flitsFor (8 * vs.length)
  | _ => 1
/-- The kind, channel and length of a body (R285). An end report is a SYS packet; which of the eight kinds is log 13's. -/
def shapeOf : Body → Nat × VC × Nat
  | .read _ _ _ _ => (0x01, .req, 1)
  | .write _ bs _ => (0x02, .req, flitsFor bs.length)
  | .amo op _ _ _ _ _ => (0x03, .req, if op = .cas then 2 else 1)
  | .csnap _ _ => (0x03, .req, 1)
  | .red _ _ _ _ _ _ => (0x04, .req, 1)
  | .fe _ _ _ _ => (0x05, .req, 1)
  | .sig _ _ _ .none => (0x06, .req, 1)
  | .sig _ _ _ d => (0x07, .req, sigLen d)
  | .amsg _ _ _ _ _ => (0x08, .req, 1)
  | .spawn _ _ _ _ _ => (0x09, .req, 1)
  | .task t => (0x0a, .req, min 5 (1 + t.length))
  | .stealReq _ _ => (0x0a, .req, 1)
  | .stealRep _ _ t => (0x0a, .req, min 5 (1 + t.length))
  | .launch _ _ _ _ _ _ => (0x0b, .req, 1)
  | .bara _ _ _ => (0x0c, .req, 1)
  | .fwd _ _ _ d _ _ _ => (0x0d, .req, min 2 (sigLen d))
  | .refill _ _ _ _ => (0x0e, .req, 1)
  | .data bs _ => (0x10, .rsp, flitsFor bs.length)
  | .ack (.child _ _ _) _ => (0x25, .sys, 1)
  | .ack _ _ => (0x11, .rsp, 1)
  | .barc _ _ => (0x12, .rsp, 1)
  | .credit _ => (0x13, .rsp, 1)
  | .entry _ ws _ _ => (0x18, .enq, if ws.length ≤ 2 then 1 else 2)
/-- The number of an operation in the operation field (log 13). -/
def opNum : Body → Nat
  | .amo op _ _ _ _ _ => match op with
    | .add => 0 | .and => 1 | .or => 2 | .xor => 3 | .min => 4 | .max => 5 | .swap => 6 | .cas => 7
  | .csnap _ _ => 8
  | .red op _ _ _ _ _ => op.code.toNat
  | .fe op _ _ _ => match op with
    | .ldfe => 0 | .stef => 1 | .tagf => 2 | .tage => 3
  | .task _ => 0
  | .stealReq _ _ => 1
  | .stealRep _ _ _ => 2
  | .read _ n .data _ => n
  | .read _ n .fetch _ => 512 + n
  | _ => 0
/-- OPF, the operation field of a packet's kind (R284): what the body asks for, in a layout the spec does not give. -/
def Packet.opf (p : Packet) : BitVec 11 :=
  Config.opField p.kind.toNat (opNum p.body) (match p.body with
    | .amo _ ty _ _ _ _ | .red _ ty _ _ _ _ => (Ty.code ty).toNat
    | _ => 0)
/-- A packet with every field of its header written (R284); OPF is `Packet.opf`. -/
def mkPkt (src dst : Node) (sid : Half) (lid : BitVec 32) (thr id : Nat) (slack : BitVec 10) (b : Body) : Packet :=
  let sh := shapeOf b
  { dst := dst, src := src, vc := sh.2.1, slack := slack, e := slack = 0 && sh.2.1 ≠ .sys, sid := sid, kind := BitVec.ofNat 6 sh.1,
    len := BitVec.ofNat 3 sh.2.2, lid := lid, thr := thr, id := id, body := b }
/-- Ask for a fresh slack in the reply (R149, R289). -/
def Packet.withFresh (p : Packet) (l : Launch) (fresh : Bool) (urg : BitVec 4) : Packet :=
  if fresh then { p with fresh := true, fslk := slackOf l urg } else p
/-- The router whose local merger takes what a node sends (R282), with the merger's input. -/
def mergePort (n : Node) (dst : Node) : Nat × Nat :=
  if n.port = 2 then (gatewayOf dst.core.toNat, 2) else (n.core.toNat, n.port.toNat)
/-- Hand a packet to the local merger at its source; S counts it (R318). -/
def State.inject (s : State) (p : Packet) : State :=
  let m := mergePort p.src p.dst
  (s.count p p.src (isSteal p.body) countS).modRouter m.1 fun r => { r with merge := r.merge ++ [(m.2, p)] }
/-- The slack of the reply to a request (R294); a reply leaves an F-cycle or more after its request came, so that a chase of slack 1
answers at slack 0 (R358, log 4). -/
def replySlack (req p : Packet) (now : Nat) : Packet :=
  if req.fresh then { p with slack := req.fslk, e := req.fslk = 0, xd := false }
  else
    let rem := req.slack.toNat
    let sl := rem - (max 1 (now - req.at_) + 15) / 16
    { p with slack := BitVec.ofNat 10 sl, e := sl = 0, xd := req.xd || (rem > 0 && sl = 0) }
/-- Send the reply to a request from the node that served it. -/
def State.reply (s : State) (req : Packet) (b : Body) (fault : Bool) : State :=
  s.inject { replySlack req (mkPkt req.dst req.src req.sid req.lid req.thr req.id 0 b) s.fcyc with fault := fault }

/-! Fault records (R326, R327). -/

/-- The header words of a packet (R284). -/
def hdrW0 (p : Packet) : Word :=
  wd (p.dst.pkg.toNat * 2 ^ 46 + p.dst.core.toNat * 2 ^ 35 + p.dst.port.toNat * 2 ^ 32 +
    p.src.pkg.toNat * 2 ^ 14 + p.src.core.toNat * 2 ^ 3 + p.src.port.toNat)
def vcCode : VC → Nat
  | .req => 0 | .rsp => 1 | .enq => 2 | .sys => 3
def hdrW1 (p : Packet) : Word :=
  wd (vcCode p.vc * 2 ^ 62 + p.slack.toNat * 2 ^ 52 + b2n p.e * 2 ^ 51 + b2n p.xd * 2 ^ 50 + b2n p.fresh * 2 ^ 49 +
    p.fslk.toNat * 2 ^ 39 + p.sid.toNat * 2 ^ 23 + p.kind.toNat * 2 ^ 17 + p.len.toNat * 2 ^ 14 + b2n p.fault * 2 ^ 13 +
    b2n p.dlc * 2 ^ 12 + b2n p.esc * 2 ^ 11 + p.opf.toNat)
/-- The address a request names (R284: the first word of its payload, log 13). -/
def bodyAddr : Body → Word
  | .read a _ _ _ | .write a _ _ | .amo _ _ a _ _ _ | .csnap a _ | .red _ _ a _ _ _ | .fe _ a _ _ => a
  | .sig f _ _ _ => f
  | .amsg a _ _ _ _ => a
  | .fwd _ _ _ _ r _ _ => r
  | .launch d _ _ _ _ _ => d
  | .entry q _ _ _ | .credit q => q
  | .refill f _ _ _ => f
  | _ => 0
/-- A fault record of a kind, charged to a space (R327). -/
def mkRec (kind cause : Nat) (sid : Half) (lid : BitVec 32) (at_ : Node) (addr detail : Word) : FRec :=
  { w0 := wd (kind * 2 ^ 56 + cause * 2 ^ 48 + sid.toNat * 2 ^ 32 + lid.toNat),
    w1 := wd (at_.pkg.toNat * 2 ^ 46 + at_.core.toNat * 2 ^ 35 + at_.port.toNat * 2 ^ 32), w2 := addr, w3 := detail }
/-- Send a record to the I/O die (R326). -/
def State.record (s : State) (r : FRec) : State := s.modIo fun io => { io with recIn := io.recIn ++ [r] }
/-- One notification to the owner, while there is one (R349; the kind numbers are log 14's). -/
def State.notify (s : State) (kind : Nat) (detail : Word) : State :=
  if bitOf s.io.own 63 then s.modIo fun io => { io with notes := io.notes ++ [(wd kind, detail)] } else s
/-- The launch ends faulted (R325); it is stopped by the event FAULTED_END. -/
def State.failLaunch (s : State) (l : BitVec 32) : State :=
  if s.hasLaunch l then s.modLaunch l fun x => { x with faulted := true } else s
/-- Does a core, or its image, run a threadlet, or hold its park token (R332)? -/
def Core.runs (x : Core) (thr : Nat) : Bool :=
  x.ctxs.any (fun p => p.2.bound && p.2.thr = thr) || x.ready.any (fun p => p.2.any fun t => t.thr = thr) ||
    x.hold.any fun t => t.thr = thr
/-- Had the issuing threadlet ended when a fault of its packet arose (ORPHAN, R327, R329)? -/
def State.orphan (s : State) (p : Packet) : Bool :=
  p.src.port = 0 && p.src.pkg = s.pkg && p.thr ≠ 0 && !(s.cores.any fun x => x.2.runs p.thr) &&
    !(s.dist.images.any fun i => i.cores.any fun x => x.2.runs p.thr)
/-- A record of a fault that a packet met, with ORPHAN (R327). -/
def State.packetRecord (s : State) (p : Packet) (r : FRec) : State :=
  s.record { r with w1 := r.w1 ||| wd (b2n (s.orphan p) * 2) }

/-! Requests of a core (R149-R152, R165-R167, R230-R232). -/

def scopeRank : Scope → Nat
  | .core => 0 | .tile => 1 | .grp => 2 | .sgp => 3 | .pkg => 4 | .sys => 5
/-- Does a core lie within a scope of another (R230)? -/
def coreWithin (c t : Nat) : Nat → Bool
  | 0 => c = t
  | 1 => tileOf c = tileOf t
  | 2 => groupOf c = groupOf t
  | 3 => sgpOf c = sgpOf t
  | _ => true
/-- Does the home of an address lie within a scope of a core (R230)? -/
def State.homeWithin (s : State) (c k : Nat) (a : Word) : Bool :=
  addrPkg a = s.pkg && coreWithin c (if onChip a then addrCore a else cornerOf (sliceOf (s.env c) a)) k
/-- Does a home of an outstanding request's bytes lie within scope S of a core (R230)? Homes change at multiples of 256. -/
def State.within (s : State) (c : Nat) (sc : Scope) (o : Outst) : Bool :=
  let k := scopeRank sc
  if o.isRed then o.rscope ≤ k
  else if k = 5 then true
  else if o.host then false
  else if o.len ≤ 1 then addrPkg o.addr = s.pkg &&
    coreWithin c (if onChip o.addr then addrCore o.addr else cornerOf (o.slice.getD 0)) k
  else (List.range (o.len / 256 + 1)).any (fun j => 256 * j < o.len && s.homeWithin c k (o.addr + wd (256 * j))) ||
    s.homeWithin c k (o.addr + wd (o.len - 1))
/-- The writes of a core within a scope that are not acknowledged (R165, R232). -/
def State.unacked (s : State) (c : Nat) (sc : Scope) : List Nat :=
  ((s.core c).ni.outs.filter fun o => o.isWrite && !o.beat && s.within c sc o).map (·.id)
/-- What the fences of a threadlet still make the packets of its later blocks wait for (R165, R166). -/
def Ni.fenced (ni : Ni) (thr : Nat) : List Nat :=
  ((ni.fences.filter fun f => f.thr = thr).map (·.wait)).flatten.filter fun i => ni.outs.any fun o => o.id = i
/-- Do two packets carry entries for one queue (R153)? -/
def sameQueue (p q : Packet) : Bool :=
  match p.body, q.body with
  | .entry a _ _ _, .entry b _ _ _ => a = b
  | _, _ => false
/-- Send a packet, or hold it at the network interface while any request it waits for is outstanding, or while an earlier
entry for its queue is held (R153). -/
def State.sendOrHold (s : State) (c : Nat) (p : Packet) (wait : List Nat) : State :=
  let ni := (s.core c).ni
  let w := wait.filter fun i => ni.outs.any fun o => o.id = i
  if w.isEmpty && !ni.held.any (fun h => sameQueue h.pkt p) then s.inject p
  else s.modNi c fun ni => { ni with held := ni.held ++ [⟨p, w⟩] }
/-- Who sends: core, launch, space and threadlet. -/
structure Who where
  core : Nat
  lid : BitVec 32
  sid : Half
  thr : Nat := 0
  deriving DecidableEq, Repr
/-- Send a request with an identifier, behind what it waits for; it is outstanding from now on. -/
def State.sendAs (s : State) (id : Nat) (o : Who) (a : Word) (slack : BitVec 10) (fr : Bool × BitVec 4) (isWrite : Bool)
    (red : Option Nat) (wait : List Nat) (b : Body) : State :=
  let l := s.env o.core
  let p := (mkPkt (coreNode s o.core) (addrNode l a) o.sid o.lid o.thr id slack b).withFresh l fr.1 fr.2
  let out : Outst := { id := id, thr := o.thr, lid := o.lid, addr := a, isWrite := isWrite, isRed := red.isSome,
                       rscope := red.getD 0, slice := if onChip a then none else some (sliceOf l a) }
  (s.sendOrHold o.core p wait).modNi o.core fun ni => { ni with outs := ni.outs ++ [out] }
/-- Send a request that no fence holds; answers its identifier. -/
def State.send (s : State) (o : Who) (a : Word) (slack : BitVec 10) (fr : Bool × BitVec 4) (isWrite : Bool)
    (red : Option Nat) (wait : List Nat) (b : Body) : Nat × State :=
  let (id, s) := s.fresh
  (id, s.sendAs id o a slack fr isWrite red wait b)
/-- Send a packet that has no reply, behind what it waits for and its threadlet's fences (R165, R166); where its head asks for
a fresh slack, its header says so (R289). -/
def State.postAs (s : State) (o : Who) (dst : Node) (slack : BitVec 10) (fr : Bool × BitVec 4) (wait : List Nat) (b : Body) : State :=
  let (id, s) := s.fresh
  s.sendOrHold o.core ((mkPkt (coreNode s o.core) dst o.sid o.lid o.thr id slack b).withFresh (s.env o.core) fr.1 fr.2)
    (wait ++ (s.core o.core).ni.fenced o.thr)
def State.post (s : State) (o : Who) (dst : Node) (slack : BitVec 10) (wait : List Nat) (b : Body) : State :=
  s.postAs o dst slack (false, 0) wait b
/-- Event 6 counts what the split-phase forms of R154 hand over (R341). -/
def State.splitSent (s : State) (o : Who) : State := s.event o.core o.sid 6 1
/-- An address no node can serve (R49): a package outside the configuration, or on-chip bits [33:22]. -/
def State.badAddr (s : State) (a : Word) : Bool :=
  !s.pkgPresent (addrPkg a) || (onChip a && bits a 33 22 ≠ 0)
/-- The record, with ORPHAN, and the end of a request refused at its source (R49): fatal at once. -/
def State.refuse (s : State) (o : Who) (a : Word) : State :=
  (s.packetRecord { src := coreNode s o.core, thr := o.thr } (mkRec 8 0 o.sid o.lid (coreNode s o.core) a 0)).failLaunch o.lid
/-- The home node of a frame pointer. -/
def fpNode (f : Word) : Node := ⟨fpPkg f, f.extractLsb' 35 11, 0⟩

/-! Full/empty service (R115, R116). -/

/-- Serve a word's deferred requests from the head of its queue, at most fuel of them (R116). -/
def State.serveWord (s : State) (c w : Nat) : Nat → State
  | 0 => s
  | n + 1 =>
    let x := s.core c
    match x.defer.find? fun d => d.off = 8 * w with
    | none => s
    | some d =>
      let drop := fun (y : Core) => { y with defer := y.defer.erase d }
      match d.pkt.body with
      | .fe .ldfe _ _ k =>
        if x.full w then
          ((s.setCore c (drop (x.setF w false))).reply d.pkt (.data (x.readScr (8 * w) 8) k) false).serveWord c w n
        else s
      | .fe .stef _ v k =>
        if x.full w then s
        else ((s.setCore c (drop (x.writeScr (8 * w) (whole (wordBytes v)) false))).reply d.pkt (.ack k none) false).serveWord c w n
      | _ => s
def State.serve (s : State) (c w : Nat) : State := s.serveWord c w ((s.core c).defer.length)
/-- Serve n words from word w on. -/
def State.serveAll (s : State) (c w n : Nat) : State := s.each (List.range n) fun s k => s.serve c (w + k)
/-- Write scratch of a core, with the tags' effects and the deferred requests they release (R113, R114, R116). -/
def State.scrWrite (s : State) (c off : Nat) (bs : List (Option Byte)) (mark : Bool) : State :=
  (s.setCore c (((s.core c).writeScr off bs mark).touchN off bs.length s.acyc)).each (wordsHit off bs) fun s w => s.serve c w
/-- Write scratch of a core without serving anything yet: for writes that take effect together (R30). -/
def State.scrPut (s : State) (c off : Nat) (bs : List (Option Byte)) (mark : Bool) : State :=
  s.setCore c (((s.core c).writeScr off bs mark).touchN off bs.length s.acyc)
/-- An access to n bytes of scratch is noted on the frames it falls in (R120). -/
def State.touchAt (s : State) (core off n : Nat) : State := s.modCore core fun x => x.touchN off n s.acyc
/-- Set F of a word, serving its queue (R114). -/
def State.setTag (s : State) (c w : Nat) (f : Bool) : State :=
  (s.modCore c fun x => (x.setF w f).touch (8 * w) s.acyc).serve c w

/-! Frames: choosing and taking a location (R118-R122, R248). -/

def Core.tokens (x : Core) : List Token := ((List.range 4).map fun p => mget [] x.ready p).flatten
/-- READY of a frame: a queued or held token, a running threadlet, or a record that names it (R248). -/
def Core.readyFp (x : Core) (f : Word) : Bool :=
  x.tokens.any (fun t => sameFrame t.fp f) || x.hold.any (fun t => sameFrame t.fp f) ||
    x.ctxs.any (fun p => p.2.bound && sameFrame p.2.fp f) || x.tfps.any fun p => sameFrame p.2 f
/-- Does a deferred request stand on the words of the frame at a location? -/
def Core.deferredIn (x : Core) (u cls : Nat) : Bool :=
  x.defer.any fun d => 64 * u ≤ d.off && d.off < 64 * u + frameSize cls
/-- Does the frame hold an accumulator (R205)? -/
def Core.holdsAcc (x : Core) (u : Nat) (gen : BitVec 8) : Bool :=
  (List.range 8).any fun n =>
    let o := mget 0 x.owner n
    bitOf o 63 && bits o 26 8 = u && bits o 7 0 = gen.toNat
/-- An eligible victim (R120), but for SPILLED = 0. -/
def State.idleFrame (s : State) (c u : Nat) : Bool :=
  let x := s.core c
  let d := x.dir u
  d.alloc && !d.pin && !d.reserved && !x.readyFp (s.residentFp c u) && !x.deferredIn u d.cls.toNat && !x.holdsAcc u d.gen
def State.eligible (s : State) (c u : Nat) : Bool := !((s.core c).dir u).spilled && s.idleFrame c u
/-- The generation a location's next frame takes (R120). -/
def nextGen (d : FDir) (spilled : Bool) (sgen : BitVec 8) : BitVec 8 :=
  let g := d.gen + 1
  if spilled && g = sgen then g + 1 else g
/-- The older of two victims; ties go to the lower offset. -/
def older (x : Core) (a : Option Nat) (b : Nat) : Option Nat :=
  match a with
  | none => some b
  | some a =>
    if (x.dir b).touch < (x.dir a).touch || ((x.dir b).touch = (x.dir a).touch && b < a) then some b else some a
/-- The location `falloc` chooses (R120) with its generation, or none: the frame trap. -/
def State.chooseFrame (s : State) (c cls : Nat) : Option (Nat × BitVec 8) :=
  let x := s.core c
  match (mget [] x.fr.free cls).filter fun u => !(x.dir u).reserved with
  | u :: _ => some (u, nextGen (x.dir u) (x.dir u).spilled (x.dir u).sgen)
  | [] =>
    let vs := (x.fr.dir.map (·.1)).filter fun u => (x.dir u).cls.toNat = cls && s.eligible c u
    match vs.foldl (older x) none with
    | none => none
    | some u => some (u, nextGen (x.dir u) true (x.dir u).gen)
/-- Reserve the chosen location (R268): off its free list, or held with its victim. -/
def State.reserveFrame (s : State) (c u cls : Nat) : State :=
  (s.modDir c u fun d => { d with reserved := true }).modFr c fun f =>
    { f with free := mmod [] cls (fun l => l.erase u) f.free }
/-- Release a reservation of a discarded block: back on top of its free list, or to its resident frame (R268). A frame freed
under the reservation has left its location free as well. -/
def State.unreserve (s : State) (c u : Nat) : State :=
  let d := (s.core c).dir u
  let s := s.modDir c u fun d => { d with reserved := false }
  if d.alloc then s else s.modFr c fun f => { f with free := mmod [] d.cls.toNat (fun l => u :: l) f.free }
/-- The spill record of the frame at a location (R122). -/
def State.spillAddr (s : State) (c u : Nat) : Word :=
  (s.env c).w 11 + wd (c * 2 ^ 20 + 2 * (64 * (u - (s.core c).fr.base)))
/-- The tag pairs of n words from word w, packed as in the tag array (R112). -/
def Core.tagBytes (x : Core) (w n : Nat) : List Byte :=
  (List.range ((n + 3) / 4)).map fun k => BitVec.ofNat 8 (((List.range 4).map fun j =>
    (b2n (x.full (w + 4 * k + j)) + 2 * b2n (x.isPtr (w + 4 * k + j))) * 4 ^ j).sum)
/-- Cut a write at 64-byte boundaries: pairs of address offset and bytes. -/
def cutLines (a : Nat) (bs : List (Option Byte)) : Nat → List (Nat × List (Option Byte))
  | 0 => []
  | f + 1 =>
    if bs.isEmpty then []
    else let n := 64 - a % 64; (a, bs.take n) :: cutLines (a + n) (bs.drop n) f
/-- FRAME_SPILL (R122): the writes of a frame's bytes and tags to its record, and SPILLED, SGEN and SPA. -/
def State.spill (s : State) (c u : Nat) : State :=
  let x := s.core c
  let d := x.dir u
  let n := frameSize d.cls.toNat
  let a := s.spillAddr c u
  let bs := whole (x.readScr (64 * u) n ++ x.tagBytes (8 * u) (n / 8))
  let l := s.launch d.lid
  let s := if s.badAddr a then s.refuse ⟨c, d.lid, l.sid, 0⟩ a
    else s.each (cutLines a.toNat bs (n / 32 + 2)) fun s p =>
      let (id, s) := s.send ⟨c, d.lid, l.sid, 0⟩ (wd p.1) 0 (false, 0) true none [] (.write (wd p.1) p.2 (.spill u))
      s.modFr c fun f => { f with spills := mmod [] u (fun ids => ids ++ [id]) f.spills }
  (s.modDir c u fun d => { d with spilled := true, sgen := d.gen, slid := d.lid, spa := a.extractLsb' 6 39 }).event c l.sid 9 1
/-- Take a location for a launch (R120, R306): spill a resident victim, then an empty frame of the generation; what the
change of F lets go is served (R114, R116). Its last touch is the current A-cycle (log 24). -/
def State.takeFrame (s : State) (c u : Nat) (gen : BitVec 8) (lid : BitVec 32) : State :=
  let d := (s.core c).dir u
  let s := if d.alloc then s.spill c u else s
  let n := frameSize d.cls.toNat
  let s := s.modDir c u fun d =>
    { d with alloc := true, pin := false, gen := gen, lid := lid, touch := s.acyc, reserved := false }
  let s := s.modCore c fun x => (List.range (n / 8)).foldl (fun x k => ((x.setF (8 * u + k) false).setP (8 * u + k) false))
    { x with scr := writeMap x.scr (64 * u) (whole (List.replicate n 0)),
             touched := (List.range (n / 64)).foldl (fun m k => mset false (rowOf (64 * u + 64 * k)) true m) x.touched,
             fr := { x.fr with free := mmod [] d.cls.toNat (fun l => l.erase u) x.fr.free } }
  s.serveAll c (8 * u) (n / 8)
/-- `falloc` at once, for packets and traps (R158, R271, R322): the new frame's pointer. -/
def State.falloc (s : State) (c cls : Nat) (lid : BitVec 32) : Option (Word × State) :=
  match s.chooseFrame c cls with
  | none => none
  | some (u, g) => some (mkFp s.pkg c u g cls, s.takeFrame c u g lid)
/-- Fill words of a frame, each with F := 1 and its P. -/
def State.fillFrame (s : State) (c u : Nat) (ws : List (Nat × Word × Bool)) : State :=
  (s.modCore c fun x => ws.foldl (fun x p => x.writeScr (64 * u + 8 * p.1) (whole (wordBytes p.2.1)) p.2.2) x).each ws
    fun s p => s.serve c (8 * u + p.1)
/-- Consecutive frame words from word n. -/
def numbered (n : Nat) : List Word → List (Nat × Word × Bool)
  | [] => []
  | v :: t => (n, v, false) :: numbered (n + 1) t

/-! Tokens, slots and fires (R242-R246, R340). -/

/-- Is a launch the one the debugger follows (R338, R339)? -/
def State.debugged (s : State) (lid : BitVec 32) : Bool :=
  bitOf s.dist.dbgCtl 63 && bits s.dist.dbgCtl 31 0 = lid.toNat
/-- Queue a token at a class. The core holds 256 tokens; beyond them a token stands in the first free 16 bytes of the token
area below the frame region (R246, R251): its 12 bytes, then four of a free value (log 49). At capacity a READY fault ends
the launch faulted. -/
def State.queueToken (s : State) (c p : Nat) (t : Token) : State :=
  let x := s.core c
  let lid := (x.dir (fpUnit t.fp)).lid
  let add := fun (s : State) (j : Option Nat) =>
    s.modCore c fun x => { x with ready := mmod [] p (fun l => l ++ [{ t with since := s.acyc, place := j }]) x.ready }
  if (x.tokens.filter fun t => t.place.isNone).length < 256 then add s none
  else match (List.range (64 * (s.env c).tqa)).find? fun j => !x.tokens.any fun t => t.place = some j with
  | some j =>
    let (v, s) := s.freeVal
    let bs := wordBytes t.fp ++ natLe 4 t.pos.toNat ++ natLe 4 v.toNat
    add (s.scrWrite c (64 * x.fr.base - 1024 * (s.env c).tqa + 16 * j) (whole bs) false) (some j)
  | none =>
    (s.record (mkRec 21 0 (s.launch lid).sid lid (coreNode s c) t.fp (wd t.pos.toNat))).failLaunch lid
/-- Is a fire watched by the debugger (R339)? -/
def State.watched (s : State) (c u w : Nat) : Bool :=
  s.debugged ((s.core c).dir u).lid && (List.range 4).any fun n =>
    let k := mget 0 s.dist.sw n
    bitOf k 63 && bits k 62 54 = w && bits k 45 35 = c && bits k 34 16 = u && bits k 15 8 = ((s.core c).dir u).gen.toNat
/-- The notification of a debug stop or of a skipped one (R340): kind numbers of log 14. -/
def State.stopNote (s : State) (c : Nat) (f : Word) (skipped : Bool) (reason : Nat) : State :=
  s.notify ((if skipped then 6 else 5) + 256 * reason + 65536 * c) f
/-- Queue the token of a slot that fired, or hold it where the debugger watches the slot (R243, R339, R340). -/
def State.fireToken (s : State) (c w p : Nat) (t : Token) : State :=
  let s := s.event c (s.launch ((s.core c).dir (fpUnit t.fp)).lid).sid 3 1
  if s.watched c (fpUnit t.fp) w then
    if (s.core c).hold.length < 16 then
      (s.modCore c fun x => { x with hold := x.hold ++ [t] }).stopNote c t.fp false 4
    else (s.stopNote c t.fp true 4).queueToken c p t
  else s.queueToken c p t
/-- FIRE (R243): the token of a slot that has reached zero names its frame and the slot's ENTRY. -/
def State.fire (s : State) (c u w : Nat) (v : Word) : State :=
  s.fireToken c w (bits v 46 45) { fp := s.residentFp c u, pos := v.extractLsb' 0 32 }
/-- COUNT of a slot word (R242). -/
def slotCount (v : Word) : Int := (v.extractLsb' 48 16).toInt
/-- A slot word with a count and the other fields given. -/
def slotWord (count : Int) (armed : Bool) (rest : Nat) : Word :=
  (BitVec.ofInt 16 count ++ 0#48) ||| wd (b2n armed * 2 ^ 47 + rest)
/-- SIG(n) on a slot word (R243): the new word and whether it fires, or the kind of the fault recorded. -/
def sigStep (v : Word) (n : Nat) : Except Nat (Word × Bool) :=
  if bits v 44 32 ≠ 0 then .error 20
  else
    let c := slotCount v - n
    let armed := bitOf v 47
    if armed && c < 0 then .error 18
    else if c < -32768 then .error 19
    else if armed && c = 0 then .ok (slotWord 0 false (bits v 46 0), true)
    else .ok (slotWord c armed (bits v 46 0), false)
/-- ARM(n, e, p) on a slot word (R243): the new word and whether it fires, or the frame trap. -/
def armStep (v : Word) (n : Nat) (e : BitVec 32) (p : Nat) : Option (Word × Bool) :=
  let rest := p * 2 ^ 45 + e.toNat
  if bits v 44 32 ≠ 0 then none
  else if bitOf v 47 then
    if n ≠ 0 then none else some (slotWord (slotCount v) true rest, false)
  else
    let c := slotCount v + n
    if c < 0 || 32767 < c then none
    else if c = 0 then some (slotWord 0 false rest, true) else some (slotWord c true rest, false)
/-- DETAIL of the slot faults and of STALE (R327). -/
def slotDetail (src : Node) (n w : Nat) : Word :=
  wd (src.pkg.toNat * 2 ^ 46 + src.core.toNat * 2 ^ 35 + n * 2 ^ 9 + w)
/-- Apply a signal's data and count to the resident frame at a location, as one step (R151, R267). n = 0 signals nothing. A
word beyond the frame's words, which R267 checks at its own heads only, is the scratch word at that place (log 50). -/
def State.applySig (s : State) (c : Nat) (f : Word) (w n : Nat) (d : SigData) (p : Packet) : State :=
  let u := fpUnit f
  let s := match d with
    | .none => s
    | .word k v m => s.scrWrite c (64 * u + 8 * k) (whole (wordBytes v)) m
    | .vec k v => s.scrWrite c (64 * u + 8 * k) (whole (lineBytes v)) false
    | .words k vs => s.scrWrite c (64 * u + 8 * k) (whole (vs.map wordBytes).flatten) false
  if n = 0 then s
  else
    let x := s.core c
    match sigStep (x.scrWord (64 * u + 8 * w)) n with
    | .error k => s.packetRecord p (mkRec k 0 (s.launch (x.dir u).lid).sid (x.dir u).lid (coreNode s c) f (slotDetail p.src n w))
    | .ok (v, fires) =>
      let s := s.scrWrite c (64 * u + 8 * w) (whole (wordBytes v)) false
      if fires then s.fire c u w v else s
/-- A stale packet: discarded, counted and recorded (R123). -/
def State.stale (s : State) (c : Nat) (f : Word) (w n : Nat) (p : Packet) : State :=
  (s.packetRecord p (mkRec 11 0 p.sid p.lid (coreNode s c) f (slotDetail p.src n w))).event c p.sid 8 1
/-- FRAME_PACKET_ARRIVAL (R117, R123): a frame-addressed packet at its home, applied, held, forwarded or stale. A forwarded
signal goes with the CLASS of its location, which gives the place of the record's tags (R122); one whose record no node can
serve is refused (R49). -/
def State.frameArrive (s : State) (c : Nat) (f : Word) (w n : Nat) (d : SigData) (p : Packet) : State :=
  let x := s.core c
  let u := fpUnit f
  let dir := x.dir u
  let stale := s.stale c f w n p
  let hold := s.modFr c fun fr => { fr with heldPkts := fr.heldPkts ++ [(u, { p with body := .sig f w n d })] }
  if fpMalformed x f then stale
  else if !(x.lids.contains dir.lid) || (s.launch dir.lid).sid ≠ p.sid then stale
  else if dir.alloc && dir.gen = fpGen f then
    if dir.reserved then hold else s.applySig c f w n d p
  else if dir.spilled && dir.sgen = fpGen f then
    if dir.refill then hold
    else
      let a := s.spillAddr c u
      let o : Who := ⟨c, p.lid, p.sid, p.thr⟩
      if s.badAddr (a + wd (8 * w)) then s.refuse o (a + wd (8 * w))
      else
      let (id, s) := s.send o (a + wd (8 * w)) p.slack (false, 0) true none
        (mget [] x.fr.spills u) (.fwd (x.asHome f) w n d a c u)
      s.modFr c fun fr => { fr with fwds := mmod 0 u (· + 1) fr.fwds, spills := mmod [] u (fun l => l.filter (· ≠ id)) fr.spills }
  else stale

/-- A refill is announced by the acknowledgement of the signal that fired (R318), unless it has ended already. -/
def Frames.announce (f : Frames) (lid : BitVec 32) : Frames :=
  if f.early.contains lid then { f with early := f.early.erase lid } else { f with announced := f.announced ++ [lid] }
/-- A refill ends: its token is queued, or it is discarded. -/
def Frames.refilled (f : Frames) (lid : BitVec 32) : Frames :=
  if f.announced.contains lid then { f with announced := f.announced.erase lid } else { f with early := f.early ++ [lid] }
/-- The packets held for a location are checked again, in arrival order (R124, R268). -/
def State.applyHeld (s : State) (c u : Nat) : State :=
  let held := (s.core c).fr.heldPkts.filter fun h => h.1 = u
  (s.modFr c fun fr => { fr with heldPkts := fr.heldPkts.filter fun h => h.1 ≠ u }).each held fun s h =>
    match h.2.body with
    | .sig f w n d => s.frameArrive c f w n d h.2
    | _ => s

/-- A packet is checked against a core's frame directory in this A-cycle (R123). -/
def State.noteCheck (s : State) (c : Nat) : State := s.modCore c fun x => { x with checkedAt := some s.acyc }
/-- A completion signal that a core sends itself (R151, R156, R212): it takes its place at once, or is held at the network
interface while a request in `wait`, which its threadlet's earlier fences named, is outstanding (R165, R166, R232). -/
def State.signal (s : State) (c : Nat) (f : Word) (w : Nat) (p : Packet) (wait : List Nat) : State :=
  let still := wait.filter fun i => (s.core c).ni.outs.any fun o => o.id = i
  if still.isEmpty then s.frameArrive c f w 1 .none p
  else
    let q := { mkPkt (coreNode s c) (fpNode f) p.sid p.lid p.thr p.id p.slack (.sig f w 1 .none) with fault := p.fault }
    s.modNi c fun ni => { ni with held := ni.held ++ [⟨q, still⟩] }

/-! Taking a trap and returning from one (R322-R324, R248, R277). -/

def TrapClass.code : TrapClass → Nat
  | .illegal => 1 | .privilege => 2 | .lineFormat => 3 | .emptyWord => 4 | .index => 5 | .alignment => 6 | .format => 7
  | .listOverflow => 8 | .scratchProtection => 9 | .control => 10 | .frame => 11 | .accumulator => 12 | .stage => 13
  | .software => 14
def loopWord (e : LoopEnt) : Word := wd (e.first.toNat * 2 ^ 32 + e.last.toNat)
def wordLoop (v r : Word) : LoopEnt := ⟨v.extractLsb' 32 27, v.extractLsb' 0 27, r.extractLsb' 0 32⟩
/-- Four predicate registers in one word (R323). -/
def qWord (r : Regs) (n : Nat) : Word :=
  wd (((List.range 4).map fun k => (r.rq (BitVec.ofNat 3 (n + k))).toNat * 65536 ^ k).sum)
/-- Word $0 of a trap or park record (R323). -/
def recWord0 (pos : BitVec 32) (code : Half) (head cls : Nat) : Word :=
  wd (pos.toNat * 2 ^ 32 + code.toNat * 2 ^ 16 + head * 2 ^ 8 + cls)
/-- The words of a trap or park record (R323): index, value and P. -/
def recWords (w0 tfp addr : Word) (ctx : Nat) (r : Regs) : List (Nat × Word × Bool) :=
  [(0, w0, false), (1, tfp, true), (2, addr, false), (3, wd (ctx * 16 + r.depth.toNat), false),
   (4, loopWord r.l0, false), (5, wd r.l0.rem.toNat, false), (6, loopWord r.l1, false), (7, wd r.l1.rem.toNat, false),
   (8, wd r.cf.toNat, false), (9, qWord r 0, false), (10, qWord r 4, false), (11, wd r.marks.toNat, false)] ++
  ((List.range 32).map fun k => (16 + k, r.rx (BitVec.ofNat 5 k), r.marks.getLsbD k)) ++
  ((List.range 16).map fun k => (bytesWords (lineBytes (r.rv (BitVec.ofNat 4 k)))).zipIdx.map fun p =>
    (64 + 8 * k + p.2, p.1, false)).flatten
/-- The registers a record's words give (R323); a function from word index to value reads them. -/
def recRegs (g : Nat → Word) : Regs :=
  let r : Regs := { cf := (g 8).extractLsb' 0 7, depth := (g 3).extractLsb' 0 2, l0 := wordLoop (g 4) (g 5),
                    l1 := wordLoop (g 6) (g 7) }
  let r := (List.range 31).foldl (fun r k =>
    r.wxm (BitVec.ofNat 5 (k + 1)) (g (17 + k)) ((g 11).getLsbD (k + 1))) r
  let r := (List.range 16).foldl (fun r k =>
    r.wv (BitVec.ofNat 4 k) (bytesLine ((List.range 8).map fun j => wordBytes (g (64 + 8 * k + j))).flatten)) r
  (List.range 7).foldl (fun r k =>
    r.wq (BitVec.ofNat 3 (k + 1)) ((g (9 + (k + 1) / 4)).extractLsb' (16 * ((k + 1) % 4)) 16)) r
/-- The record's loop stack is one that `tresume` accepts (R323). -/
def loopsOk (depth : Nat) (l0 l1 : LoopEnt) : Bool :=
  depth ≤ 2 && (depth = 0 || l0.first ≤ l0.last) && (depth < 2 || l1.first ≤ l1.last)
/-- A location becomes free: on top of its free list, unless a reservation or a refill holds it (R120, R124, R268). -/
def Frames.push (f : Frames) (u : Nat) : Frames :=
  let d := mget {} f.dir u
  if d.reserved || d.refill then f else { f with free := mmod [] d.cls.toNat (fun l => u :: l) f.free }
/-- The threadlet of a context ends: the context is free, and the record that a handler holds no longer keeps its frame (R248,
R249). Another threadlet fired in the record's frame keeps nothing. -/
def State.endThread (s : State) (c k : Nat) : State :=
  let x := s.ctx c k
  let s := s.setCtx c k {}
  (s.modNi c fun ni => { ni with fences := ni.fences.filter fun f => f.thr ≠ x.thr }).modCore c fun y =>
    { y with tfps := y.tfps.filter fun p => !x.handler || p.1 ≠ x.fp }
/-- Release what a discarded block had reserved (R268), in the order of its heads, so that of two locations of a class the later
head's lies on top of the free list: the spec does not order them (log 70). -/
def State.discard (s : State) (c k : Nat) : State :=
  let w := (s.ctx c k).work
  let s := s.each w.acts fun s p => match p.2 with
    | .falloc u _ _ => (s.unreserve c u).applyHeld c u
    | _ => s
  s.modCtx c k fun x => { x with work := {} }
/-- TRAP_DELIVERY (R322-R324): the block is discarded, the threadlet ends, a class-3 frame of the core's split (R305), never
the trapped one, takes the record of the context as it stood at block start, and the token (record frame, TRAP) is queued at class 3; where that cannot be, a TRAP
fault is recorded and the launch ends faulted. -/
def State.takeTrap (s : State) (c k : Nat) (t : Trap) (head : Nat) : State :=
  let s := s.discard c k
  let x := s.ctx c k
  let l := s.launch x.lid
  let w0 := recWord0 x.pos t.code head t.cls.code
  let s := s.event c l.sid 4 1
  let failed := ((s.endThread c k).record { mkRec 24 t.cls.code l.sid x.lid (coreNode s c) x.fp w0 with w5 := t.addr }).failLaunch x.lid
  if x.handler || (s.env c).counts.getD 3 0 = 0 then failed
  else match s.falloc c 3 x.lid with
    | none => failed
    | some (f, s) =>
      let s := (s.endThread c k).fillFrame c (fpUnit f) (recWords w0 x.fp t.addr k x.regs)
      let s := s.modCore c fun y => { y with tfps := y.tfps ++ [(f, x.fp)] }
      s.queueToken c 3 { fp := f, pos := l.trapPos, kind := .handler }
/-- The steps of `tresume` (R277): registers, loop stack and frame from the record in the running frame, the record frame
freed, and the context goes on at a position. -/
def State.resume (s : State) (c k : Nat) (pos : Option (BitVec 32)) : State :=
  let x := s.ctx c k
  let u := fpUnit x.fp
  let g := fun n => (s.core c).scrWord (64 * u + 8 * n)
  let tfp := g 1
  let s := s.modCore c fun y => { y with tfps := y.tfps.filter fun p => p.1 ≠ x.fp }
  let s := s.setCtx c k { x with regs := recRegs g, fp := tfp, pos := pos.getD ((g 0).extractLsb' 32 32),
                                 lid := ((s.core c).dir (fpUnit tfp)).lid, handler := false, work := {} }
  (s.modDir c u fun d => { d with alloc := false, pin := false, gen := d.gen + 1 }).modFr c fun f => f.push u

end Sys2Proof.Machine
end

