-- ==== Sys2Proof/Machine/Operands.lean ====
section
/-! DEFINITION. Operands.lean: every operand form of a Shokuxel instruction: the guard and its lanes (R26), registers of
the working copy, frame words (R144, R150), local addresses (R110, R145), slot fields (R149), displacements (R258), the
overlay of a block's own stores (R29), and how a head ends: its result, or its trap. -/

namespace Sys2Proof.Machine

/-! Guards and lanes (R26). -/

def Regs.guard (r : Regs) (g : Guard) : Half := if g.pol then ~~~(r.rq g.pred) else r.rq g.pred
/-- Bit 0 of the guard governs every instruction that is not a vector one. -/
def Regs.on (r : Regs) (g : Guard) : Bool := (r.guard g).getLsbD 0
/-- 32-bit lane i is governed by bit i, 64-bit lane i by bit 2i. -/
def laneOn (m : Half) (wide : Bool) (i : Nat) : Bool := m.getLsbD (if wide then 2 * i else i)
def laneCount (wide : Bool) : Nat := if wide then 8 else 16
def laneBits (wide : Bool) : Nat := if wide then 64 else 32
/-- Lane i of a vector as a number. -/
def getLane (wide : Bool) (v : Line64) (i : Nat) : Nat := (v.toNat / 2 ^ (laneBits wide * i)) % 2 ^ laneBits wide
/-- A vector from the values of its lanes. -/
def ofLanes (wide : Bool) (l : List Nat) : Line64 :=
  BitVec.ofNat 512 (l.foldr (fun v acc => v % 2 ^ laneBits wide + 2 ^ laneBits wide * acc) 0)
/-- Replace the enabled lanes of an old vector by a function of the lane number. -/
def mapLanes (wide : Bool) (m : Half) (old : Line64) (f : Nat → Nat) : Line64 :=
  ofLanes wide ((List.range (laneCount wide)).map fun i => if laneOn m wide i then f i else getLane wide old i)
def anyLane (wide : Bool) (m : Half) : Bool := (List.range (laneCount wide)).any fun i => laneOn m wide i

/-! How a head ends. -/

/-- The working copy a head leaves, or its trap. -/
abbrev HeadRes := Except Trap Work
def trapAt {α : Type} (c : TrapClass) (a : Word) : Except Trap α := .error { cls := c, addr := a }
/-- Go on only where a condition holds, else trap. -/
def check {α : Type} (ok : Bool) (c : TrapClass) (a : Word) (k : Except Trap α) : Except Trap α :=
  if ok then k else trapAt c a
/-! The running threadlet. -/

def State.myLaunch (s : State) : Launch := s.launch s.me.lid
def State.mySid (s : State) : Half := s.myLaunch.sid
def State.myUnit (s : State) : Nat := fpUnit s.me.fp
def State.myWords (s : State) : Nat := frameWords (fpCls s.me.fp)
def State.who (s : State) : Who := ⟨s.cur.core, s.me.lid, s.mySid, s.me.thr⟩
/-- A format register as the block's working copy holds it (R143). -/
def State.fmtOf (s : State) (n : Nat) : Word := mget (mget 0 (s.core s.cur.core).fmt n) s.work.fmt n
/-- The slot a slot field names (R149). With SV = 0 it names none, whatever SLOT holds: the spec does not say whether a SLOT that is
not 0 is illegal then, or beyond the frame (log 76). -/
def slotOf (sf : SlotField) : Option Nat := if sf.sv then some sf.slot.toNat else none
/-- A displacement in lines from the line that holds the head (R258). -/
def target (w : Work) (d : BitVec 32) : Int := (w.line : Int) + d.toInt
/-- A base register plus a signed byte offset (R145). -/
def baseOff (r : Regs) (b : XReg) (off : BitVec 32) : Word := r.rx b + off.signExtend 64
/-- Add an action that takes effect at commit (R30). -/
def Work.act (w : Work) (a : Act) : Work := { w with acts := w.acts ++ [(w.k, a)] }
/-- The slot and frame words of a split-phase form lie in the frame (R150). -/
def wordsOk {α : Type} (s : State) (slot : Option Nat) (last : Option Nat) (k : Except Trap α) : Except Trap α :=
  check (slot.all fun n => n < s.myWords) .index (wd (slot.getD 0)) <|
  check (last.all fun n => n < s.myWords) .index (wd (last.getD 0)) k

/-! Loads and stores of the block (R29, R113, R114). -/

/-- The byte a store leaves at an address, if it writes it. -/
def storeByte (core a : Nat) (p : PStore) : Option Byte :=
  if p.core = core && p.off ≤ a then p.bytes.getD (a - p.off) none else none
/-- The byte a load reads: that of the latest store of the block, else scratch. -/
def Work.byteAt (w : Work) (core a : Nat) (base : Byte) : Byte :=
  (w.stores.filterMap (storeByte core a)).getLast?.getD base
/-- Does a scratch offset of the own core lie in a frame that the block's `falloc` heads have returned? Its bytes read 0, empty,
whatever a victim there still holds (R121). -/
def Work.isNew (w : Work) (off : Nat) : Bool := w.acts.any fun a => match a.2 with
  | .falloc u cls _ => 64 * u ≤ off && off < 64 * u + frameSize cls
  | _ => false
/-- A byte of scratch as the block found it, or of a frame new in the block. -/
def State.oldByte (s : State) (w : Work) (core a : Nat) : Byte :=
  if core = s.cur.core && w.isNew a then 0 else mget 0 (s.core core).scr a
/-- Bytes of scratch as a load of the block reads them. -/
def State.loadBytes (s : State) (w : Work) (core off n : Nat) : List Byte :=
  (List.range n).map fun k => w.byteAt core (off + k) (s.oldByte w core (off + k))
def Work.hits (w : Work) (core i : Nat) : List PStore :=
  w.stores.filter fun p => p.core = core && (wordsHit p.off p.bytes).contains i
/-- F of a word as the block's stores leave it. -/
def State.fullIn (s : State) (w : Work) (core i : Nat) : Bool :=
  !(w.hits core i).isEmpty || (!(core = s.cur.core && w.isNew (8 * i)) && (s.core core).full i)
/-- P of a word as the block's stores leave it. -/
def State.ptrIn (s : State) (w : Work) (core i : Nat) : Bool :=
  match (w.hits core i).getLast? with
  | some p => p.mark
  | none => !(core = s.cur.core && w.isNew (8 * i)) && (s.core core).isPtr i
def State.loadWord (s : State) (w : Work) (core off : Nat) : Word := bytesWord (s.loadBytes w core off 8)
def Work.store (w : Work) (core off : Nat) (bs : List (Option Byte)) (mark : Bool) : Work :=
  { w with stores := w.stores ++ [⟨core, off, bs, mark⟩] }
/-- A read that its block keeps indivisible from its effect at commit: the bytes it found stand in the working copy (R147,
R171, R237). -/
def Work.note (w : Work) (core off : Nat) (bs : List Byte) : Work := { w with seen := w.seen ++ [(core, off, bs)] }
/-- The scratch offset of word n of the running frame. -/
def State.wordOff (s : State) (n : Nat) : Nat := 64 * s.myUnit + 8 * n
/-- A local operand (R110, R82) that lies whole in one core's scratch, else the scratch protection trap. -/
def localAt {α : Type} (s : State) (a : Word) (len : Nat) (wr : Bool) (k : Nat → Nat → Except Trap α) : Except Trap α :=
  match s.localOk s.cur.core s.mySid a len wr with
  | some (c, off) => k c off
  | none => trapAt .scratchProtection a
/-- A local operand that is read and written: one window grants both rights, as it does for an atomic (R82; log 51). -/
def localRW {α : Type} (s : State) (a : Word) (len : Nat) (k : Nat → Nat → Except Trap α) : Except Trap α :=
  match s.localAddr s.cur.core a with
  | some (c, off) =>
    check (off + len ≤ 0x100000 && (s.core c).grants s.mySid off len true true) .scratchProtection a (k c off)
  | none => trapAt .scratchProtection a
def aligned (a : Word) (n : Nat) : Bool := a.toNat % n = 0
/-- The width in bytes of a type (R5). -/
def Ty.width : Ty → Nat
  | .s8 | .z8 => 1
  | .s16 | .z16 | .bf16 | .f16 => 2
  | .f32 | .s32 | .z32 => 4
  | .f64 | .s64 | .z64 => 8
def Ty.signed : Ty → Bool
  | .s8 | .s16 | .s32 | .s64 => true
  | _ => false
/-- Extend loaded bytes into a register as `ld` of the type does (R145). -/
def extendTy (t : Ty) (bs : List Byte) : Word :=
  let n := leNat bs
  let w := 8 * Ty.width t
  if Ty.signed t && n.testBit (w - 1) then wd (2 ^ 64 - 2 ^ w + n) else wd n
/-- The low bytes of a register that a store of the type writes (R145). -/
def lowBytes (t : Ty) (v : Word) : List Byte := natLe (Ty.width t) v.toNat

/-! Control outcomes (R31, R259). -/

/-- A second taken control head raises the control trap. -/
def takeCtl (w : Work) (c : Ctl) : HeadRes :=
  check (w.ctl = .fall) .control 0 <| .ok { w with ctl := c, ctlHead := w.k }
/-- A transfer to a line of the segment (R259). -/
def jumpTo (s : State) (w : Work) (t : Int) : HeadRes :=
  check (0 ≤ t && t < s.myLaunch.clen) .control 0 <| takeCtl w (.jump t.toNat)
/-- The line of the segment that a core holds (R371). -/
def State.lineAt (s : State) (c : Nat) (lid : BitVec 32) (n : Nat) : Option Line64 :=
  let key := lid.toNat * 2 ^ 27 + n
  if mhas (s.core c).lines key then some (mget 0 (s.core c).lines key) else none
def lineKind (l : Line64) : BitVec 2 := (lineHdr l).kind
/-- Pop the loops that a target leaves (R264). -/
def popLoops (t : Nat) : List LoopEnt → List LoopEnt
  | [] => []
  | l => if t < (l.getLastD {}).first.toNat || (l.getLastD {}).last.toNat < t then
           match l with
           | [] => []
           | [a, _] => if t < a.first.toNat || a.last.toNat < t then [] else [a]
           | _ => []
         else l
/-- The loop stack after a transfer into a line of a kind, or the control trap (R264). -/
def enterLine (t : Nat) (kind : BitVec 2) (l : List LoopEnt) : Option (List LoopEnt) :=
  let l := popLoops t l
  if kind = 1 && l.isEmpty then none
  else if !l.isEmpty && kind ≠ 1 then none
  else some l
def lineOf (pos : BitVec 32) : Nat := (pos.extractLsb' 5 27).toNat
def headOf (pos : BitVec 32) : Nat := (pos.extractLsb' 0 5).toNat
/-- Word n of the running frame as the block's stores will leave it (R277). -/
def State.recWord (s : State) (w : Work) (n : Nat) : Word := s.loadWord w s.cur.core (s.wordOff n)
/-- The record of a `tresume` as the block's stores will leave it: a loop stack that R323 accepts and, for a new position,
one that may go into its line (R264, R277). -/
def State.recordOk (s : State) (w : Work) (p : Option (BitVec 32)) : Bool :=
  let depth := bits (s.recWord w 3) 1 0
  let l0 := wordLoop (s.recWord w 4) (s.recWord w 5)
  let l1 := wordLoop (s.recWord w 6) (s.recWord w 7)
  loopsOk depth l0 l1 && match p with
    | none => true
    | some q => (enterLine (lineOf q) 2 ({ depth := BitVec.ofNat 2 depth, l0 := l0, l1 := l1 : Regs }.loops)).isSome
/-- Has a `tresume` head of the block a record that fails, as the block's stores leave it up to now (R277)? -/
def State.resumeBad (s : State) (w : Work) : Bool := match w.ctl with
  | .resume p => !s.recordOk w p
  | _ => false

/-! How a head ends. -/

/-- The block goes on to its next head with a working copy. -/
def headDone (s : State) (w : Work) : Out := .next (s.setWork { w with k := s.work.k + 1 })
/-- The trap that a head's trap makes its block take, with its head: that of a lower `tresume` head whose record fails as the
block's stores leave it, else the head's own (R33, R277). -/
def State.headTrapOf (s : State) (t : Trap) : Trap × Nat :=
  if s.resumeBad s.work then ({ cls := .control }, s.work.ctlHead) else (t, s.work.k)
/-- The head traps: the block is discarded and the trap is taken at once (R29, R322). -/
def headTrap (s : State) (t : Trap) : Out :=
  .next (s.takeTrap s.cur.core s.cur.unit (s.headTrapOf t).1 (s.headTrapOf t).2)
/-- The result of a head. -/
def headEnd (s : State) : HeadRes → Out
  | .ok w => headDone s w
  | .error t => headTrap s t
/-- The result of a head that also changes state outside the working copy. -/
def headEndS (s : State) : Except Trap (State × Work) → Out
  | .ok (s', w) => .next (s'.setWork { w with k := s.work.k + 1 })
  | .error t => headTrap s t
/-- A head governed by bit 0 of its guard; predicated off it changes nothing (R26). -/
def runHead (s : State) (g : Guard) (f : Work → HeadRes) : Out :=
  if s.work.regs.on g then headEnd s (f s.work) else headDone s s.work
/-- A head that also changes state outside the working copy. -/
def runHeadS (s : State) (g : Guard) (f : Work → Except Trap (State × Work)) : Out :=
  if s.work.regs.on g then headEndS s (f s.work) else headDone s s.work
/-- A head that only changes registers. -/
def regHead (s : State) (g : Guard) (f : Regs → Regs) : Out :=
  runHead s g fun w => .ok { w with regs := f w.regs }
/-- A vector head: its guard governs lanes, and it never traps. -/
def laneHead (s : State) (g : Guard) (f : Half → Regs → Regs) : Out :=
  headDone s { s.work with regs := f (s.work.regs.guard g) s.work.regs }

end Sys2Proof.Machine
end

