-- ==== Sys2Proof/Machine/Threads.lean ====
section
/-! DEFINITION. Threads.lean: tokens and threadlets: binding and promotion (R246-R249), parking and debug stops (R332,
R339, R340), and how a line is fetched and a block begins (R21-R33, R241, R371). -/

namespace Sys2Proof.Machine

/-- Is the agent one the package has (R10-R14)? -/
def needCore (c : Nat) (k : Out) : Out := if c < 2048 then k else .fault .noSuchAgent
def needCtx (c k : Nat) (x : Out) : Out := if c < 2048 && k < 16 then x else .fault .noSuchAgent

/-- PARK (R332): a class-3 frame of the core's split (R305) takes the record of the context between blocks, CLASS 0, and the
park token goes to the ready queue at class 3 or, at a debug stop, to the hold list; the threadlet and its fences stay
(R240). None when no frame or no place can be taken. -/
def State.park (s : State) (c k : Nat) (regs : Regs) (pos : BitVec 32) (toHold pass : Bool) : Option State :=
  let x := s.ctx c k
  if (s.env c).counts.getD 3 0 = 0 || (toHold && 16 ≤ (s.core c).hold.length) then none
  else match s.falloc c 3 x.lid with
    | none => none
    | some (f, s) =>
      let s := s.fillFrame c (fpUnit f) (recWords (recWord0 pos 0 0 0) x.fp 0 k regs)
      let s := s.modCore c fun y => { y with tfps := y.tfps ++ [(f, x.fp)] }
      let t : Token := { fp := f, pos := 0xffffffff, kind := .park x.handler, pass := pass, owed := x.owed, thr := x.thr }
      let s := s.setCtx c k {}
      if toHold then some (s.modCore c fun y => { y with hold := y.hold ++ [{ t with since := s.acyc }] })
      else some (s.queueToken c 3 t)
/-- DEBUG_STOP (R340): park into the hold list and notify the owner; where that cannot be, the stop is skipped and the
owner notified. -/
def State.debugStop (s : State) (c k : Nat) (regs : Regs) (pos : BitVec 32) (reason : Nat) (pass : Bool) : Option State :=
  let f := (s.ctx c k).fp
  match s.park c k regs pos true pass with
  | some s' => some (s'.stopNote c f false reason)
  | none => none

/-- Is the block at a line one a breakpoint watches (R339)? -/
def State.breakHit (s : State) (c : Nat) (lid : BitVec 32) (line : Nat) : Bool :=
  s.debugged lid && (List.range 8).any fun n =>
    let b := mget 0 s.dist.bp n
    bitOf b 63 && bits b 26 0 = line && (!bitOf b 62 || bits b 61 51 = c)

/-- Does the head touch a register only a privileged launch may (R41, R278)? -/
def privileged : Instr → Bool
  | .sysr _ _ n => n = 8 || n = 9 || n = 10
  | .sysw _ n _ => n ≠ 0
  | .ctrCfg _ _ _ => true
  | _ => false
/-- The lowest-numbered head with a decode trap, and its trap (R33, R40, R41). -/
def decodeTrap (priv : Bool) : List Dec → Nat → Option (Nat × TrapClass)
  | [], _ => none
  | .error _ :: _, n => some (n, .illegal)
  | .ok i :: t, n => if !priv && privileged i then some (n, .privilege) else decodeTrap priv t (n + 1)

/-- LINE_FETCH (R371): ask the slice for a line of the launch's code segment, unless it is asked for already. A fetch is the
core's own: no fence holds it. A code segment of an absent package is refused (R49). -/
def State.fetchLine (s : State) (c : Nat) (lid : BitVec 32) (line : Nat) : State :=
  let key := lid.toNat * 2 ^ 27 + line
  if (s.core c).lineReq.contains key then s
  else
    let l := s.launch lid
    let a := l.code + wd (64 * line)
    if s.badAddr a then s.refuse ⟨c, lid, l.sid, 0⟩ a
    else
      let (_, s) := s.send ⟨c, lid, l.sid, 0⟩ a (slackOf (s.env c) 0) (false, 0) false none [] (.read a 64 .fetch (.line lid line))
      s.modCore c fun x => { x with lineReq := x.lineReq ++ [key] }

/-- BLOCK_EXECUTE up to its first head (R27-R29, R241): the code position, the debugger's breakpoints, the line's checks
and its decode, and then the position's head and the loop stack, in the order of R33; then the working copy stands at the first
head. Any line may be entered by a handler's token, of kind 0b10 or not: R32 names no check (log 52). A line of kind 0b01 that
the loop stack does not cover raises the control trap here however the threadlet came to it, by a token, by the close of an
iteration, which R264 does not check, or by a resume (log 57). A transfer or a new position that a stopping core committed
unchecked is checked here (R264, R277, R331; log 57). -/
def execBlockExecute (core k : Nat) (s : State) : Out :=
  needCtx core k <|
  let x := s.ctx core k
  let l := s.launch x.lid
  if !x.bound || x.work.active then .next s
  else if l.phase = .ending then .next (s.endThread core k)
  else if let some s' := (if (s.core core).park then s.park core k x.regs x.pos false x.pass else none) then .next s'
  else if l.clen ≤ lineOf x.pos then .next (s.takeTrap core k { cls := .control } (headOf x.pos))
  else match s.lineAt core x.lid (lineOf x.pos) with
    | none => .next (s.fetchLine core x.lid (lineOf x.pos))
    | some img =>
      let stop := if s.breakHit core x.lid (lineOf x.pos) && !x.pass then s.debugStop core k x.regs x.pos 1 true else none
      match stop with
      | some s' => .next s'
      | none =>
        let s := if s.breakHit core x.lid (lineOf x.pos) && !x.pass then s.stopNote core x.fp true 1 else s
        if !lineOk img then .next (s.takeTrap core k { cls := .lineFormat } 31)
        else match decodeTrap l.priv (lineDecode img) 0 with
          | some (n, t) => .next (s.takeTrap core k { cls := t } n)
          | none =>
            let top := x.regs.loops.getLastD {}
            if (lineHdr img).h ≤ headOf x.pos || !loopsOk x.regs.depth.toNat x.regs.l0 x.regs.l1 then
              .next (s.takeTrap core k { cls := .control } (headOf x.pos))
            else if lineKind img = 1 && (x.regs.depth = 0 || lineOf x.pos < top.first.toNat || top.last.toNat < lineOf x.pos) then
              .next (s.takeTrap core k { cls := .control } (headOf x.pos))
            else if (x.owed = .transfer && (enterLine (lineOf x.pos) (lineKind img) x.regs.loops).isNone) ||
                (x.owed = .resume && lineKind img ≠ 2) then
              .next (s.takeTrap core k { cls := .control } (headOf x.pos))
            else .next (s.setCtx core k { x with pass := false, owed := .no, work :=
              { active := true, line := lineOf x.pos, image := img, k := headOf x.pos, regs := x.regs } })

/-- LINE_FETCH (R371). -/
def execLineFetch (core k : Nat) (s : State) : Out :=
  needCtx core k <|
  let x := s.ctx core k
  if x.bound && !x.work.active && (s.lineAt core x.lid (lineOf x.pos)).isNone then
    .next (s.fetchLine core x.lid (lineOf x.pos))
  else .next s

/-- The first packet of a core's queue of deliveries that a test picks, and the queue without it. -/
def takeFirst (f : Packet → Bool) : List Packet → Option (Packet × List Packet)
  | [] => none
  | p :: t => if f p then some (p, t) else (takeFirst f t).map fun r => (r.1, p :: r.2)
/-- The delivery of a kind that a core takes next: the first of the kind; but while packets of its inbox are due, the first of
all, if it is of the kind (R335). -/
def Core.first (x : Core) (f : Packet → Bool) : Option (Packet × List Packet) :=
  if x.due = 0 then takeFirst f x.inq
  else match x.inq with
    | [] => none
    | p :: t => if f p then some (p, t) else none
/-- The core with the deliveries that are left. -/
def Core.took (x : Core) (rest : List Packet) : Core := { x with inq := rest, due := x.due - 1 }
/-- A request is complete: it is outstanding no more (R151, R318). -/
def State.settle (s : State) (c : Nat) (id : Nat) : State :=
  s.modNi c fun ni => { ni with outs := ni.outs.filter fun o => o.id ≠ id }
/-- An event that takes the first packet of a kind from a core's deliveries; with none there, nothing happens (log 1). -/
def onPacket (s : State) (c : Nat) (f : Packet → Bool) (k : Packet → State → State) : Out :=
  needCore c <|
  match (s.core c).first f with
  | none => .next s
  | some (p, rest) => .next (k p (s.modCore c fun x => x.took rest))
def isLineReply (p : Packet) : Bool :=
  match p.body with
  | .data _ (.line _ _) | .ack (.line _ _) _ => true
  | _ => false
/-- LINE_FETCH_ARRIVAL (R371): the line enters the core's line store; a fetch declared fatal ends the launch faulted. -/
def execLineFetchArrival (core : Nat) (s : State) : Out :=
  onPacket s core isLineReply fun p s =>
    let s := s.settle core p.id
    let drop := fun (s : State) (key : Nat) => s.modCore core fun x => { x with lineReq := x.lineReq.filter (· ≠ key) }
    match p.body with
    | .data bs (.line lid n) =>
      let key := lid.toNat * 2 ^ 27 + n
      let s := drop s key
      if (s.core core).lids.contains lid then s.modCore core fun x => { x with lines := mput key (bytesLine bs) x.lines } else s
    | .ack (.line lid n) _ => (drop s (lid.toNat * 2 ^ 27 + n)).failLaunch lid
    | _ => s

/-- The lowest-numbered free context. -/
def Core.freeCtx (x : Core) : Option Nat := (List.range 16).find? fun k => !(x.ctx k).bound
/-- The highest class whose head was queued in an earlier A-cycle (R248). -/
def Core.bindClass (x : Core) (now : Nat) : Option (Nat × Token) :=
  [3, 2, 1, 0].findSome? fun p =>
    match mget [] x.ready p with
    | t :: _ => if t.since < now then some (p, t) else none
    | [] => none
/-- A token binds to a context (R34, R248): a park token's threadlet goes on by the steps of `tresume` (R332), which trap on a
record with a bad loop stack and keep it (R323), its frame ready for it no more (R248); any other token's is new. -/
def State.bind (s : State) (c k : Nat) (t : Token) : State :=
  let (id, s) := s.fresh
  let lid := ((s.core c).dir (fpUnit t.fp)).lid
  let y : Ctx := { bound := true, fp := t.fp, pos := t.pos, lid := lid, thr := if t.thr = 0 then id else t.thr, pass := t.pass, owed := t.owed }
  match t.kind with
  | .plain => s.setCtx c k y
  | .handler => s.setCtx c k { y with handler := true }
  | .park h =>
    let s := s.setCtx c k { y with handler := h }
    let g := fun n => (s.core c).scrWord (64 * fpUnit t.fp + 8 * n)
    if loopsOk (bits (g 3) 1 0) (wordLoop (g 4) (g 5)) (wordLoop (g 6) (g 7)) then
      (s.resume c k none).modCtx c k fun z => { z with handler := h }
    else (s.modCore c fun y => { y with tfps := y.tfps.filter fun p => p.1 ≠ t.fp }).takeTrap c k { cls := .control } 31
/-- TOKEN_BIND (R34, R248): the head of the highest class binds to the lowest-numbered free context, at most one an
A-cycle, and none while packets of the inbox are due (R335). -/
def execTokenBind (core : Nat) (s : State) : Out :=
  needCore core <|
  let x := s.core core
  if x.stopped || x.due ≠ 0 || x.bindAt = some s.acyc then .next s
  else match x.freeCtx, x.bindClass s.acyc with
    | some k, some (p, t) =>
      let s := s.modCore core fun x =>
        { x with ready := mmod [] p (fun l => l.drop 1) x.ready, bindAt := some s.acyc }
      if (s.launch ((s.core core).dir (fpUnit t.fp)).lid).phase = .ending then .next s else .next (s.bind core k t)
    | _, _ => .next s

/-- The tokens of a class that have waited 4,096 A-cycles since they entered it (R247). -/
def duePromotions (now : Nat) (l : List Token) : List Token := l.filter fun t => t.since + 4096 ≤ now
/-- Tokens of class 0 to 2 that have waited 4,096 A-cycles go to the tail of the next class, in order of class and then of
the queue (R247). A promoted token counts as queued in the A-cycle of its promotion, so that it binds in the next at the earliest,
which R248 leaves open (log 69). -/
def Core.promote (x : Core) (now : Nat) : Core :=
  [0, 1, 2].foldl (fun x p =>
    let l := mget [] x.ready p
    let due := duePromotions now l
    { x with ready := mmod [] (p + 1) (fun n => n ++ due.map fun t => { t with since := now })
               (mput p (l.filter fun t => !(t.since + 4096 ≤ now)) x.ready) }) x
/-- TOKEN_PROMOTION (R247). The clock promotes at the start of every A-cycle as well, before any fire of it. -/
def execTokenPromotion (core : Nat) (s : State) : Out :=
  needCore core (.next (s.modCore core fun x => x.promote s.acyc))

end Sys2Proof.Machine
end

