-- ==== Sys2Proof/Machine/Requests.lean ====
section
/-! DEFINITION. Requests.lean: how a core's requests leave and complete: the refusals of R49 at the source, completion
(R151, R157, R160, R235), the enqueue buffer and its credits (R169). -/

namespace Sys2Proof.Machine

/-- The signal a completion carries: to a slot with count 1, or none (n = 0). -/
def slotSig (s : Option Nat) : Nat × Nat := match s with
  | some w => (w, 1)
  | none => (0, 0)
/-- One request of a gather or scatter has completed; the slot is signalled once, when all have (R157). -/
def State.groupDone (s : State) (c id : Nat) (fault : Bool) (p : Packet) : State :=
  match (s.core c).ni.groups.find? fun g => g.id = id with
  | none => s
  | some g =>
    let rest := (s.core c).ni.groups.filter fun g => g.id ≠ id
    if g.left ≤ 1 then
      let s := s.modNi c fun ni => { ni with groups := rest }
      match g.slot with
      | some w => s.signal c g.fp w { p with fault := g.fault || fault } g.wait
      | none => s
    else s.modNi c fun ni => { ni with groups := { g with left := g.left - 1, fault := g.fault || fault } :: rest }

/-- `own`'s result for a core (R160). -/
def ownWord (s : State) (core obase : Nat) : Word := wd ((baseOf s.pkg core).toNat + obase)
/-- What the header of an owner map gives for a coordinate (R159, R160): the brick's number and OBASE, or none: result 0. -/
def ownBrick (h : List Byte) (c : Word) : Option (Nat × Nat) :=
  let w := fun k => bytesWord (h.drop (8 * k) |>.take 8)
  let w0 := w 0
  let lx := bits w0 15 12
  let ly := bits w0 19 16
  let lz := bits w0 23 20
  let bx := bits c 15 0 / 2 ^ bits w0 3 0
  let by' := bits c 31 16 / 2 ^ bits w0 7 4
  let bz := bits c 47 32 / 2 ^ bits w0 11 8
  if bits c 63 48 ≠ 0 || bits w0 63 24 ≠ 0 || bits (w 1) 63 20 ≠ 0 || ([2, 3, 4, 5, 6, 7].any fun k => w k ≠ 0) then none
  else if 2 ^ lx ≤ bx || 2 ^ ly ≤ by' || 2 ^ lz ≤ bz then none
  else some (bz * 2 ^ (ly + lx) + by' * 2 ^ lx + bx, bits (w 1) 19 0)

/-- Carry out a completion at its requester (R151): data to the destination words, then the slot. A fatal completion
writes nothing and signals with the fault bit (R78). An element that a launch's end has overtaken is discarded, and the second
read of an `own` is not sent (R325). That read goes on under the first one's identifier, so that the request completes once
(R160, R166); one that no node can serve is refused (R49). `p` is the reply; the signal of a request refused at its source waits
as the request would have (R232): `wait`. -/
def State.complete (s : State) (c : Nat) (k : Cont) (data : Option (List Byte)) (p : Packet) (wait : List Nat := []) : State :=
  let signal := fun (s : State) (fp : Word) (slot : Option Nat) (p : Packet) => match slot with
    | some w => s.signal c fp w p wait
    | none => s
  match k with
  | .word fp w ty slot =>
    let q := slotSig slot
    match data with
    | some bs => s.frameArrive c fp q.1 q.2 (.word w (extendTy ty bs) false) p
    | none => signal s fp slot p
  | .block fp w slot =>
    let q := slotSig slot
    match data with
    | some bs => s.frameArrive c fp q.1 q.2 (.words w (bytesWords bs)) p
    | none => signal s fp slot p
  | .slot fp slot => signal s fp slot p
  | .elem g core off =>
    let s := match data with
      | some bs => if (s.core core).lids.contains p.lid && (s.core core).sid = p.sid then s.scrWrite core off (whole bs) false else s
      | none => s
    s.groupDone c g p.fault p
  | .ownHdr fp w slot m cc pm fresh =>
    let q := slotSig slot
    match data with
    | none => signal s fp slot p
    | some bs =>
      match ownBrick bs cc with
      | none => s.frameArrive c fp q.1 q.2 (.word w 0 false) p
      | some (b, ob) =>
        let a := m + wd (64 + 2 * b)
        if s.badAddr a then
          signal (s.refuse ⟨c, p.lid, p.sid, p.thr⟩ a) fp slot { p with fault := true }
        else if !((s.core c).lids.contains p.lid) then s
        else s.sendAs p.id ⟨c, p.lid, p.sid, p.thr⟩ a (slackOf (s.env c) pm.urg) (fresh, pm.urg) false none []
          (.read a 2 .data (.ownTab fp w slot (BitVec.ofNat 20 ob) false))
  | .ownTab fp w slot ob _ =>
    let q := slotSig slot
    match data with
    | none => signal s fp slot p
    | some bs =>
      let e := leNat bs
      s.frameArrive c fp q.1 q.2 (.word w (if e < 2048 then ownWord s e ob.toNat else 0) false) p
  | .spill u =>
    s.modFr c fun f => { f with spills := mmod [] u (fun l => l.filter (· ≠ p.id)) f.spills }
  | .fwd u => s.modFr c fun f => { f with fwds := mmod 0 u (· - 1) f.fwds }
  | .child lid fp slot =>
    let s := s.modNi c fun ni => { ni with children := mmod 0 lid.toNat (· - 1) ni.children }
    match slot with
    | some w => s.frameArrive c fp w 1 .none p
    | none => s
  | _ => s

/-- Hand a request to the network interface (R30): refused at once under R49, else sent, or held behind its
threadlet's fences and what else it waits for. -/
def State.hand (s : State) (o : Who) (a : Word) (urg : BitVec 4) (fresh isWrite : Bool) (red : Option Nat)
    (wait : List Nat) (k : Cont) (b : Body) : Nat × State :=
  if s.badAddr a then
    let (id, s) := s.fresh
    let p : Packet := { src := coreNode s o.core, sid := o.sid, lid := o.lid, thr := o.thr, id := id, fault := true }
    (id, ((s.refuse o a).noteCheck o.core).complete o.core k none p ((s.core o.core).ni.fenced o.thr))
  else s.send o a (slackOf (s.env o.core) urg) (fresh, urg) isWrite red (wait ++ (s.core o.core).ni.fenced o.thr) b
/-- Hand over the request of a split-phase form, which event 6 counts unless it is refused (R341). -/
def State.request (s : State) (o : Who) (a : Word) (urg : BitVec 4) (fresh isWrite : Bool) (red : Option Nat)
    (wait : List Nat) (k : Cont) (b : Body) : Nat × State :=
  (if s.badAddr a then s else s.splitSent o).hand o a urg fresh isWrite red wait k b

/-! Enqueues (R169). -/

/-- Credits a queue's counter stands at; none where it has no counter or RES is not read yet. -/
def Ni.credit (ni : Ni) (q : Word) : Nat := match ni.credits.find? fun k => k.q = q with
  | some k => k.count.getD 0
  | none => 0
/-- How many entries of a block's `enq` heads would wait in the buffer; `sent` lists the queues of those that leave. -/
def Ni.pendBuffered (ni : Ni) (sent : List Word) : List (Nat × Act) → Nat
  | [] => 0
  | (_, .enq q _ _ _ _) :: t =>
    if (sent.filter (· = q)).length < ni.credit q && !ni.enqBuf.any (fun e => e.q = q) then ni.pendBuffered (q :: sent) t
    else ni.pendBuffered sent t + 1
  | _ :: t => ni.pendBuffered sent t
/-- A refused `enq.a` completes faulted; a refused `enq` has no completion (R49, R150, R169). -/
def State.failEntry (s : State) (c : Nat) (p : Packet) : State :=
  match p.body with
  | .entry _ _ fp slot => (s.settle c p.id).complete c (.slot fp slot) none { p with fault := true }
  | _ => s
/-- First use of a queue: a counter is taken, one standing at RES freed where all 64 are in use, and RES asked for at the
urgency of the entry (R285), behind what the fences of its threadlet make the entry wait for (R165, R166). -/
def State.takeCredit (s : State) (c : Nat) (q : Word) (p : Packet) (wait : List Nat) : State :=
  let ni := (s.core c).ni
  let take := fun (cs : List Credit) =>
    (s.send ⟨c, p.lid, p.sid, p.thr⟩ q p.slack (false, 0) false none wait (.read q 64 .data (.qdesc q))).2.modNi c
      fun ni => { ni with credits := cs }
  if ni.credits.any (fun k => k.q = q) then s
  else if ni.credits.length < 64 then take (ni.credits ++ [{ q := q }])
  else match ni.credits.findIdx? fun k => k.count = some k.res with
    | some j => take (ni.credits.set j { q := q })
    | none => s
/-- Take one credit of a queue. -/
def Ni.useCredit (ni : Ni) (q : Word) : Ni :=
  { ni with credits := ni.credits.map fun k => if k.q = q then { k with count := k.count.map (· - 1) } else k }
/-- The entries at the head of the enqueue buffer leave in FIFO order while they have credits, at most fuel of them; each
goes behind what its threadlet's earlier fences wait for. -/
def State.enqDrain (s : State) (c : Nat) : Nat → State
  | 0 => s
  | n + 1 =>
    match (s.core c).ni.enqBuf with
    | [] => s
    | e :: rest =>
      if 0 < (s.core c).ni.credit e.q then
        ((s.modNi c fun ni => { ni.useCredit e.q with enqBuf := rest }).sendOrHold c e.pkt e.wait).enqDrain c n
      else s.takeCredit c e.q e.pkt e.wait
/-- An entry leaves at once with a credit, or waits in the buffer (R169); entries of one queue keep their order. An `enq.a`
is a request until its slot is signalled (R151, R166). A queue that no node can hold is refused (R49). -/
def State.enqueue (s : State) (o : Who) (q : Word) (ws : List Word) (p : PktMod) (fp : Word) (slot : Option Nat) (fresh : Bool) : State :=
  let (id, s) := s.fresh
  let l := s.env o.core
  let pkt := (mkPkt (coreNode s o.core) (addrNode l q) o.sid o.lid o.thr id (slackOf l p.urg) (.entry q ws fp slot)).withFresh l
    fresh p.urg
  if s.badAddr q then (s.refuse o q).failEntry o.core pkt
  else
    let s := s.splitSent o
    let ni := (s.core o.core).ni
    let wait := ni.fenced o.thr
    let s := if slot.isSome then s.modNi o.core fun ni => { ni with outs := ni.outs ++
        [{ id := id, thr := o.thr, lid := o.lid, addr := q, isWrite := false, slice := if onChip q then none else some (sliceOf l q) }] }
      else s
    if 0 < ni.credit q && !ni.enqBuf.any (fun e => e.q = q) then
      (s.modNi o.core fun ni => ni.useCredit q).sendOrHold o.core pkt wait
    else ((s.takeCredit o.core q pkt wait).modNi o.core fun ni => { ni with enqBuf := ni.enqBuf ++ [⟨q, pkt, wait⟩] }).enqDrain o.core 17

end Sys2Proof.Machine
end

