-- ==== Sys2Proof/Machine/Rings.lean ====
section
/-! DEFINITION. Rings.lean: stage rings and their tags (R91-R94), queues in scratch and their descriptors (R168), which the
compute side, the loader and storer cores and the copy engine share. -/

namespace Sys2Proof.Machine

/-- A ring descriptor (R91). -/
structure Ring where
  outbound : Bool
  base : Nat
  nslot : Nat
  slen : Nat
  nfp : Word
  nurg : BitVec 4
  nscope : Nat
  nword : Nat
  zero : Bool
  deriving DecidableEq, Repr

/-- Read a ring descriptor; the argument reads word n of it. -/
def ringOf (g : Nat → Word) : Ring :=
  { outbound := bitOf (g 0) 63, base := bits (g 0) 19 0, nslot := bits (g 1) 39 32, slen := bits (g 1) 20 0, nfp := g 2,
    nurg := (g 3).extractLsb' 12 4, nscope := bits (g 3) 11 9, nword := bits (g 3) 8 0,
    zero := bits (g 0) 62 20 = 0 && bits (g 1) 63 40 = 0 && bits (g 1) 31 21 = 0 && bits (g 3) 63 16 = 0 }
/-- The descriptor is well formed (R91) and stands at a multiple of 32 inside scratch; an NSCOPE of 6 or 7 is malformed too
(log 60). -/
def Ring.ok (r : Ring) (off : Nat) : Bool :=
  off % 32 = 0 && off + 96 ≤ 0x100000 && r.zero && r.base % 64 = 0 && 64 ≤ r.slen && r.slen ≤ 0x100000 && r.slen % 64 = 0 &&
    r.nscope ≤ 5 && r.base + (r.nslot + 1) * r.slen ≤ 0x100000
/-- Where the tag of a slot lies: the byte's scratch offset and the shift within it (R91). -/
def tagPlace (off slot : Nat) : Nat × Nat := (off + 32 + slot / 4, 2 * (slot % 4))
/-- The reads of a ring's descriptor and of a slot's tag are accesses to the frames they lie in (R120). -/
def State.touchRing (s : State) (c off slot : Nat) : State := (s.touchAt c off 32).touchAt c (tagPlace off slot).1 1
/-- A slot's tag in a byte: 0 EMPTY, 1 FILLING, 2 FULL, 3 DRAINING. -/
def tagIn (b : Byte) (sh : Nat) : Nat := (b.toNat / 2 ^ sh) % 4
def setTagIn (b : Byte) (sh t : Nat) : Byte := BitVec.ofNat 8 (b.toNat - tagIn b sh * 2 ^ sh + t * 2 ^ sh)
def State.ring (s : State) (c off : Nat) : Ring := ringOf fun n => (s.core c).scrWord (off + 8 * n)
def State.slotTag (s : State) (c off slot : Nat) : Nat :=
  tagIn (mget 0 (s.core c).scr (tagPlace off slot).1) (tagPlace off slot).2
/-- Is a count that of a ring slot? -/
def SlotCnt.isOf (e : SlotCnt) (r : Nat × Nat) : Bool := e.rdesc = r.1 && e.slot = r.2
/-- A transition of a stage tag at the bank (R94). A count that the slot has is freed: the engine's transition frees it, and
another begins at zero when the slot is named after entering FILLING or DRAINING (R93). The wait map looks at the rings that
have had a transition (R105, R337). -/
def State.setSlotTag (s : State) (c off slot t : Nat) : State :=
  let p := tagPlace off slot
  (s.scrWrite c p.1 [some (setTagIn (mget 0 (s.core c).scr p.1) p.2 t)] false).modCore c fun x =>
    { x with rings := if x.rings.contains off then x.rings else x.rings ++ [off],
             slotCnts := x.slotCnts.filter fun q => !q.2.isOf (off, slot) }
/-- The tag in which the engine fills or drains a slot (R92): FILLING inbound, DRAINING outbound. -/
def Ring.engTag (r : Ring) : Nat := if r.outbound then 3 else 1
/-- The tags a claim or a free needs and leaves (R172). -/
def stageStep (claim outbound : Bool) : Nat × Nat :=
  match claim, outbound with
  | true, false => (2, 3)
  | true, true => (0, 1)
  | false, false => (3, 0)
  | false, true => (1, 2)

/-- A queue descriptor (R168), read as `ringOf` reads. -/
structure QDesc where
  valid : Bool
  esz : Nat
  n : Nat
  base : Nat
  head : Nat
  tail : Nat
  res : Nat
  nfp : Word
  nurg : BitVec 4
  nscope : Nat
  nword : Nat
  deriving DecidableEq, Repr
def queueOf (g : Nat → Word) : QDesc :=
  { valid := bitOf (g 0) 63, esz := bits (g 0) 59 58, n := 2 ^ bits (g 0) 35 32, base := bits (g 0) 19 0,
    head := bits (g 1) 63 48, tail := bits (g 1) 47 32, res := bits (g 1) 31 16, nfp := g 2,
    nurg := (g 3).extractLsb' 12 4, nscope := bits (g 3) 11 9, nword := bits (g 3) 8 0 }
/-- Where entry i and its sender word lie (R168). -/
def QDesc.entry (q : QDesc) (i : Nat) : Nat := q.base + (i % q.n) * (8 * 2 ^ q.esz)
def QDesc.sender (q : QDesc) (i : Nat) : Nat := q.base + q.n * (8 * 2 ^ q.esz) + 4 * (i % q.n)
/-- TAIL − HEAD, modulo 65,536. -/
def QDesc.used (q : QDesc) : Nat := (q.tail + 65536 - q.head) % 65536
def State.queue (s : State) (c off : Nat) : QDesc := queueOf fun n => (s.core c).scrWord (off + 8 * n)

end Sys2Proof.Machine
end

