-- ==== Sys2Proof/Machine/Flags.lean ====
section
/-! DEFINITION. Flags.lean: the sticky flags of `cf` (R35): their bits, and how an instruction's flags are ORed into the
working copy (R175). -/

namespace Sys2Proof.Machine

abbrev CfFlags := BitVec 7
def fNV : CfFlags := 1
def fDZ : CfFlags := 2
def fOF : CfFlags := 4
def fUF : CfFlags := 8
def fNX : CfFlags := 16
def fLOV : CfFlags := 32
def fSAT : CfFlags := 64
/-- A flag where a condition holds. -/
def flagIf (c : Bool) (f : CfFlags) : CfFlags := if c then f else 0
/-- A result with flags, written to a scalar register (R175). -/
def Regs.wxf (r : Regs) (d : XReg) (v : Nat × CfFlags) : Regs := (r.wx d (wd v.1)).setFlags v.2
/-- Lanes with flags: the flags are the OR of those of the enabled lanes (R175). -/
def lanesF (wide : Bool) (m : Half) (old : Line64) (f : Nat → Nat × CfFlags) : Line64 × CfFlags :=
  (mapLanes wide m old fun i => (f i).1,
   ((List.range (laneCount wide)).filter fun i => laneOn m wide i).foldl (fun a i => a ||| (f i).2) 0)
def Regs.wvf (r : Regs) (d : VReg) (v : Line64 × CfFlags) : Regs := (r.wv d v.1).setFlags v.2

end Sys2Proof.Machine
end

