-- ==== Sys2Proof/Machine/Fp.lean ====
section
/-! DEFINITION. Fp.lean: IEEE 754-2019 arithmetic as R184 to R189 and R200 decide it: operands are exact numbers
m × 2^e, every operation is exact, and one function rounds. -/

namespace Sys2Proof.Machine

/-- A binary format: significand bits with the hidden one, and exponent bits. -/
structure FpFmt where
  p : Nat
  w : Nat
  deriving DecidableEq, Repr

def fmtF64 : FpFmt := ⟨53, 11⟩
def fmtF32 : FpFmt := ⟨24, 8⟩
def fmtBf16 : FpFmt := ⟨8, 8⟩
def fmtF16 : FpFmt := ⟨11, 5⟩
def FpFmt.bias (f : FpFmt) : Nat := 2 ^ (f.w - 1) - 1
/-- The exponent of the last place of a subnormal. -/
def FpFmt.qmin (f : FpFmt) : Int := 2 - (f.bias : Int) - f.p
def FpFmt.infBits (f : FpFmt) : Nat := (2 ^ f.w - 1) * 2 ^ (f.p - 1)
def FpFmt.signBit (f : FpFmt) : Nat := 2 ^ (f.w + f.p - 1)
/-- The canonical quiet NaN (R184). -/
def FpFmt.qnan (f : FpFmt) : Nat := f.infBits + 2 ^ (f.p - 2)
def FpFmt.inf (f : FpFmt) (neg : Bool) : Nat := f.infBits + b2n neg * f.signBit
def FpFmt.zero (f : FpFmt) (neg : Bool) : Nat := b2n neg * f.signBit
def fmtOf : FTy → FpFmt
  | .f64 => fmtF64 | .f32 => fmtF32

/-- What a bit pattern denotes: a NaN, an infinity, or (−1)^neg × m × 2^e. -/
inductive FVal where
  | nan (sig : Bool)
  | inf (neg : Bool)
  | fin (neg : Bool) (m : Nat) (e : Int)
  deriving DecidableEq, Repr

def FpFmt.val (f : FpFmt) (b : Nat) : FVal :=
  let neg := b.testBit (f.w + f.p - 1)
  let ex := (b / 2 ^ (f.p - 1)) % 2 ^ f.w
  let fr := b % 2 ^ (f.p - 1)
  if ex = 2 ^ f.w - 1 then if fr = 0 then .inf neg else .nan (!fr.testBit (f.p - 2))
  else if ex = 0 then .fin neg fr f.qmin
  else .fin neg (fr + 2 ^ (f.p - 1)) (f.qmin + (ex - 1 : Nat))
def FVal.isNan : FVal → Bool
  | .nan _ => true
  | _ => false
def FVal.isSnan : FVal → Bool
  | .nan s => s
  | _ => false
def FVal.neg : FVal → Bool
  | .nan _ => false | .inf n => n | .fin n _ _ => n

/-- Number of bits of a number. -/
def bitLen (m : Nat) : Nat := if m = 0 then 0 else Nat.log2 m + 1
/-- Does a discarded part raise the kept magnitude (R25)? rem of 2^sh, with a sticky bit below. -/
def roundsUp (rm : Rm) (neg : Bool) (kept rem sh : Nat) (sticky : Bool) : Bool :=
  let half := 2 ^ sh / 2
  let some_ := rem ≠ 0 || sticky
  match rm with
  | .rne => sh ≠ 0 && (half < rem || (rem = half && (sticky || kept % 2 = 1)))
  | .rna => sh ≠ 0 && half ≤ rem
  | .rtz => false
  | .rup => !neg && some_
  | .rdn => neg && some_
/-- Round m × 2^e (or a value strictly between it and (m + 1) × 2^e when sticky) to a last place of exponent q. -/
def roundTo (rm : Rm) (neg : Bool) (m : Nat) (e : Int) (sticky : Bool) (q : Int) : Nat × Bool :=
  if q ≤ e then (m * 2 ^ (e - q).toNat, sticky)
  else
    let sh := (q - e).toNat
    let kept := m / 2 ^ sh
    let rem := m % 2 ^ sh
    (kept + b2n (roundsUp rm neg kept rem sh sticky), rem ≠ 0 || sticky)
/-- The one rounding of R184: overflow by the mode, tininess after rounding, subnormals kept. -/
def FpFmt.round (f : FpFmt) (rm : Rm) (neg : Bool) (m : Nat) (e : Int) (sticky : Bool) : Nat × CfFlags :=
  if m = 0 && !sticky then (f.zero neg, 0)
  else
    let q0 := e + bitLen m - f.p
    let q := max q0 f.qmin
    let r := roundTo rm neg m e sticky q
    let bits := (q - f.qmin).toNat * 2 ^ (f.p - 1) + r.1
    if f.infBits ≤ bits then
      let toInf := match rm with
        | .rne | .rna => true | .rtz => false | .rup => !neg | .rdn => neg
      (if toInf then f.inf neg else f.zero neg + f.infBits - 1, fOF ||| fNX)
    else
      let u := roundTo rm neg m e sticky q0
      let tiny := q0 < f.qmin && bitLen u.1 + q0 < f.qmin + f.p
      (f.zero neg + bits, flagIf r.2 fNX ||| flagIf (tiny && r.2) fUF)

/-- The integer square root, from bit n down. -/
def isqrtFrom : Nat → Nat → Nat → Nat
  | 0, _, r => r
  | n + 1, m, r => let t := r + 2 ^ n; isqrtFrom n m (if t * t ≤ m then t else r)
def isqrt (m : Nat) : Nat := isqrtFrom (bitLen m / 2 + 1) m 0

/-- NaN operands: the canonical NaN, NV where one signals. -/
def FpFmt.nanOf (f : FpFmt) (sig : Bool) : Nat × CfFlags := (f.qnan, flagIf sig fNV)
def FpFmt.invalid (f : FpFmt) : Nat × CfFlags := (f.qnan, fNV)
/-- The sum of two signed finite numbers, exact: sign, magnitude and exponent. -/
def addExact (n1 : Bool) (m1 : Nat) (e1 : Int) (n2 : Bool) (m2 : Nat) (e2 : Int) : Int × Int :=
  let e := min e1 e2
  let a : Int := m1 * 2 ^ (e1 - e).toNat
  let b : Int := m2 * 2 ^ (e2 - e).toNat
  ((if n1 then -a else a) + (if n2 then -b else b), e)
/-- Round a signed exact sum; an exact zero has the sign R184's standard gives it. -/
def FpFmt.roundSum (f : FpFmt) (rm : Rm) (s : Int × Int) (bothNeg bothPos : Bool) : Nat × CfFlags :=
  if s.1 = 0 then (f.zero (bothNeg || (rm = .rdn && !bothPos)), 0)
  else f.round rm (s.1 < 0) s.1.natAbs s.2 false
def FpFmt.add (f : FpFmt) (rm : Rm) (a b : Nat) : Nat × CfFlags :=
  match f.val a, f.val b with
  | .nan s, y => f.nanOf (s || y.isSnan)
  | _, .nan s => f.nanOf s
  | .inf n, .inf m => if n = m then (f.inf n, 0) else f.invalid
  | .inf n, _ => (f.inf n, 0)
  | _, .inf n => (f.inf n, 0)
  | .fin n1 m1 e1, .fin n2 m2 e2 => f.roundSum rm (addExact n1 m1 e1 n2 m2 e2) (n1 && n2) (!n1 && !n2)
/-- The pattern with its sign inverted. -/
def FpFmt.flip (f : FpFmt) (a : Nat) : Nat := a ^^^ f.signBit
/-- a − b: b's sign inverted, a NaN left as it is. -/
def FpFmt.sub (f : FpFmt) (rm : Rm) (a b : Nat) : Nat × CfFlags := f.add rm a (if (f.val b).isNan then b else f.flip b)
def FpFmt.mul (f : FpFmt) (rm : Rm) (a b : Nat) : Nat × CfFlags :=
  match f.val a, f.val b with
  | .nan s, y => f.nanOf (s || y.isSnan)
  | _, .nan s => f.nanOf s
  | .inf n, .inf m => (f.inf (n != m), 0)
  | .inf n, .fin k m _ => if m = 0 then f.invalid else (f.inf (n != k), 0)
  | .fin k m _, .inf n => if m = 0 then f.invalid else (f.inf (n != k), 0)
  | .fin n1 m1 e1, .fin n2 m2 e2 => f.round rm (n1 != n2) (m1 * m2) (e1 + e2) false
def FpFmt.div (f : FpFmt) (rm : Rm) (a b : Nat) : Nat × CfFlags :=
  match f.val a, f.val b with
  | .nan s, y => f.nanOf (s || y.isSnan)
  | _, .nan s => f.nanOf s
  | .inf _, .inf _ => f.invalid
  | .inf n, .fin k _ _ => (f.inf (n != k), 0)
  | .fin k _ _, .inf n => (f.zero (n != k), 0)
  | .fin n1 m1 e1, .fin n2 m2 e2 =>
    if m2 = 0 then if m1 = 0 then f.invalid else (f.inf (n1 != n2), fDZ)
    else
      let k := f.p + 3 + bitLen m2
      f.round rm (n1 != n2) (m1 * 2 ^ k / m2) (e1 - e2 - k) (m1 * 2 ^ k % m2 ≠ 0)
/-- The square root of m × 2^e as a rounded magnitude. -/
def FpFmt.sqrtFin (f : FpFmt) (rm : Rm) (m : Nat) (e : Int) : Nat × CfFlags :=
  let k := 2 * (f.p + 3) + (e % 2).toNat
  let n := m * 2 ^ k
  let r := isqrt n
  f.round rm false r ((e - k) / 2) (r * r ≠ n)
def FpFmt.sqrt (f : FpFmt) (rm : Rm) (a : Nat) : Nat × CfFlags :=
  match f.val a with
  | .nan s => f.nanOf s
  | .inf n => if n then f.invalid else (f.inf false, 0)
  | .fin n m e => if m = 0 then (f.zero n, 0) else if n then f.invalid else f.sqrtFin rm m e
/-- a × b + c with one rounding (R185). -/
def FpFmt.fma (f : FpFmt) (rm : Rm) (a b c : Nat) : Nat × CfFlags :=
  let x := f.val a
  let y := f.val b
  let z := f.val c
  let infZero : Bool := match x, y with
    | .inf _, .fin _ m _ => m = 0
    | .fin _ m _, .inf _ => m = 0
    | _, _ => false
  if infZero then f.invalid
  else if x.isNan || y.isNan || z.isNan then f.nanOf (x.isSnan || y.isSnan || z.isSnan)
  else
    let pn := x.neg != y.neg
    match x, y, z with
    | .fin _ m1 e1, .fin _ m2 e2, .fin n3 m3 e3 =>
      f.roundSum rm (addExact pn (m1 * m2) (e1 + e2) n3 m3 e3) (pn && n3) (!pn && !n3)
    | .fin _ _ _, .fin _ _ _, .inf n3 => (f.inf n3, 0)
    | _, _, .inf n3 => if n3 = pn then (f.inf pn, 0) else f.invalid
    | _, _, _ => (f.inf pn, 0)

/-- Order of two numbers that are no NaN, −0 below +0 where `zeros` is set. -/
def FpFmt.less (f : FpFmt) (zeros : Bool) (a b : Nat) : Bool :=
  let mag := fun n => n % f.signBit
  let na := decide (f.signBit ≤ a)
  let nb := decide (f.signBit ≤ b)
  if mag a = 0 && mag b = 0 then zeros && na && !nb
  else match na, nb with
    | true, false => true
    | false, true => false
    | false, false => mag a < mag b
    | true, true => mag b < mag a
/-- minimum and maximum (R186): NV only for a signalling NaN. -/
def FpFmt.minmax (f : FpFmt) (max : Bool) (a b : Nat) : Nat × CfFlags :=
  let x := f.val a
  let y := f.val b
  if x.isNan || y.isNan then f.nanOf (x.isSnan || y.isSnan)
  else (if f.less true b a != max then b else a, 0)
/-- The comparisons of R187. -/
def FpFmt.cmp (f : FpFmt) (c : FCond) (a b : Nat) : Bool × CfFlags :=
  let x := f.val a
  let y := f.val b
  let un := x.isNan || y.isNan
  let sig := x.isSnan || y.isSnan
  let eq := !un && !f.less false a b && !f.less false b a
  match c with
  | .eq => (eq, flagIf sig fNV)
  | .ne => (!eq, flagIf sig fNV)
  | .un => (un, flagIf sig fNV)
  | .lt => (!un && f.less false a b, flagIf un fNV)
  | .le => (!un && !f.less false b a, flagIf un fNV)
/-- The class mask of R188. -/
def FpFmt.classify (f : FpFmt) (a : Nat) : Nat :=
  match f.val a with
  | .nan true => 2 ^ 8
  | .nan false => 2 ^ 9
  | .inf n => if n then 1 else 2 ^ 7
  | .fin n m _ =>
    if m = 0 then if n then 2 ^ 3 else 2 ^ 4
    else if m < 2 ^ (f.p - 1) then if n then 2 ^ 2 else 2 ^ 5
    else if n then 2 else 2 ^ 6
def FpFmt.sgnj (f : FpFmt) (v : SgnVar) (a b : Nat) : Nat :=
  let sa := decide (f.signBit ≤ a)
  let sb := decide (f.signBit ≤ b)
  let n := match v with
    | .sgnj => sb | .sgnjn => !sb | .sgnjx => sa != sb
  a % f.signBit + b2n n * f.signBit

/-! Conversions (R189, R199). -/

def intBits : Ty → Nat
  | .s8 | .z8 => 8
  | .s16 | .z16 => 16
  | .s32 | .z32 => 32
  | _ => 64
/-- The range of an integer type. -/
def intLo (t : Ty) : Int := if Ty.signed t then -(2 ^ (intBits t - 1) : Int) else 0
def intHi (t : Ty) : Int := if Ty.signed t then 2 ^ (intBits t - 1) - 1 else 2 ^ intBits t - 1
/-- A value of an integer type as an integer. -/
def intVal (t : Ty) (n : Nat) : Int :=
  let v := n % 2 ^ intBits t
  if Ty.signed t && v.testBit (intBits t - 1) then (v : Int) - 2 ^ intBits t else v
/-- A value extended into 64 bits by its type. -/
def extInt (v : Int) : Nat := (v % 2 ^ 64).toNat
def toInt (f : FpFmt) (rm : Rm) (t : Ty) (a : Nat) : Int × CfFlags :=
  match f.val a with
  | .nan _ => (0, fNV)
  | .inf n => (if n then intLo t else intHi t, fNV ||| fSAT)
  | .fin n m e =>
    let r : Nat × Bool := if 0 ≤ e then (m * 2 ^ e.toNat, false) else roundTo rm n m e false 0
    let v : Int := if n then -(r.1 : Int) else r.1
    if v < intLo t then (intLo t, fNV ||| fSAT)
    else if intHi t < v then (intHi t, fNV ||| fSAT)
    else (v, flagIf r.2 fNX)
def ofInt (f : FpFmt) (rm : Rm) (v : Int) : Nat × CfFlags :=
  if v = 0 then (0, 0) else f.round rm (v < 0) v.natAbs 0 false
def fpToFp (f g : FpFmt) (rm : Rm) (a : Nat) : Nat × CfFlags :=
  match f.val a with
  | .nan s => g.nanOf s
  | .inf n => (g.inf n, 0)
  | .fin n m e => if m = 0 then (g.zero n, 0) else g.round rm n m e false
def fpTy : Ty → Option FpFmt
  | .f64 => some fmtF64
  | .f32 => some fmtF32
  | _ => none
/-- Conversion between two types as `fcvt` makes it; integer results are extended to 64 bits (R189). -/
def convert (dt st : Ty) (rm : Rm) (a : Nat) : Nat × CfFlags :=
  match fpTy dt, fpTy st with
  | some g, some f => fpToFp f g rm (a % 2 ^ (f.w + f.p))
  | some g, none => ofInt g rm (intVal st a)
  | none, some f => let r := toInt f rm dt (a % 2 ^ (f.w + f.p)); (extInt r.1, r.2)
  | none, none => (extInt (intVal dt a), 0)

/-! Elementary functions (R200). -/

/-- ln 2 × 2^p rounded down, from 2 × artanh(1/3). -/
def ln2Fix (p : Nat) : Nat :=
  ((List.range (p / 3 + 2)).map fun k => 2 * 2 ^ (p + 16) / ((2 * k + 1) * 3 ^ (2 * k + 1))).sum / 2 ^ 16
/-- Terms of e^t from term k on, t and the term fixed-point with p bits. -/
def expTerms (p t : Nat) : Nat → Nat → Nat → Nat
  | 0, _, _ => 0
  | n + 1, k, term => term + expTerms p t n (k + 1) (term * t / 2 ^ p / (k + 1))
/-- 2^x for x = n / 2^b in [0, 1), with p fixed-point bits (log 15 says to what precision). -/
def exp2Frac (p n b : Nat) : Nat := expTerms p (n * ln2Fix p / 2 ^ b) 90 0 (2 ^ p)
def exp2Fp (f : FpFmt) (rm : Rm) (a : Nat) : Nat × CfFlags :=
  match f.val a with
  | .nan s => f.nanOf s
  | .inf n => (if n then f.zero false else f.inf false, 0)
  | .fin n m e =>
    if m = 0 then ofInt f rm 1
    else if bitLen m + e > 12 then
      if n then f.round rm false 1 (-5000) true else f.round rm false 1 5000 true
    else
      let b := (-e).toNat
      let v : Int := (if n then -(m : Int) else m) * 2 ^ e.toNat
      let i := v / 2 ^ b
      let fr := (v % 2 ^ b).toNat
      if fr = 0 then f.round rm false 1 i false
      else f.round rm false (exp2Frac 360 fr b) (i - 360) true
def rsqrtFp (f : FpFmt) (rm : Rm) (a : Nat) : Nat × CfFlags :=
  match f.val a with
  | .nan s => f.nanOf s
  | .inf n => if n then f.invalid else (f.zero false, 0)
  | .fin n m e =>
    if m = 0 then (f.inf n, fDZ)
    else if n then f.invalid
    else
      let odd := (e % 2).toNat
      let k := 2 * f.p + 8
      let mm := m * 2 ^ odd
      let r := isqrt (2 ^ (2 * k) / mm)
      f.round rm false r (-((e - odd) / 2) - k) (r * r * mm ≠ 2 ^ (2 * k))

end Sys2Proof.Machine
end

