-- ==== Sys2Proof/Machine/Serve.lean ====
section
/-! DEFINITION. Serve.lean: what banks and slices share when they serve a request (R49, R78, R162-R164): the values of
atomics and reductions, the records and the fatal completion of a request, and the payload a packet carries (log 13). -/

namespace Sys2Proof.Machine

/-- The new memory value of an atomic (R162); none where memory is unchanged. -/
def amoNew (op : AmoOp) (ty : Ty) (old v c : Nat) : Option Nat :=
  match op with
  | .add => some ((old + v) % 256 ^ Ty.width ty)
  | .and => some (old &&& v)
  | .or => some (old ||| v)
  | .xor => some (old ^^^ v)
  | .min => some (if intVal ty v < intVal ty old then v else old)
  | .max => some (if intVal ty old < intVal ty v then v else old)
  | .swap => some v
  | .cas => if old = c then some v else none
/-- The result of a reduction (R163): no flag is set anywhere. -/
def redNew (op : RedOp) (ty : Ty) (old v : Nat) : Nat :=
  match fpTy ty with
  | some f =>
    match op with
    | .sum => (f.add .rne old v).1
    | .min => (f.minmax false old v).1
    | .max => (f.minmax true old v).1
  | none =>
    match op with
    | .sum => (old + v) % 2 ^ 64
    | .min => if intVal ty v < intVal ty old then v else old
    | .max => if intVal ty old < intVal ty v then v else old
/-- An operand truncated to its type's width. -/
def truncTy (ty : Ty) (v : Word) : Nat := v.toNat % 256 ^ Ty.width ty

/-- What the reply to a request is for. -/
def bodyCont : Body → Cont
  | .read _ _ _ k | .write _ _ k | .amo _ _ _ _ _ k | .csnap _ k | .red _ _ _ _ _ k | .fe _ _ _ k => k
  | .data _ k | .ack k _ => k
  | .entry _ _ fp slot => .slot fp slot
  | .fwd _ _ _ _ _ _ u => .fwd u
  | _ => .none
/-- The data of a signal as frame words: index, value and P (R113, R267). -/
def sigWords : SigData → List (Nat × Word × Bool)
  | .none => []
  | .word k v m => [(k, v, m)]
  | .vec k v => numbered k (bytesWords (lineBytes v))
  | .words k vs => numbered k vs
/-- The data of a packet, which follows its address. -/
def bodyData (b : Body) : List Byte :=
  let ws := fun (l : List Word) => (l.map wordBytes).flatten
  match b with
    | .write _ bs _ => bs.map fun x => x.getD 0
    | .amo _ _ _ v c _ => ws [v, c]
    | .red _ _ _ v _ _ | .fe _ _ v _ => wordBytes v
    | .sig _ w n d | .fwd _ w n d _ _ _ => ws (wd (w * 256 + n) :: (sigWords d).map fun p => p.2.1)
    | .amsg _ args p e fr | .spawn args _ p e fr => ws (wd (p * 2 ^ 32 + e.toNat) :: fr :: args)
    | .entry _ l _ _ => ws l
    | .data bs _ => bs
    | .task t | .stealRep _ _ t => (t.map fun t => ws (wd (t.entry.toNat * 2 ^ 32 + t.sid.toNat * 2 ^ 16) :: wd (t.lid.toNat * 2 ^ 32) :: t.args)).flatten
    | _ => []
/-- The payload of a packet: the address first, then its data around the launch id, which lies at bytes 44 to 47 of the first
flit, 28 bytes into the payload (R317, log 13). -/
def payload (p : Packet) : List Byte :=
  let d := bodyData p.body
  wordBytes (bodyAddr p.body) ++ (d ++ List.replicate 20 0).take 16 ++ natLe 4 0 ++
    (if p.vc = .sys then natLe 4 0 else natLe 4 p.lid.toNat) ++ d.drop 16

/-- A record with the header of the request concerned and its first payload word (R327). -/
def FRec.withHdr (r : FRec) (p : Packet) : FRec := { r with w5 := hdrW0 p, w6 := hdrW1 p, w7 := bodyAddr p.body }
/-- The fault record of a request at the agent that serves it (R327): a slice fault holds its header, a parked one its ticket
too. -/
def State.reqRecord (s : State) (kind : Nat) (p : Packet) (ticket : Option Nat) : State :=
  let r := mkRec kind 0 p.sid p.lid p.dst (bodyAddr p.body) 0
  let r := { r with w1 := r.w1 ||| wd (ticket.getD 0 * 2 ^ 12 + b2n (s.orphan p) * 2 + b2n ticket.isSome) }
  s.record (if kind = 8 then r else r.withHdr p)
/-- A request completes fatal (R78): no data, the fault bit, and its launch ends faulted, which for another package's it does
there (`State.fatalReply`); for a read of the distributor it is the reply that makes the descriptor malformed (R252). -/
def State.fatal (s : State) (p : Packet) : State :=
  let s := s.reply p (.ack (bodyCont p.body) none) true
  if p.src.port = 2 || p.src.pkg ≠ s.pkg then s else s.failLaunch p.lid
/-- ADDRESS_REFUSAL (R49): recorded, and fatal at once. -/
def State.addressRefusal (s : State) (p : Packet) : State := (s.reqRecord 8 p none).fatal p

/-- Insert before the first element that is not below it. -/
def insertBy {α : Type} (le : α → α → Bool) (a : α) : List α → List α
  | [] => [a]
  | b :: t => if le a b then a :: b :: t else b :: insertBy le a t
/-- Sort a list, keeping the order of equal elements. -/
def sortBy {α : Type} (le : α → α → Bool) : List α → List α
  | [] => []
  | a :: t => insertBy le a (sortBy le t)

/-- The code of a party (R346). -/
def Party.code : Party → Nat
  | .port0 => 0
  | .port1 => 1
  | .bmc => 2
/-- Is a party the owner (R346)? -/
def State.isOwner (s : State) (p : Party) : Bool := bitOf s.io.own 63 && bits s.io.own 62 61 = Party.code p
/-- The status of a host access. -/
def State.status (s : State) (err : Bool) : State := s.modHost fun h => { h with error := err, busy := false }
/-- Busy status (R301). -/
def State.statusBusy (s : State) : State := s.modHost fun h => { h with error := false, busy := true }
/-- A flit of the owner arrives at a port; the management interface of the BMC has none (R347). -/
def State.heard (s : State) (p : Party) : State :=
  if s.isOwner p && p ≠ .bmc then s.modIo fun io => { io with lastFlit := s.acyc } else s
/-- A write that only the owner may make (R348): any other is ignored and completes with error status. -/
def State.ownerWrite (s : State) (p : Party) (k : State → State) : State :=
  if s.isOwner p then k ((s.heard p).status false) else s.status true

end Sys2Proof.Machine
end

