-- ==== Sys2Proof/Machine/Slice.lean ====
section
/-! DEFINITION. Slice.lean: an L2 slice: translation (R65-R74), parking (R75-R79), lines, merge windows and write-backs
(R57-R59), reduction cells and folds (R61-R63), signals forwarded to spill records (R123), and its registers. -/

namespace Sys2Proof.Machine

def needSlice (n : Nat) (k : Out) : Out := if n < 128 then k else .fault .noSuchAgent

/-! Translation. -/

/-- A companion word breaks R70. -/
def compBad (leaf : Bool) (c : Word) : Bool :=
  if !leaf || !bitOf c 63 then c ≠ 0
  else bits c 62 17 ≠ 0 || 5 < bits c 16 14 || 6 < bits c 13 11 || bits c 10 6 % 2 ^ bits c 16 14 ≠ 0 ||
    bits c 5 0 % 2 ^ bits c 13 11 ≠ 0
/-- A valid entry at a level breaks R69 or R70. -/
def entryBad (level : Nat) (e c : Word) : Bool :=
  let leaf := bitOf e 62
  let ppn := bits e 29 0
  bits e 54 30 ≠ 0 || (leaf && level = 3) || (!leaf && level = 0) ||
    (leaf && level = 1 && ppn % 2 ^ 9 ≠ 0) || (leaf && level = 2 && ppn % 2 ^ 18 ≠ 0) ||
    ((!leaf || !bitOf e 58) && 2 ^ 28 ≤ ppn) || (!leaf && (ppn % 2 = 1 || bits e 61 55 ≠ 0)) || compBad leaf c
/-- Walk the tables from one at a level and a physical base (R68): level, leaf and companion word, or the fault kind. -/
def walk (s : State) (off : Nat) : Nat → Nat → Except Nat (Nat × Word × Word)
  | level, base =>
    let idx := (off / 2 ^ (12 + 9 * level)) % (if level = 3 then 64 else 512)
    let e := s.pword (base + 8 * idx)
    let c := s.pword (base + 4096 + 8 * idx)
    if !bitOf e 63 then .error 2
    else if entryBad level e c then .error 3
    else if bitOf e 62 then .ok (level, e, c)
    else match level with
      | 0 => .error 3
      | l + 1 => walk s off l (4096 * bits e 29 0)
def pageSize (level : Nat) : Nat := 2 ^ (12 + 9 * level)
/-- The leaf a slice finds for an offset (R71): SPACE, the walk's faults, or an entry, from the STC where one matches. The walk
begins at 4,096 × ROOT as the directory has it: R67 asks of ROOT to be even and in the first tier and names no fault (log 58). -/
def State.leafFor (s : State) (n : Nat) (sid : Half) (off : Nat) : Except Nat StcEnt :=
  let d := s.pword (bits (s.slice n).sdir 42 20 * 2 ^ 20 + 8 * sid.toNat)
  if !bitOf d 63 then .error 1
  else match (s.slice n).stc.find? fun e => e.sid = sid && e.page = off / pageSize e.level with
    | some e => .ok e
    | none => (walk s off 3 (4096 * bits d 29 0)).map fun r => ⟨sid, r.1, off / pageSize r.1, r.2.1, r.2.2⟩
/-- The STC keeps a leaf that is not migrating (R72); which entry a full cache gives up is not architectural. -/
def State.keepStc (s : State) (n : Nat) (e : StcEnt) : State :=
  let c := (s.slice n).stc
  if bitOf e.leaf 55 || c.contains e then s
  else if c.length < 2048 then s.modSlice n fun x => { x with stc := x.stc ++ [e] }
  else
    let (f, s) := s.freeVal
    s.modSlice n fun x => { x with stc := x.stc.set (f.toNat % 2048) e }
/-- The restriction of a companion word admits the source (R70). -/
def State.admits (s : State) (c : Word) (src : Node) : Bool :=
  let x := cxOf src.core.toNat
  let y := cyOf src.core.toNat
  !bitOf c 63 || (src.pkg = s.pkg && bits c 5 0 ≤ x && x < bits c 5 0 + 2 ^ bits c 13 11 && bits c 10 6 ≤ y &&
    y < bits c 10 6 + 2 ^ bits c 16 14)
/-- The leaf bits a request needs (R71): RD 61, WR 60, EX 59. R71's table has no row for the entry of an `enq` sent to a virtual
address: the model asks WR of it, before R170 refuses it (log 23). -/
def rightsOf : Body → List Nat
  | .read _ _ .fetch _ => [59]
  | .read _ _ .data _ => [61]
  | .write _ _ _ | .entry _ _ _ _ => [60]
  | _ => [61, 60]
/-- The outcome of a translation: a physical address, a migrating page, or a fault kind; with the level of the page. -/
inductive Tr where
  | ok (pa level : Nat)
  | mig (level : Nat)
  | fault (kind : Nat)
  deriving DecidableEq, Repr
/-- Is a request one that the I/O die originates for the host? -/
def Packet.ofHost (p : Packet) : Bool := p.src.port = 2 && match bodyCont p.body with
  | .host _ _ => true
  | _ => false
/-- The checks of R71 after the leaf is found, in their order. A request that hits on resident sectors (`res`) is served while
its page moves (R64); a host access is not held to the rectangle (R70). -/
def State.leafCheck (s : State) (p : Packet) (res : Bool) (e : StcEnt) (off : Nat) : Tr :=
  let pa := (if bitOf e.leaf 58 then 0x40000000000 else 0) + 4096 * bits e.leaf 29 0 + off % pageSize e.level
  let red := match p.body with
    | .red _ _ _ _ region _ => region != bitOf e.leaf 57
    | _ => false
  if !res && bitOf e.leaf 55 then .mig e.level
  else if !p.ofHost && !s.admits e.comp p.src then .fault 4
  else if (rightsOf p.body).any fun b => !bitOf e.leaf b then .fault 5
  else if bitOf e.leaf 56 then .fault 6
  else if red then .fault 7
  else if physOk pa then .ok pa e.level else .fault 6
/-- Cut a range at multiples of m. -/
def cutAt (m : Nat) : Nat → Nat → Nat → List (Nat × Nat)
  | 0, _, _ => []
  | f + 1, a, n => if n = 0 then [] else let k := min n (m - a % m); (a, k) :: cutAt m f (a + k) (n - k)
/-- The bytes a request touches, cut at lines (R71: a request over two pages is translated once per page). For a
forwarded signal they are the record's words and their tag pairs (R122, R123). -/
def reqPieces (b : Body) : List (Nat × Nat) :=
  let cut := fun (a : Word) n => cutAt 256 (n + 1) a.toNat n
  match b with
  | .read a n _ _ => cut a n
  | .write a bs _ => cut a bs.length
  | .amo _ ty a _ _ _ | .red _ ty a _ _ _ => cut a (Ty.width ty)
  | .csnap a _ => cut a 64
  | .fe _ a _ _ => cut a 8
  | .entry q _ _ _ => cut q 8
  | .fwd f w n d rec _ _ =>
    let ws := (sigWords d).map (·.1) ++ (if n = 0 then [] else [w])
    (ws.map fun i => [(rec.toNat + 8 * i, 8), (rec.toNat + frameSize (fpCls f) + i / 4, 1)]).flatten
  | _ => []
/-! Lines (R57-R59). -/

def Slice.line (x : Slice) (sid : Half) (va : Nat) : Option L2Line := x.lines.find? fun l => l.sid = sid && l.va.toNat = va / 256
def Slice.win (x : Slice) (sid : Half) (va : Nat) : Option MWin := x.wins.find? fun l => l.sid = sid && l.va.toNat = va / 256
def L2Line.has (l : L2Line) (va : Nat) : Bool := l.valid.getLsbD (va / 32 % 8)
/-- Are all sectors of a range in L2? -/
def Slice.resident (x : Slice) (sid : Half) (va n : Nat) : Bool := (cutAt 32 (n + 1) va n).all fun c =>
  match x.line sid c.1 with
  | some l => l.has c.1
  | none => false
/-- Translate one piece at its home slice (R71). -/
def State.translate (s : State) (n : Nat) (p : Packet) (va k : Nat) : Tr × State :=
  let off := va % 2 ^ 45
  match s.leafFor n p.sid off with
  | .error e => (.fault e, s)
  | .ok e => (s.leafCheck p ((s.slice n).resident p.sid va k) e off, s.keepStc n e)
/-- The outcomes of the pieces of a request: address, length, outcome. -/
abbrev Trs := List (Nat × Nat × Tr)
/-- Translate all pieces, each at its home. -/
def State.translateAll (s : State) (hm : Nat → Nat) (p : Packet) : List (Nat × Nat) → Trs × State
  | [] => ([], s)
  | (va, k) :: t =>
    let (r, s) := s.translate (hm va) p va k
    let (l, s) := s.translateAll hm p t
    ((va, k, r) :: l, s)
def Tr.isOk : Tr → Bool
  | .ok _ _ => true
  | _ => false
/-- The first piece that fails decides (R71). -/
def Trs.failed (l : Trs) : Option Tr := (l.find? fun r => !r.2.2.isOk).map fun r => r.2.2
/-- The 4 KiB pages whose translation failed. -/
def Trs.badPages (l : Trs) : List Nat := (l.filter fun r => !r.2.2.isOk).map fun r => r.1 / 4096
/-- The translated pieces: virtual address, physical address, length. -/
def Trs.pieces (l : Trs) : List (Nat × Nat × Nat) := l.filterMap fun r => match r.2.2 with
  | .ok pa _ => some (r.1, pa, r.2.1)
  | _ => none
/-- The level of the largest page a request met. -/
def Trs.level (l : Trs) : Nat := l.foldl (fun m r => match r.2.2 with
  | .ok _ k | .mig k => max m k
  | .fault _ => m) 0
def mask8 (f : Nat → Bool) : BitVec 8 := BitVec.ofNat 8 (((List.range 8).map fun k => b2n (f k) * 2 ^ k).sum)
/-- The physical address of a byte of a translated request. -/
def paOf (pcs : List (Nat × Nat × Nat)) (va : Nat) : Nat :=
  match pcs.find? fun p => p.1 / 256 = va / 256 with
  | some p => p.2.1 + va - p.1
  | none => 0
/-- Read bytes at their home slices, from a valid sector of L2 or from memory. -/
def State.vread (s : State) (hm : Nat → Nat) (sid : Half) (pcs : List (Nat × Nat × Nat)) (va n : Nat) : List Byte :=
  (List.range n).map fun k =>
    let v := va + k
    match (s.slice (hm v)).line sid v with
    | some l => if l.has v then mget 0 l.data (v % 256) else Memory.read s.mem (paOf pcs v)
    | none => Memory.read s.mem (paOf pcs v)
/-- Does a write at an address cover a whole 32-byte sector, by its number? -/
def covers (a : Nat) (bs : List (Option Byte)) (sec : Nat) : Bool :=
  a ≤ 32 * sec && (List.range 32).all fun j => (bs.getD (32 * sec + j - a) none).isSome
/-- Write physical memory; a sector written whole is no longer poisoned (R329). -/
def State.physWrite (s : State) (pa : Nat) (bs : List (Option Byte)) : State :=
  let s := s.pwrite pa bs
  { s with poison := s.poison.filter fun k => !covers pa bs k }
/-- Write bytes within one line at its slice: into its valid sectors and the sectors the write covers, the rest to memory. -/
def State.lineWrite (s : State) (n : Nat) (sid : Half) (va pa : Nat) (bs : List (Option Byte)) : State :=
  match (s.slice n).line sid va with
  | none => s.physWrite pa bs
  | some l =>
    let base := va / 256 * 8
    let full := mask8 fun k => covers va bs (base + k)
    let held := l.valid ||| full
    let mine := fun i => held.getLsbD ((va + i) / 32 % 8)
    let hit := mask8 fun k => held.getLsbD k && (List.range bs.length).any fun i => (va + i) / 32 % 8 = k && (bs.getD i none).isSome
    let l' := { l with valid := held, dirty := l.dirty ||| hit, poison := l.poison &&& ~~~full,
                       data := writeMap l.data (va % 256) (bs.zipIdx.map fun b => if mine b.2 then b.1 else none) }
    (s.modSlice n fun x => { x with lines := x.lines.map fun y => if y = l then l' else y }).pwrite pa
      (bs.zipIdx.map fun b => if mine b.2 then none else b.1)
/-- Write bytes at their home slices. -/
def State.vwrite (s : State) (hm : Nat → Nat) (sid : Half) (pcs : List (Nat × Nat × Nat)) (va : Nat) (bs : List (Option Byte)) : State :=
  s.each (cutAt 256 (bs.length + 1) va bs.length) fun s p =>
    s.lineWrite (hm p.1) sid p.1 (paOf pcs p.1) ((bs.drop (p.1 - va)).take p.2)
/-- The dirty sectors of a line go to the recorded address (R58, R66). An uncorrectable error found here, which a free
value decides, writes the line with poison and records EVICT for the space that tags it (R329). -/
def State.flush (s : State) (n : Nat) (l : L2Line) : State :=
  if l.dirty = 0 then s
  else
    let (f, s) := s.freeVal
    let err := bitOf f 0
    let s := s.each (List.range 8) fun s k =>
      if l.dirty.getLsbD k then
        let s := s.physWrite (l.pa + 32 * k) (whole (readMap l.data (32 * k) 32))
        if err || l.poison.getLsbD k then { s with poison := s.poison ++ [l.pa / 32 + k] } else s
      else s
    if err then s.record (mkRec 15 0 l.sid 0 (sliceNode s.pkg n) (wd (l.va.toNat * 256)) 0) else s
/-- Is the page of a line moving, as its slice translates it (R64)? -/
def State.moving (s : State) (n : Nat) (l : L2Line) : Bool :=
  match s.leafFor n l.sid (l.va.toNat * 256 % 2 ^ 45) with
  | .ok e => bitOf e.leaf 55
  | .error _ => false
/-- LINE_WRITEBACK (R58): at once, or parked while the page moves (R64). -/
def State.writeBack (s : State) (n : Nat) (l : L2Line) : State :=
  if l.dirty ≠ 0 && s.moving n l then s.modSlice n fun x => { x with wbs := x.wbs ++ [l] } else s.flush n l
/-- Write a line back and drop it. -/
def State.evict (s : State) (n : Nat) (l : L2Line) : State :=
  (s.writeBack n l).modSlice n fun x => { x with lines := x.lines.filter fun y => y ≠ l }
def setOf (va : Nat) : Nat := (va / 256 % 4096) ^^^ (va / 2 ^ 20 % 4096)
/-- A line of a slice for an address, without a valid sector where it is new; which of 16 lines of a full set leaves is
not architectural (R57). -/
def State.allocLine (s : State) (n : Nat) (sid : Half) (va pa level : Nat) : State :=
  if ((s.slice n).line sid va).isSome then s
  else
    let set_ := (s.slice n).lines.filter fun l => setOf (l.va.toNat * 256) = setOf va
    let s := if set_.length < 16 then s
      else
        let (f, s) := s.freeVal
        match set_[f.toNat % 16]? with
        | some l => s.evict n l
        | none => s
    s.modSlice n fun x => { x with lines := x.lines ++ [{ sid := sid, va := BitVec.ofNat 55 (va / 256), pa := pa / 256 * 256, level := level }] }

/-! Reduction cells (R61-R63). -/

/-- The sizes of a slice's reserve (R60): base, fault-buffer and reduction bytes; a reserve outside the first tier has none. -/
def Slice.reserve (x : Slice) : Nat × Nat × Nat :=
  let b := bits x.rsv 42 20
  let f := bits x.rsv 55 48
  let r := bits x.rsv 63 56
  if (b + f + r) * 2 ^ 20 ≤ 2 ^ 40 then (b * 2 ^ 20, f * 2 ^ 20, r * 2 ^ 20) else (b * 2 ^ 20, 0, 0)
/-- The cells a request finds in its way: those whose element its bytes reach, but for a matching `red` (R62). -/
def cellsHit (x : Slice) (p : Packet) (a n : Nat) : List RCell :=
  x.cells.filter fun c => c.sid = p.sid && c.va.toNat < a + n && a < c.va.toNat + Ty.width c.ty &&
    match p.body with
    | .red op ty va _ true _ => !(c.va = va && c.op = op && c.ty = ty)
    | _ => true
/-- FOLD (R62): the cells of one element, in ascending order of contributor, into its memory value. -/
def State.foldElem (s : State) (hm : Nat → Nat) (pcs : List (Nat × Nat × Nat)) (sid : Half) (va : Word) : State :=
  let mine := fun (c : RCell) => c.sid = sid && c.va = va
  let n := hm va.toNat
  match sortBy (fun a b => a.who ≤ b.who) ((s.slice n).cells.filter mine) with
  | [] => s
  | c :: cs =>
    let w := Ty.width c.ty
    let old := leNat (s.vread hm sid pcs va.toNat w)
    let v := (c :: cs).foldl (fun m x => redNew x.op x.ty m (truncTy x.ty x.v)) old
    (s.modSlice n fun x => { x with cells := x.cells.filter fun c => !mine c }).vwrite hm sid pcs va.toNat (whole (natLe w v))
/-- Fold every element in a request's way, each piece's at its home. -/
def State.foldAll (s : State) (hm : Nat → Nat) (p : Packet) (pcs : List (Nat × Nat × Nat)) : State :=
  s.each ((pcs.map fun q => cellsHit (s.slice (hm q.1)) p q.1 q.2.2).flatten) fun s c => s.foldElem hm pcs p.sid c.va
/-- The record of a spilled cell: 32 bytes whose layout R63 does not give, so free values (log 55). -/
def State.spillCell (s : State) (n j : Nat) : State :=
  let r := (s.slice n).reserve
  s.each (List.range 4) fun s k =>
    let (v, s) := s.freeVal
    s.physWrite (r.1 + r.2.1 + 32 * j + 8 * k) (whole (wordBytes v))
/-- REDUCTION_APPLY (R62, R63): into the contributor's cell, or a new one; a full table first moves its least recently
used cell to the spill area. None: no room. -/
def State.redApply (s : State) (n : Nat) (p : Packet) (op : RedOp) (ty : Ty) (a v : Word) : Option State :=
  let x := s.slice n
  let who := p.src.pkg.toNat * 2048 + p.src.core.toNat
  let key := fun (c : RCell) => c.sid = p.sid && c.va = a && c.who = who
  match x.cells.find? key with
  | some c =>
    let c' := { c with v := wd (redNew op ty (truncTy ty c.v) (truncTy ty v)) }
    let s := s.modSlice n fun x => { x with cells := x.cells.filter (fun c => !key c) ++ [c'] }
    some (match c.spilled with
      | some j => s.spillCell n j
      | none => s)
  | none =>
    let new : RCell := { sid := p.sid, va := a, who := who, op := op, ty := ty, v := wd (truncTy ty v) }
    if (x.cells.filter fun c => c.spilled.isNone).length < 65536 then some (s.modSlice n fun x => { x with cells := x.cells ++ [new] })
    else match (List.range (x.reserve.2.2 / 32)).find? fun j => !x.cells.any fun c => c.spilled = some j with
      | none => none
      | some j => (x.cells.findIdx? fun c => c.spilled.isNone).map fun i =>
          (s.modSlice n fun x => { x with cells := (x.cells.modify i fun c => { c with spilled := some j }) ++ [new] }).spillCell n j

/-! Parking (R75-R79). -/

/-- The 4 KiB pages a request touches. -/
def pagesOf (b : Body) : List Nat := (reqPieces b).map fun p => p.1 / 4096
/-- The next ticket that no parked request of the slice holds. -/
def freeTicket (used : List Nat) : Nat → Nat → Nat
  | 0, t => t
  | f + 1, t => if used.contains t then freeTicket used f ((t + 1) % 2 ^ 20) else t
/-- The record of a request in the fault-buffer spill area (R76). -/
def spillRecord (p : Packet) (ticket : Nat) : List Byte :=
  wordBytes (hdrW0 p) ++ wordBytes (hdrW1 p) ++ ((payload p ++ List.replicate 304 0).take 304) ++ natLe 64 ticket
/-- The requests that hold an entry of the fault buffer or a record of its spill area: the parked ones and those behind them. -/
def Slice.waiters (x : Slice) : List (Packet × Option Nat) := (x.parked.map fun k => (k.pkt, k.place) :: k.behind).flatten
/-- Where a request of a space can be parked (R76): in the buffer, 16 of whose 64 entries are its space's, or in the first
free record of the spill area, half of which is. -/
def Slice.room (x : Slice) (sid : Half) : Option (Option Nat) :=
  let here := x.waiters.filter fun w => w.2.isNone
  let gone := x.waiters.filter fun w => w.2.isSome
  let share := fun (l : List (Packet × Option Nat)) => (l.filter fun w => w.1.sid = sid).length
  let cap := x.reserve.2.1 / 384
  if here.length < 64 && share here < 16 then some none
  else if share gone < cap / 2 then ((List.range cap).find? fun j => !(gone.any fun w => w.2 = some j)).map some
  else none
/-- BUFFER_FAULT (R76): no room to park; the request completes fatal, is recorded, and the owner is told, without a ticket. -/
def State.bufferFault (s : State) (n : Nat) (p : Packet) : State :=
  ((s.reqRecord 10 p none).notify 2 (wd (2 ^ 63 + n * 2 ^ 20))).fatal p
/-- The record of a request that is parked in the spill area. -/
def State.spillParked (s : State) (n : Nat) (p : Packet) (ticket : Nat) : Option Nat → State
  | some j => s.physWrite ((s.slice n).reserve.1 + 384 * j) (whole (spillRecord p ticket))
  | none => s
/-- FAULT_PARK (R74, R76): a place and a ticket. A fault, but not a migration (kind 0), is recorded and notified. -/
def State.parkRequest (s : State) (n : Nat) (p : Packet) (kind : Nat) (pages : List Nat) (level : Nat) : State :=
  let x := s.slice n
  match x.room p.sid with
  | none => s.bufferFault n p
  | some place =>
    let t := freeTicket (x.parked.map (·.ticket)) x.parked.length x.nextTicket
    let s := (s.modSlice n fun x => { x with nextTicket := (t + 1) % 2 ^ 20, parked := x.parked ++
      [{ pkt := p, ticket := t, kind := kind, pages := pages, level := level, place := place }] }).spillParked n p t place
    if kind = 0 then s else (s.reqRecord kind p (some t)).notify 2 (wd (n * 2 ^ 20 + t))
/-- Park a request behind another (R77): it has no ticket of its own, so that field of a spill record is open (log 55). -/
def State.parkBehind (s : State) (n j : Nat) (p : Packet) : State :=
  match (s.slice n).room p.sid with
  | none => s.bufferFault n p
  | some place =>
    let (v, s) := s.freeVal
    (s.modSlice n fun x => { x with parked := x.parked.modify j fun k => { k with behind := k.behind ++ [(p, place)] } }).spillParked n p
      (v.toNat % 2 ^ 20) place
/-- A fault of a parked kind: a host access is not parked but completes to the I/O die with the kind (R80). -/
def State.sliceFault (s : State) (n : Nat) (p : Packet) (kind : Nat) (pages : List Nat) : State :=
  match bodyCont p.body with
  | .host port _ => s.reply p (.ack (.host port kind) none) true
  | _ => s.parkRequest n p kind pages 0

/-! Serving. -/

/-- The ART a request was routed by: its launch's, or the I/O die's copy (R53). That of another package is not known here. -/
def State.pktArt (s : State) (p : Packet) : Launch :=
  if p.src.pkg ≠ s.pkg then .none
  else if p.src.port ≠ 2 && s.hasLaunch p.lid then s.launch (s.launch p.lid).root else s.ioArt p.sid
/-- The 64-byte line of the host's cache that an address lies in. -/
def hostLine (a : Nat) : Word := wd (a / 64 * 64)
/-- The reply of an access that wrote: held until the host's copy of every line it wrote is invalidated, those included whose
invalidation an earlier write has begun (R240). A host store invalidates no copy of the host's own. -/
def State.replyWrite (s : State) (p : Packet) (b : Body) : State :=
  let keys := ((reqPieces p.body).map fun q => (cutAt 64 (q.2 + 1) q.1 q.2).map fun c => (p.sid, hostLine c.1)).flatten
  let now := keys.filter fun k => s.host.cached.contains k
  let wait := keys.filter fun k => now.contains k || s.host.pendInv.contains k
  if wait.isEmpty || (p.ofHost && p.src.pkg = s.pkg) then s.reply p b false
  else s.modHost fun h =>
    { h with cached := h.cached.filter (fun k => !now.contains k), pendInv := h.pendInv ++ now.filter (fun k => !h.pendInv.contains k),
             waiting := h.waiting ++ [({ p with body := b }, wait)] }
/-- The host caches the lines of device memory that it reads (R240, R343). -/
def State.hostCaches (s : State) (p : Packet) (a : Word) (n : Nat) : State :=
  if p.ofHost && p.src.pkg = s.pkg then
    s.each (cutAt 64 (n + 1) a.toNat n) fun s c => s.modHost fun h =>
      { h with cached := if h.cached.contains (p.sid, hostLine c.1) then h.cached else h.cached ++ [(p.sid, hostLine c.1)] }
  else s
/-- Set the tag pair of a record word (R122). -/
def State.recTag (s : State) (hm : Nat → Nat) (sid : Half) (pcs : List (Nat × Nat × Nat)) (a w : Nat) (ptr : Bool) : State :=
  let b := (s.vread hm sid pcs (a + w / 4) 1).headD 0
  let sh := 4 ^ (w % 4)
  let v := b.toNat - b.toNat / sh % 4 * sh + (1 + 2 * b2n ptr) * sh
  s.vwrite hm sid pcs (a + w / 4) [some (BitVec.ofNat 8 v)]
/-- A forwarded signal on its record (R123, R124): data, then the slot by R243; a fire asks the home core for a refill. A word beyond
those of the location's class is the one that stands there, in the tag pairs or past the record, and a slot-fault record names as
source the home core, which sent the FWD packet: R243 leaves both open (log 50). -/
def State.fwdApply (s : State) (hm : Nat → Nat) (pcs : List (Nat × Nat × Nat)) (p : Packet) (f : Word) (w n : Nat) (d : SigData)
    (rec : Word) (home u : Nat) : State :=
  let r := rec.toNat
  let tags := r + frameSize (fpCls f)
  let s := s.each (sigWords d) fun s q =>
    (s.vwrite hm p.sid pcs (r + 8 * q.1) (whole (wordBytes q.2.1))).recTag hm p.sid pcs tags q.1 q.2.2
  if n = 0 then s.replyWrite p (.ack (.fwd u) none)
  else match sigStep (bytesWord (s.vread hm p.sid pcs (r + 8 * w) 8)) n with
    | .error k => (s.packetRecord p (mkRec k 0 p.sid p.lid p.dst f (slotDetail p.src n w))).replyWrite p (.ack (.fwd u) none)
    | .ok (v, fires) =>
      let s := (s.vwrite hm p.sid pcs (r + 8 * w) (whole (wordBytes v))).recTag hm p.sid pcs tags w false
      if fires then
        let e := v.extractLsb' 0 32
        (s.inject (mkPkt p.dst ⟨s.pkg, BitVec.ofNat 11 home, 0⟩ p.sid p.lid p.thr 0 0 (.refill f e (bits v 46 45) w))).replyWrite p
          (.ack (.fwd u) (some (e, bits v 46 45)))
      else s.replyWrite p (.ack (.fwd u) none)
/-- The pages of the poisoned bytes a request reads (R329). A full/empty request and an entry are refused before any byte is
read (R161, R170). -/
def State.poisonPages (s : State) (hm : Nat → Nat) (p : Packet) (pcs : List (Nat × Nat × Nat)) : List Nat :=
  let bad := fun (c : Nat × Nat) =>
    match (s.slice (hm c.1)).line p.sid c.1 with
    | some l => if l.has c.1 then l.poison.getLsbD (c.1 / 32 % 8) else s.poison.contains (paOf pcs c.1 / 32)
    | none => s.poison.contains (paOf pcs c.1 / 32)
  match p.body with
  | .write _ _ _ | .red _ _ _ _ true _ | .fe _ _ _ _ | .entry _ _ _ _ => []
  | _ => (pcs.filter fun q => (cutAt 32 (q.2.2 + 1) q.1 q.2.2).any bad).map fun q => q.1 / 4096
/-- An access of the device itself, which no core sends: translated now at its home slices, with the folds in its way (R62,
R71); none where it fails. -/
def State.atOnce (s : State) (art : Launch) (p : Packet) : Option (List (Nat × Nat × Nat)) × State :=
  let hm := fun v => sliceOf art (wd v)
  let (l, s) := s.translateAll hm p (reqPieces p.body)
  if l.failed.isSome then (none, s) else (some l.pieces, s.foldAll hm p l.pieces)
/-- The home slices of a request at slice n: a forwarded signal's words may lie at others. -/
def State.homes (s : State) (n : Nat) (p : Packet) (v : Nat) : Nat :=
  match p.body with
  | .fwd _ _ _ _ _ _ _ => sliceOf (s.pktArt p) (wd v)
  | _ => n
/-- Carry out a translated request at its line (R155-R164), after the folds it forces. -/
def State.perform (s : State) (n : Nat) (p : Packet) (pcs : List (Nat × Nat × Nat)) : State :=
  let hm := s.homes n p
  let bad := s.poisonPages hm p pcs
  if !bad.isEmpty then s.sliceFault n p 6 bad
  else
    let s := s.foldAll hm p pcs
    match p.body with
    | .read a k _ c => (s.hostCaches p a k).reply p (.data (s.vread hm p.sid pcs a.toNat k) c) false
    | .write a bs c => (s.vwrite hm p.sid pcs a.toNat bs).replyWrite p (.ack c none)
    | .amo op ty a v cmp c =>
      let old := s.vread hm p.sid pcs a.toNat (Ty.width ty)
      let s := match amoNew op ty (leNat old) (truncTy ty v) (truncTy ty cmp) with
        | some x => s.vwrite hm p.sid pcs a.toNat (whole (natLe (Ty.width ty) x))
        | none => s
      s.replyWrite p (.data old c)
    | .csnap a c =>
      let old := s.vread hm p.sid pcs a.toNat 64
      (s.vwrite hm p.sid pcs a.toNat (whole (List.replicate 64 0))).replyWrite p (.data old c)
    | .red op ty a v true c =>
      match s.redApply n p op ty a v with
      | some s => s.replyWrite p (.ack c none)
      | none => s.sliceFault n p 9 (pagesOf p.body)
    | .red op ty a v false c =>
      let old := leNat (s.vread hm p.sid pcs a.toNat (Ty.width ty))
      (s.vwrite hm p.sid pcs a.toNat (whole (natLe (Ty.width ty) (redNew op ty old (truncTy ty v))))).replyWrite p (.ack c none)
    | .fwd f w k d rec home u => s.fwdApply hm pcs p f w k d rec home u
    | _ => s.addressRefusal p
/-- The sectors a piece touches. -/
def sectors (q : Nat × Nat × Nat) : BitVec 8 :=
  mask8 fun k => q.1 < 32 * (q.1 / 256 * 8 + k + 1) && 32 * (q.1 / 256 * 8 + k) < q.1 + q.2.2
/-- The sectors of a piece that must be in L2 before the request is served: all it touches, for a write only those it does
not cover. -/
def wants (p : Packet) (q : Nat × Nat × Nat) : BitVec 8 :=
  sectors q &&& mask8 fun k => match p.body with
    | .write a bs _ => !covers a.toNat bs (q.1 / 256 * 8 + k)
    | _ => true
/-- The sectors of a piece that a request still wants from memory. -/
def Slice.missing (x : Slice) (p : Packet) (q : Nat × Nat × Nat) : BitVec 8 :=
  wants p q &&& ~~~(((x.line p.sid q.1).map L2Line.valid).getD 0)
/-- Join the merge window of a line, or open one (R58); a write without allocation wants the sectors it writes (R59). -/
def State.joinWin (s : State) (n : Nat) (p : Packet) (pcs : List (Nat × Nat × Nat)) (level : Nat) (q : Nat × Nat × Nat) (noalloc : Bool) : State :=
  s.modSlice n fun x =>
    let w := (x.win p.sid q.1).getD
      { sid := p.sid, va := BitVec.ofNat 55 (q.1 / 256), pa := q.2.1 / 256 * 256, at_ := s.acyc, noalloc := noalloc }
    let w' := { w with level := max w.level level, wanted := w.wanted ||| (if noalloc then sectors q else wants p q), reqs := w.reqs ++ [(p, pcs)] }
    { x with wins := if x.wins.contains w then x.wins.map fun y => if y = w then w' else y else x.wins ++ [w'] }
/-- The window in which a forwarded signal for the record of another waits: it waits there too, so that the record takes them
in order of arrival (R245). -/
def Slice.sameRecord (x : Slice) (p : Packet) : Option MWin := match p.body with
  | .fwd _ _ _ _ rec _ _ => x.wins.find? fun w => w.sid = p.sid && w.reqs.any fun q => match q.1.body with
    | .fwd _ _ _ _ rec' _ _ => rec' = rec
    | _ => false
  | _ => none
/-- Does NOALLOC hold for a request (R59)? Of another package's, whose ART is not here, a free value says so (log 73). -/
def State.noAlloc (s : State) (p : Packet) : Bool :=
  if p.src.pkg = s.pkg then artBit (s.pktArt p) (bodyAddr p.body) 22 else Config.farNoAlloc p.src.pkg p.lid (bodyAddr p.body)
/-- A request that passed every check reaches its line (R58, R59): behind a window, at once, or by a new window. -/
def State.atLines (s : State) (n : Nat) (p : Packet) (pcs : List (Nat × Nat × Nat)) (level : Nat) : State :=
  let x := s.slice n
  let noalloc := s.noAlloc p
  let write := match p.body with
    | .write _ _ _ => true
    | _ => false
  let free := match p.body with
    | .fwd _ _ _ _ _ _ _ | .fe _ _ _ _ | .entry _ _ _ _ => true
    | .red _ _ _ _ true _ => (pcs.all fun q => (cellsHit x p q.1 q.2.2).isEmpty)
    | _ => false
  match x.sameRecord p, pcs.find? fun q => (x.win p.sid q.1).isSome with
  | some w, _ => s.joinWin n p pcs level (w.va.toNat * 256, w.pa, 0) noalloc
  | none, some q => s.joinWin n p pcs level q noalloc
  | none, none =>
    if free then s.perform n p pcs
    else match pcs.find? fun q => (noalloc && write) || x.missing p q ≠ 0 with
      | some q => s.joinWin n p pcs level q noalloc
      | none => (s.each pcs fun s q => s.allocLine n p.sid q.1 q.2.1 level).perform n p pcs
/-- Translate a request and serve it, or park it (R71, R74, R76). -/
def State.sliceServe (s : State) (n : Nat) (p : Packet) : State :=
  let (l, s) := s.translateAll (s.homes n p) p (reqPieces p.body)
  match l.failed with
  | none => s.atLines n p l.pieces l.level
  | some (.fault k) => s.sliceFault n p k l.badPages
  | some _ => s.parkRequest n p 0 l.badPages l.level
/-- A request arrives (R77): behind one of its space that is parked for a page of it, else it is served. -/
def State.sliceArrive (s : State) (n : Nat) (p : Packet) : State :=
  match (s.slice n).parked.findIdx? fun k => k.pkt.sid = p.sid && (pagesOf p.body).any k.pages.contains with
  | some j => s.parkBehind n j p
  | none => s.sliceServe n p

/-! The events. -/

def isFwd (p : Packet) : Bool := match p.body with
  | .fwd _ _ _ _ _ _ _ => true
  | _ => false
/-- The request at the head of a slice's queue, if it is of the kind an event serves. -/
def sliceHead (n : Nat) (s : State) (fwd : Bool) : Out :=
  needSlice n <|
  match (s.slice n).inq with
  | [] => .next s
  | p :: rest => if isFwd p = fwd then .next ((s.modSlice n fun x => { x with inq := rest }).sliceArrive n p) else .next s
/-- SLICE_REQUEST (R71). -/
def execSliceRequest (n : Nat) (s : State) : Out := sliceHead n s false
/-- FORWARDED_SIGNAL (R123). -/
def execForwardedSignal (n : Nat) (s : State) : Out := sliceHead n s true
/-- MERGE_WINDOW_CLOSE (R58): the burst is issued 16 A-cycles after the first miss, or once all sectors are wanted. -/
def execMergeWindowClose (n : Nat) (s : State) : Out :=
  needSlice n <|
  match (s.slice n).wins.findIdx? fun w => !w.issued && (w.at_ + 16 ≤ s.acyc || w.wanted = 0xff) with
  | none => .next s
  | some j => .next (s.modSlice n fun x => { x with wins := x.wins.modify j fun w => { w with issued := true } })
/-- The line takes its invalid sectors from memory, poisoned where memory is. -/
def State.fill (s : State) (n : Nat) (sid : Half) (va pa level : Nat) : State :=
  let s := s.allocLine n sid va pa level
  let mem := s.pread pa 256
  s.modSlice n fun x => { x with lines := x.lines.map fun l =>
    if l.sid = sid && l.va.toNat = va / 256 then
      { l with valid := 0xff, poison := mask8 fun k => if l.valid.getLsbD k then l.poison.getLsbD k else s.poison.contains (pa / 32 + k),
               data := writeMap l.data 0 (mem.zipIdx.map fun b => if l.valid.getLsbD (b.2 / 32) then none else some b.1) }
    else l }
/-- LINE_FILL (R58, R59): the burst arrives and the requests that wait on the line are served in arrival order. A request lies
in its line, but for a forwarded signal, whose other words may lie in lines that are still to come. -/
def execLineFill (n : Nat) (s : State) : Out :=
  needSlice n <|
  match (s.slice n).wins.find? fun w => w.issued with
  | none => .next s
  | some w =>
    let s := s.modSlice n fun x => { x with wins := x.wins.filter fun y => y ≠ w }
    let s := if w.noalloc then s else s.fill n w.sid (w.va.toNat * 256) w.pa w.level
    .next (s.each w.reqs fun s r => if isFwd r.1 then s.atLines n r.1 r.2 w.level else s.perform n r.1 r.2)

/-! `slc_stcinv` (R72-R74). -/

/-- Does a command select an address of a space? Mode 2 names one 4 KiB page. -/
def stcSel (v : Word) (sid : Half) (page : Nat → Bool) : Bool :=
  match bits v 62 61 with
  | 0 => true
  | 1 => bits v 60 45 = sid.toNat
  | _ => bits v 60 45 = sid.toNat && page (bits v 44 12)
/-- A command starts: BUSY, and the selected STC entries are gone. -/
def stcInv (p : Party) (n : Nat) (v : Word) (mode : Nat) (s : State) : Out :=
  needSlice n <|
  .next <| s.ownerWrite p fun s =>
    if bitOf (s.slice n).stcinv 63 || bits v 62 61 ≠ mode then s
    else s.modSlice n fun x => { x with
      stcinv := wd (2 ^ 63 + bits v 62 11 * 2 ^ 11), inv := 1,
      stc := x.stc.filter fun e => !stcSel v e.sid fun g => e.page = g * 4096 / pageSize e.level }
def execStcInvAll (p : Party) (n : Nat) (v : Word) (s : State) : Out := stcInv p n v 0 s
def execStcInvSid (p : Party) (n : Nat) (v : Word) (s : State) : Out := stcInv p n v 1 s
def execStcInvPage (p : Party) (n : Nat) (v : Word) (s : State) : Out := stcInv p n v 2 s
/-- Does a command select a page of a level that holds a 4 KiB page (R72)? -/
def covering (level page g : Nat) : Bool := page % 2 ^ 33 * 4096 / pageSize level = g * 4096 / pageSize level
/-- Does a command select a line, by the page it was translated by? -/
def L2Line.selected (v : Word) (l : L2Line) : Bool := stcSel v l.sid fun g => covering l.level (l.va.toNat / 16) g
/-- Requests translated with a selected entry, of whatever page of theirs, that are not served yet. -/
def Slice.selWins (x : Slice) : Bool := x.wins.any fun w => stcSel x.stcinv w.sid fun g =>
  covering w.level (w.va.toNat / 16) g || w.reqs.any fun r => r.2.any fun q => covering w.level (q.1 / 4096) g
/-- Write back the selected write-backs that were parked (R64). -/
def State.flushParked (s : State) (n : Nat) : State :=
  let x := s.slice n
  (s.each (x.wbs.filter (L2Line.selected x.stcinv)) fun s l => s.flush n l).modSlice n fun y =>
    { y with wbs := y.wbs.filter fun l => !l.selected x.stcinv }
/-- STC_INV_WRITEBACK (R72): with WB set, the selected lines are written back and dropped. -/
def execStcInvWriteback (n : Nat) (s : State) : Out :=
  needSlice n <|
  let x := s.slice n
  if x.inv ≠ 1 || !bitOf x.stcinv 11 || x.selWins then .next s
  else .next (((s.flushParked n).each (x.lines.filter (L2Line.selected x.stcinv)) fun s l => s.flush n l).modSlice n fun y =>
    { y with inv := 2, lines := y.lines.filter fun l => !l.selected x.stcinv })
/-- The requests a parked one and those behind it make when they are released, in arrival order. -/
def Parked.all (k : Parked) : List Packet := k.pkt :: k.behind.map (·.1)
/-- STC_INV_COMPLETE (R64, R72, R74): what is parked for migration on a selected page is released for replay, BUSY clears. -/
def execStcInvComplete (n : Nat) (s : State) : Out :=
  needSlice n <|
  let x := s.slice n
  if x.inv = 0 || (x.inv = 1 && bitOf x.stcinv 11) || x.selWins then .next s
  else
    let sel := fun (k : Parked) => k.kind = 0 && stcSel x.stcinv k.pkt.sid fun g => k.pages.any fun q => covering k.level q g
    let s := (s.flushParked n).modSlice n fun x =>
      { x with inv := 0, stcinv := x.stcinv &&& ~~~(1#64 <<< 63), parked := x.parked.filter fun k => !sel k }
    .next (s.each ((x.parked.filter sel).map Parked.all).flatten fun s p => s.sliceServe n p)

/-! `slc_fres` (R78). -/

/-- Resolve a ticket: the holder is replayed or completes fatal, then the requests behind it are translated afresh. -/
def State.resolve (s : State) (n t : Nat) (fatal : Bool) : State :=
  match (s.slice n).parked.find? fun k => k.ticket = t with
  | none => s
  | some k =>
    let s := s.modSlice n fun x => { x with parked := x.parked.filter fun y => y ≠ k }
    let s := if fatal then s.fatal k.pkt else s.sliceServe n k.pkt
    s.each k.behind fun s p => s.sliceServe n p.1
def fresWrite (p : Party) (n : Nat) (t : BitVec 20) (fatal : Bool) (s : State) : Out :=
  needSlice n <|
  .next <| s.ownerWrite p fun s =>
    (s.modSlice n fun x => { x with fres := wd ((if fatal then 2 else 1) * 2 ^ 62 + t.toNat) }).resolve n t.toNat fatal
/-- FAULT_REPLAY (R78). -/
def execFaultReplay (p : Party) (n : Nat) (t : BitVec 20) (s : State) : Out := fresWrite p n t false s
/-- FAULT_FATAL (R78). -/
def execFaultFatal (p : Party) (n : Nat) (t : BitVec 20) (s : State) : Out := fresWrite p n t true s

end Sys2Proof.Machine
end

