-- ==== Sys2Proof/Machine/Bank.lean ====
section
/-! DEFINITION. Bank.lean: requests at a scratch bank (R49, R82, R111-R116, R155-R164), frame-addressed packets, spills and
refills (R117-R124), and the delivery of replies (R151). -/

namespace Sys2Proof.Machine

/-! Requests for on-chip addresses. -/

/-- Address, length, and whether the request reads and writes (R71's table), of a request for memory. -/
def memReq : Body → Option (Word × Nat × Bool × Bool)
  | .read a n _ _ => some (a, n, true, false)
  | .write a bs _ => some (a, bs.length, false, true)
  | .amo _ ty a _ _ _ | .red _ ty a _ _ _ => some (a, Ty.width ty, true, true)
  | .csnap a _ => some (a, 64, true, true)
  | .fe _ a _ _ => some (a, 8, true, true)
  | _ => none
/-- A request for this core's scratch; an on-chip offset outside it goes to WINDOW_ACCESS. -/
def isBankReq (p : Packet) : Bool := match memReq p.body with
  | some (a, _, _, _) => addrOff a < 0x100000
  | none => false
/-- Does the protection unit grant every right a request needs (R82)? -/
def State.granted (s : State) (c : Nat) (sid : Half) (off n : Nat) (rd wr : Bool) : Bool :=
  (s.core c).grants sid off n rd wr
/-- Is it a request of the core's own copy engine, which R111 places before the packets of others? -/
def ofEngine (c : Nat) (p : Packet) : Bool := isBankReq p && p.src.port = 0 && p.src.core.toNat = c && match p.body with
  | .read _ _ _ (.engRead _ _ _) | .write _ _ (.engWrite _ _ _ _) => true
  | _ => false
def bankOf (off : Nat) : Nat := off / 64 % 8
/-- FE_DEFER and FE_RETURN (R115): a deferred request joins its word's FIFO; with its bank's 8 entries in use it goes back
to the issuing network interface, to be sent again 64 A-cycles later. -/
def State.defer (s : State) (c off : Nat) (p : Packet) : State :=
  if ((s.core c).defer.filter fun d => bankOf d.off = bankOf off).length < 8 then
    (s.modCore c fun x => { x with defer := x.defer ++ [⟨off, p⟩] }).event c p.sid 13 1
  else
    let home := if p.src.pkg = s.pkg && p.src.port = 0 then p.src.core.toNat else c
    s.modNi home fun ni => { ni with retry := ni.retry ++ [⟨p, s.acyc + 64⟩] }
/-- A full/empty operation at its bank (R114-R116, R161). -/
def State.feAt (s : State) (c off : Nat) (p : Packet) (op : FeOp) (v : Word) (k : Cont) : State :=
  let x := s.core c
  let queued := x.defer.any fun d => d.off = off
  match op with
  | .ldfe =>
    if x.full (off / 8) && !queued then (s.reply p (.data (x.readScr off 8) k) false).setTag c (off / 8) false else s.defer c off p
  | .stef =>
    if !x.full (off / 8) && !queued then (s.reply p (.ack k none) false).scrWrite c off (whole (wordBytes v)) false
    else s.defer c off p
  | .tagf => (s.reply p (.ack k none) false).setTag c (off / 8) true
  | .tage => (s.reply p (.ack k none) false).setTag c (off / 8) false
/-- A permitted request takes effect at the bank (R155-R164). -/
def State.bankServe (s : State) (c off : Nat) (p : Packet) : State :=
  let x := s.core c
  let s := s.modCore c fun y => y.touch off s.acyc
  match p.body with
  | .read _ n _ k => s.reply p (.data (x.readScr off n) k) false
  | .write _ bs k => (s.scrWrite c off bs false).reply p (.ack k none) false
  | .amo op ty _ v cmp k =>
    let old := x.readScr off (Ty.width ty)
    let s := match amoNew op ty (leNat old) (truncTy ty v) (truncTy ty cmp) with
      | some n => s.scrWrite c off (whole (natLe (Ty.width ty) n)) false
      | none => s
    s.reply p (.data old k) false
  | .red op ty _ v _ k =>
    let n := redNew op ty (leNat (x.readScr off (Ty.width ty))) (truncTy ty v)
    (s.scrWrite c off (whole (natLe (Ty.width ty) n)) false).reply p (.ack k none) false
  | .csnap _ k =>
    (s.scrWrite c off (whole (List.replicate 64 0)) false).reply p (.data (x.readScr off 64) k) false
  | .fe op _ v k => s.feAt c off p op v k
  | _ => s
/-- BANK_REQUEST (R82, R155): checked by the protection unit and served at the bank, or refused. -/
def execBankRequest (core : Nat) (s : State) : Out :=
  onPacket s core isBankReq fun p s =>
    match memReq p.body with
    | none => s
    | some (a, n, rd, wr) =>
      let off := addrOff a
      if onChip a && bits a 33 22 = 0 && off + n ≤ 0x100000 && s.granted core p.sid off n rd wr then s.bankServe core off p
      else s.addressRefusal p
/-- Take the first packet of a retry list that is due and of a kind. -/
def takeDue (now : Nat) (f : Packet → Bool) : List Retry → Option (Retry × List Retry)
  | [] => none
  | r :: t => if r.due ≤ now && f r.pkt then some (r, t) else (takeDue now f t).map fun q => (q.1, r :: q.2)
def isFe (p : Packet) : Bool := match p.body with
  | .fe _ _ _ _ => true
  | _ => false
/-- FE_RETRY (R115): the network interface sends a returned request again, as it is; S counts it again (R318). -/
def execFeRetry (core : Nat) (s : State) : Out :=
  needCore core <|
  match takeDue s.acyc isFe (s.core core).ni.retry with
  | none => .next s
  | some (r, rest) =>
    .next ((s.modNi core fun ni => { ni with retry := rest }).inject r.pkt)

/-! Replies. -/

/-- Which held packets of a kind leave: those that wait for nothing any more, an entry only behind no earlier entry for its
queue that stays (R153). Answers the ones that leave and the ones that stay, each in their order. -/
def Ni.leaving (ni : Ni) (f : Packet → Bool) : List Held × List Held :=
  ni.held.foldl (fun acc h =>
    if f h.pkt && !(ni.outs.any fun o => h.wait.contains o.id) && !acc.2.any (fun g => sameQueue g.pkt h.pkt)
    then (acc.1 ++ [h], acc.2) else (acc.1, acc.2 ++ [h])) ([], [])
/-- Send on the packets held at a core that a test picks and that wait for nothing any more, in their order. -/
def State.release (s : State) (c : Nat) (f : Packet → Bool) : State :=
  let r := (s.core c).ni.leaving f
  (s.modNi c fun ni => { ni with held := r.2 }).each r.1 fun s h => s.inject h.pkt
/-- What a reply is for. -/
def replyCont (p : Packet) : Option Cont := match p.body with
  | .data _ k | .ack k _ => some k
  | _ => none
/-- The data of a reply that is not fatal. -/
def replyData (p : Packet) : Option (List Byte) := match p.body with
  | .data bs _ => if p.fault then none else some bs
  | _ => none
def isReply (p : Packet) : Bool := match replyCont p with
  | some (.word _ _ _ _) | some (.block _ _ _) | some (.slot _ _) | some (.elem _ _ _) | some (.ownHdr _ _ _ _ _ _ _)
  | some (.ownTab _ _ _ _ _) | some (.fwd _) | some (.qdesc _) | some (.child _ _ _) | some .none => true
  | _ => false
/-- The read of a queue descriptor has answered (R169): the counter stands at RES; a refused read fails the entries that
wait for it and frees the counter (log 23). -/
def State.gotRes (s : State) (c : Nat) (q : Word) (data : Option (List Byte)) : State :=
  match data with
  | some bs =>
    let res := (queueOf fun n => bytesWord ((bs.drop (8 * n)).take 8)).res
    s.modNi c fun ni => { ni with credits := ni.credits.map fun k => if k.q = q then { k with count := some res, res := res } else k }
  | none =>
    let gone := (s.core c).ni.enqBuf.filter fun e => e.q = q
    (s.modNi c fun ni =>
      { ni with credits := ni.credits.filter (fun k => k.q ≠ q), enqBuf := ni.enqBuf.filter fun e => e.q ≠ q }).each gone
        fun s e => s.failEntry c e.pkt
/-- REPLY_DELIVERY (R151): a reply or acknowledgement completes its request. The acknowledgement of a forwarded signal
that fired announces a refill (R318). -/
def execReplyDelivery (core : Nat) (s : State) : Out :=
  onPacket s core isReply fun p s =>
    let s := s.settle core p.id
    match replyCont p, p.body with
    | some (.qdesc q), _ => s.gotRes core q (replyData p)
    | some k, .ack _ (some _) =>
      (s.modFr core fun f => f.announce p.lid).complete core k none p
    | some k, _ => s.complete core k (replyData p) p
    | none, _ => s

/-! Frame-addressed packets, spills and refills. -/

def isSig (p : Packet) : Bool := match p.body with
  | .sig _ _ _ _ => true
  | _ => false
/-- An ingress signal is acknowledged once its home has taken it (R345); `thr` of one is its endpoint's number plus 1. -/
def State.ingressAcked (s : State) (p : Packet) : State :=
  if p.src.port = 2 && p.thr ≠ 0 && s.hasLaunch p.lid then
    s.modLaunch p.lid fun l => { l with posted := mmod 0 (p.thr - 1) (· - 1) l.posted }
  else s
/-- FRAME_PACKET_ARRIVAL (R123). -/
def execFramePacketArrival (core : Nat) (s : State) : Out :=
  onPacket s core isSig fun p s => let s := s.ingressAcked p
                                   match p.body with
    | .sig f w n d => s.frameArrive core f w n d p
    | _ => s
def isSpillAck (p : Packet) : Bool := match replyCont p with
  | some (.spill _) => true
  | _ => false
/-- SPILL_ACKNOWLEDGED (R122, R123): a spill write is acknowledged; signals that waited for the last of a frame's spill
writes are forwarded. -/
def execSpillAcknowledged (core : Nat) (s : State) : Out :=
  onPacket s core isSpillAck fun p s =>
    ((s.settle core p.id).complete core ((replyCont p).getD .none) none p).release core fun q => match q.body with
      | .fwd _ _ _ _ _ _ _ => true
      | _ => false
def isRefill (p : Packet) : Bool := match p.body with
  | .refill _ _ _ _ => true
  | _ => false
def State.modRefill (s : State) (c : Nat) (r : Refill) (f : Refill → Refill) : State :=
  s.modFr c fun fr => { fr with refills := fr.refills.map fun y => if y = r then f y else y }
/-- Step 1 of R124: the location holds no frame, or one that is an eligible victim but for SPILLED. -/
def State.refillFree (s : State) (c : Nat) (r : Refill) : Bool :=
  let d := (s.core c).dir r.u
  !d.reserved && !d.refill && d.spilled && d.sgen = fpGen r.fp && (!d.alloc || s.idleFrame c r.u)
/-- Step 2 of R124: REFILL is set and a free location leaves its free list. -/
def State.refillStart (s : State) (c : Nat) (r : Refill) : State :=
  let d := (s.core c).dir r.u
  let s := (s.modRefill c r fun y => { y with started := true }).modDir c r.u fun d => { d with refill := true }
  if d.alloc then s else s.modFr c fun fr => { fr with free := mmod [] d.cls.toNat (fun l => l.erase r.u) fr.free }
/-- Step 4 of R124: the reads of the record and its tags. -/
def State.refillRead (s : State) (c : Nat) (r : Refill) : State :=
  let n := frameSize ((s.core c).dir r.u).cls.toNat
  let len := n + n / 32
  let a := s.spillAddr c r.u
  let s := s.modRefill c r fun y => { y with reading := true, need := len }
  if s.badAddr a then s.refuse ⟨c, r.lid, (s.launch r.lid).sid, 0⟩ a
  else s.each (cutAt 64 (len + 1) 0 len) fun s q =>
    (s.send ⟨c, r.lid, (s.launch r.lid).sid, 0⟩ (a + wd q.1) 0 (false, 0) false none [] (.read (a + wd q.1) q.2 .data (.refill r.u q.1))).2
/-- A request whose frame another's refill has brought back already queues its token at once. -/
def State.refillServed (s : State) (c : Nat) : State :=
  match (s.core c).fr.refills.find? fun r => !r.started && !r.forPin && ((s.core c).dir r.u).alloc && !((s.core c).dir r.u).reserved &&
      ((s.core c).dir r.u).gen = fpGen r.fp with
  | none => s
  | some r =>
    (s.modFr c fun fr => { fr.refilled r.lid with refills := fr.refills.filter fun y => y ≠ r }).fireToken c
      r.word r.prio { fp := s.residentFp c r.u, pos := r.entry }
/-- A refill request at its home, checked as every frame-addressed packet is (R123): one whose frame is neither resident nor
spilled any more, as an `ffree` leaves it (R269), is stale, and the refill it was announced as is over (R318). It carries no
count: DETAIL has 0 there (log 77). -/
def State.refillArrive (s : State) (c : Nat) (f : Word) (e : BitVec 32) (prio w : Nat) (p : Packet) : State :=
  let x := s.core c
  let d := x.dir (fpUnit f)
  let named := !fpMalformed x f && x.lids.contains d.lid && (s.launch d.lid).sid = p.sid
  if named && ((d.alloc && d.gen = fpGen f) || (d.spilled && d.sgen = fpGen f)) then
    s.modFr c fun fr => { fr with refills :=
      fr.refills ++ [({ u := fpUnit f, fp := f, entry := e, prio := prio, word := w, lid := p.lid } : Refill)] }
  else (s.modFr c fun fr => fr.refilled p.lid).stale c f w 0 p
/-- REFILL_REQUEST (R124 steps 1 to 4): a request arrives; the first that can start does; the first whose forwarded signals
are all acknowledged has its record read. -/
def execRefillRequest (core : Nat) (s : State) : Out :=
  needCore core <|
  let s := match (s.core core).first isRefill with
    | some (p, rest) =>
      let s := s.modCore core fun x => x.took rest
      match p.body with
      | .refill f e prio w => s.refillArrive core f e prio w p
      | _ => s
    | none => s
  let s := s.refillServed core
  let s := match (s.core core).fr.refills.find? fun (r : Refill) => !r.started && s.refillFree core r with
    | some r => s.refillStart core r
    | none => s
  .next (match (s.core core).fr.refills.find? fun (r : Refill) => r.started && !r.reading && mget 0 (s.core core).fr.fwds r.u = 0 with
    | some r => s.refillRead core r
    | none => s)
def isRefillData (p : Packet) : Bool := match replyCont p with
  | some (.refill _ _) => true
  | _ => false
/-- REFILL_READ_COMPLETE (R124 step 4): bytes of the record reach the spill buffer. -/
def execRefillReadComplete (core : Nat) (s : State) : Out :=
  onPacket s core isRefillData fun p s =>
    let s := s.settle core p.id
    match replyCont p, replyData p with
    | some (.refill u off), some bs => s.modFr core fun fr => { fr with refills := fr.refills.map fun r =>
        if r.u = u && r.lid = p.lid && r.reading then { r with need := r.need - bs.length, buf := writeMap r.buf off (whole bs) } else r }
    | _, _ => s
/-- REFILL_INSTALL (R124 steps 5 to 8): an occupant is spilled once it is eligible; the frame is written back with its
tags and generation, which serves the deferred requests on its words; held packets are applied; the token is queued, or held where the
debugger watches its slot (R340), but for `fpin`. -/
def execRefillInstall (core : Nat) (s : State) : Out :=
  needCore core <|
  match (s.core core).fr.refills.find? fun r => r.reading && r.need = 0 &&
      (!((s.core core).dir r.u).alloc || s.idleFrame core r.u) with
  | none => .next s
  | some r =>
    let d := (s.core core).dir r.u
    let n := frameSize d.cls.toNat
    let s := if d.alloc then s.spill core r.u else s.modDir core r.u fun d => { d with spilled := false }
    let tag := fun (w b : Nat) => (mget 0 r.buf (n + w / 4)).toNat.testBit (2 * (w % 4) + b)
    let s := s.modCore core fun x => (List.range (n / 8)).foldl (fun x w => (x.setF (8 * r.u + w) (tag w 0)).setP (8 * r.u + w) (tag w 1))
      (x.writeScr (64 * r.u) (whole (readMap r.buf 0 n)) false)
    let s := s.modDir core r.u fun y => { y with gen := fpGen r.fp, alloc := true, pin := r.pin, refill := false, lid := d.slid, touch := s.acyc }
    let s := (s.modFr core fun fr => { fr with refills := fr.refills.filter fun y => y ≠ r }).serveAll core (8 * r.u) (n / 8)
    let s := (s.applyHeld core r.u).event core (s.launch d.slid).sid 10 1
    if r.forPin then .next s
    else .next ((s.modFr core fun fr => fr.refilled r.lid).fireToken core r.word r.prio
      { fp := s.residentFp core r.u, pos := r.entry })

end Sys2Proof.Machine
end

