-- ==== Sys2Proof/Machine/Commit.lean ====
section
/-! DEFINITION. Commit.lean: BLOCK_COMMIT (R30): the traps a block raises at its commit before any of its effects, what
holds it uncommitted, then its stores, its changes of tags, slots, frames and registers, its packets, and its engine and
matrix requests, each in head order; then its control outcome (R259-R265). -/

namespace Sys2Proof.Machine

/-! What the commit finds before any effect. -/

/-- What a check of the actions carries from one action to the next: words armed so far, owner words, stage tags, frames
freed. -/
structure Sim where
  slots : Map Word := []
  owner : Map Word := []
  tags : Map Nat := []
  freed : List Word := []
  deriving DecidableEq, Repr

/-- The owner word of a frame pointer (R205). -/
def ownerWord (f : Word) : Word := wd (2 ^ 63 + fpUnit f * 2 ^ 8 + (fpGen f).toNat)
/-- The frames that the block's own `falloc` heads take at this commit. -/
def Work.allocs (w : Work) (c : Nat) (p : BitVec 18) : List Word :=
  w.acts.filterMap fun a => match a.2 with
    | .falloc u cls gen => some (mkFp p c u (BitVec.ofNat 8 gen) cls)
    | _ => none
/-- Does the pointer name a resident frame, or a spilled one, of the issuing core (R269)? -/
def State.frameHere (s : State) (c : Nat) (f : Word) : Bool × Bool :=
  let x := s.core c
  let d := x.dir (fpUnit f)
  let ok := !fpMalformed x f && fpCore f = c && fpPkg f = s.pkg
  (ok && d.alloc && d.gen = fpGen f, ok && d.spilled && d.sgen = fpGen f)
/-- The trap an action raises at commit, or what it leaves for the next (R150, R172, R205, R243, R266, R269, R270). -/
def actTrap (s : State) (w : Work) (m : Sim) : Act → Except Trap Sim
  | .arm i n e p =>
    let v := mget (s.loadWord w s.cur.core (s.wordOff i)) m.slots i
    match armStep v n e p with
    | none => .error { cls := .frame }
    | some (v', _) => .ok { m with slots := mput i v' m.slots }
  | .put _ i _ _ _ =>
    if s.fullIn w s.cur.core (s.wordOff i / 8) then .ok m else .error { cls := .emptyWord, addr := wd i }
  | .vput _ i _ _ =>
    match (List.range 8).find? fun j => !s.fullIn w s.cur.core (s.wordOff (i + j) / 8) with
    | some j => .error { cls := .emptyWord, addr := wd (i + j) }
    | none => .ok m
  | .stage claim r k =>
    let off := r.toNat
    let ring := ringOf fun n => s.loadWord w s.cur.core (off + 8 * n)
    let key := off * 65536 + k.toNat
    let b := (s.loadBytes w s.cur.core (tagPlace off k.toNat).1 1).headD 0
    let t := mget (tagIn b (tagPlace off k.toNat).2) m.tags key
    let st := stageStep claim ring.outbound
    if !ring.ok off || ring.nslot < k.toNat || t ≠ st.1 then .error { cls := .stage, addr := r }
    else .ok { m with tags := mput key st.2 m.tags }
  | .accGet n =>
    let o := mget (mget 0 (s.core s.cur.core).owner n) m.owner n
    if bitOf o 63 && o ≠ ownerWord s.me.fp then .error { cls := .accumulator }
    else .ok { m with owner := mput n (ownerWord s.me.fp) m.owner }
  | .accGive n =>
    if mget (mget 0 (s.core s.cur.core).owner n) m.owner n ≠ ownerWord s.me.fp then .error { cls := .accumulator }
    else .ok { m with owner := mput n 0 m.owner }
  | .accUse n =>
    if mget (mget 0 (s.core s.cur.core).owner n) m.owner n ≠ ownerWord s.me.fp then .error { cls := .accumulator } else .ok m
  | .ffree f =>
    let x := s.core s.cur.core
    let h := s.frameHere s.cur.core f
    let mine := sameFrame f s.me.fp
    let others := x.tokens.any (fun t => sameFrame t.fp f) || x.hold.any (fun t => sameFrame t.fp f) ||
      x.tfps.any (fun p => sameFrame p.2 f) || (List.range 16).any fun k => k ≠ s.cur.unit && (x.ctx k).bound && sameFrame (x.ctx k).fp f
    if m.freed.any (sameFrame f) || !(h.1 || h.2 || (w.allocs s.cur.core s.pkg).any (sameFrame f)) then .error { cls := .frame }
    else if h.1 && x.deferredIn (fpUnit f) (x.dir (fpUnit f)).cls.toNat then .error { cls := .frame }
    else if others || (mine && w.ctl ≠ .endT) then .error { cls := .frame }
    else if h.1 && (List.range 8).any (fun n => mget (mget 0 x.owner n) m.owner n = ownerWord f) then .error { cls := .accumulator }
    else .ok { m with freed := f :: m.freed }
  | .fpin f | .funpin f =>
    let h := s.frameHere s.cur.core f
    if m.freed.any (sameFrame f) || !(h.1 || h.2 || (w.allocs s.cur.core s.pkg).any (sameFrame f)) then .error { cls := .frame } else .ok m
  | _ => .ok m
/-- The first commit trap of the actions, in head order, with its head (R33). -/
def actsTrap (s : State) (w : Work) (m : Sim) : List (Nat × Act) → Option (Nat × Trap)
  | [] => none
  | (k, a) :: t =>
    match actTrap s w m a with
    | .error e => some (k, e)
    | .ok m' => actsTrap s w m' t

/-- Close iterations at a line (R265): the next line and the loops left. -/
def iterate : Nat → List LoopEnt → Nat × List LoopEnt
  | 0, l => (0, l)
  | n + 1, l =>
    match l.getLast? with
    | none => (0, [])
    | some top =>
      if 1 < top.rem.toNat then (top.first.toNat, l.dropLast ++ [{ top with rem := top.rem - 1 }])
      else
        let l' := l.dropLast
        if (l'.getLast?.map (·.last)) = some top.last then iterate n l' else (top.last.toNat + 1, l')
/-- Where a block goes: it ends, resumes, needs a line fetched to be checked (with the loops left where it may go there),
traps, or goes on at a line. -/
inductive Next where
  | ends
  | resumes (pos : Option (BitVec 32))
  | fetch (line : Nat) (loops : List LoopEnt)
  | trap
  | line (n : Nat) (loops : List LoopEnt)
  deriving DecidableEq, Repr
/-- A transfer checked against the kind of its target and the loop stack (R259, R264). -/
def transfer (s : State) (t : Nat) (loops : List LoopEnt) : Next :=
  if s.myLaunch.clen ≤ t then .trap
  else match s.lineAt s.cur.core s.me.lid t with
    | none => .fetch t (popLoops t loops)
    | some img =>
      match enterLine t (lineKind img) loops with
      | none => .trap
      | some l => .line t l
/-- The control outcome of the block (R31, R265). -/
def outcome (s : State) (w : Work) : Next :=
  let loops := w.regs.loops
  let close := let r := iterate 3 loops; if r.1 < s.myLaunch.clen then Next.line r.1 r.2 else .trap
  match w.ctl with
  | .endT => .ends
  | .resume p => if s.recordOk w p then .resumes p else .trap
  | .jump t => transfer s t loops
  | .loopIn t push => transfer s t (loops ++ push.toList)
  | .next => close
  | .fall => if loops ≠ [] && (loops.getLastD {}).last.toNat = w.line then close else transfer s (w.line + 1) loops

/-- Does what the block's indivisible accesses read still stand (R147, R171, R237)? -/
def seenStill (s : State) (w : Work) : Bool := w.seen.all fun r => (s.core r.1).readScr r.2.1 r.2.2.length = r.2.2
/-- Do the entries of the block's `enq` heads that would wait still find room in the enqueue buffer (R169)? -/
def enqRoom (s : State) (w : Work) : Bool :=
  let ni := (s.core s.cur.core).ni
  ni.enqBuf.length + ni.pendBuffered [] w.acts ≤ 16
/-- Does the core still hold the reservations that the block's `launch` heads found (R273)? -/
def resvStill (s : State) (w : Work) : Bool :=
  (w.acts.filter fun a => match a.2 with
    | .launch _ _ _ _ => true
    | _ => false).length ≤ mget 0 (s.core s.cur.core).ni.resv s.me.lid.toNat
/-- Do the block's `rbar` heads still keep the limits they were checked against: no barrier of their size outstanding at the core,
and at most four (R274)? -/
def barsStill (s : State) (w : Work) : Bool :=
  let out := (s.core s.cur.core).ni.bars
  let mine := w.acts.filterMap fun p => match p.2 with
    | .rbar _ a b _ _ => some (a, b)
    | _ => none
  mine.isEmpty || (out.length + mine.length ≤ 4 && mine.all fun m => !out.any fun b => (b.lw, b.lh) = m)
/-- Does what a block's heads found of its core when they executed still stand? Another context's block may have committed since
(R30); where it does not stand, the block runs again (R29). -/
def foundStill (s : State) (w : Work) : Bool := seenStill s w && enqRoom s w && resvStill s w && barsStill s w
/-- The block runs again from its start, as if no head of it had executed yet: nothing of it is visible (R29). -/
def State.rerunBlock (s : State) (c k : Nat) : State :=
  let w := (s.ctx c k).work
  (s.discard c k).modCtx c k fun x => { x with work :=
    { active := true, line := w.line, image := w.image, k := headOf x.pos, regs := x.regs } }
/-- Does `ffree` wait for a refill of its frame, under way or asked for, or `fpin` for its spilled frame to be resident (R269,
R270)? An `fpin` of a resident frame that another block has reserved as the victim of a `falloc` waits as well, until that block
has committed, and its frame has been brought back, or is discarded (log 70). -/
def frameHold (s : State) (w : Work) (c : Nat) (f : Word) (pinning : Bool) : Bool :=
  let d := (s.core c).dir (fpUnit f)
  let mine := w.acts.any fun a => match a.2 with
    | .falloc u _ _ => u = fpUnit f
    | _ => false
  (d.spilled && d.sgen = fpGen f && (pinning || d.refill)) || (!pinning && (s.core c).fr.refills.any fun r => sameFrame r.fp f) ||
    (pinning && d.alloc && d.gen = fpGen f && d.reserved && !mine)
/-- What keeps a block uncommitted (R150, R203, R249, R269, R270). -/
def heldBack (s : State) (w : Work) : Bool :=
  let x := s.core s.cur.core
  let n := fun (f : Act → Bool) => (w.acts.filter fun a => f a.2).length
  8 < x.copyQ.length + n (fun a => match a with | .copy _ _ _ _ _ => true | _ => false) ||
  8 < x.mq.length + n (fun a => match a with | .matrix _ => true | _ => false) ||
  w.acts.any fun a => match a.2 with
    | .ffree f => frameHold s w s.cur.core f false
    | .fpin f => frameHold s w s.cur.core f true
    | _ => false

/-- An `fpin` of a spilled frame has its refill begin (R270). -/
def startPins (s : State) (w : Work) : State :=
  s.each w.acts fun s a => match a.2 with
    | .fpin f =>
      let x := s.core s.cur.core
      let d := x.dir (fpUnit f)
      if d.spilled && d.sgen = fpGen f && !(x.fr.refills.any fun r => sameFrame r.fp f) then
        s.modFr s.cur.core fun fr => { fr with refills := fr.refills ++ [{ u := fpUnit f, fp := x.asHome f, entry := 0, prio := 0, lid := d.slid, forPin := true }] }
      else s
    | _ => s

/-! The effects. -/

/-- The frame word an action names as its operand, and how many bytes it reads from there (R155). -/
def operandWord : Act → Option (Nat × Nat)
  | .put _ i ty _ _ => some (i, Ty.width ty)
  | .vput _ i _ _ => some (i, 64)
  | _ => none
/-- The frame words an action names as operands, as the block's stores leave them (R150). -/
def operandBytes (s : State) (w : Work) (a : Act) : List Byte := match operandWord a with
  | some (i, n) => s.loadBytes w s.cur.core (s.wordOff i) n
  | none => []
/-- The reads of operand words are accesses to their frame (R120). -/
def State.touchOperand (s : State) (c : Nat) (fp : Word) (a : Act) : State := match operandWord a with
  | some (i, n) => s.touchAt c (64 * fpUnit fp + 8 * i) n
  | none => s
/-- The destination frame words of an action: F := 0 at commit (R150). -/
def destWords : Act → List Nat
  | .get _ w _ _ _ | .own _ _ w _ _ | .amo _ _ _ _ _ w _ _ => [w]
  | .fe .ldfe _ _ w _ _ => [w]
  | .vget _ w _ _ | .csnap _ w _ _ => (List.range 8).map (· + w)
  | _ => []
/-- Free a frame (R120, R269). -/
def State.freeFrame (s : State) (c : Nat) (f : Word) : State :=
  let u := fpUnit f
  let d := (s.core c).dir u
  if d.alloc && d.gen = fpGen f then
    (s.modDir c u fun d => { d with alloc := false, pin := false, gen := d.gen + 1 }).modFr c fun fr => fr.push u
  else s.modDir c u fun d => { d with spilled := false }
/-- Pin a frame (R270). One that the block's own `falloc` has just spilled is brought back by a refill, and pinned then (log 70). -/
def State.pinFrame (s : State) (c : Nat) (f : Word) : State :=
  let x := s.core c
  let d := x.dir (fpUnit f)
  if d.alloc && d.gen = fpGen f then s.modDir c (fpUnit f) fun d => { d with pin := true }
  else if !(d.spilled && d.sgen = fpGen f) then s
  else if x.fr.refills.any fun r => sameFrame r.fp f then
    s.modFr c fun fr => { fr with refills := fr.refills.map fun r => if sameFrame r.fp f then { r with pin := true } else r }
  else s.modFr c fun fr =>
    { fr with refills := fr.refills ++ [{ u := fpUnit f, fp := x.asHome f, entry := 0, prio := 0, lid := d.slid, forPin := true, pin := true }] }
/-- The credit of a removed entry, to its sender's counter (R171). -/
def senderNode (v : Nat) : Node := ⟨BitVec.ofNat 18 (v / 2048), BitVec.ofNat 11 v, 0⟩
/-- Effects in place, after the stores and before the packets, in head order. -/
def actPlace (s : State) (o : Who) (fp : Word) (a : Act) : State :=
  let c := o.core
  match a with
  | .arm i n e p =>
    let off := 64 * fpUnit fp + 8 * i
    match armStep ((s.core c).scrWord off) n e p with
    | none => s
    | some (v, fires) =>
      let s := s.scrWrite c off (whole (wordBytes v)) false
      if fires then s.fire c (fpUnit fp) i v else s
  | .ffree f => s.freeFrame c f
  | .fpin f => s.pinFrame c f
  | .funpin f => s.modDir c (fpUnit f) fun d => if d.alloc && d.gen = fpGen f then { d with pin := false } else d
  | .fmtSet n v => s.modCore c fun x => { x with fmt := mset 0 n v x.fmt }
  | .sysw n v => if n = 10 && 16 ≤ v.toNat && v.toNat ≤ 31 then s.modLaunch o.lid fun l => { l with lhang := v.toNat } else s
  | .ctrCfg n v => s.modCore c fun x => { x with ctrCfg := mset 0 n (v &&& 0x80ffffff#64) x.ctrCfg }
  | .accGet n => s.modCore c fun x => { x with owner := mset 0 n (ownerWord fp) x.owner }
  | .accGive n => s.modCore c fun x => { x with owner := mset 0 n 0 x.owner }
  | .stage claim r k => (s.touchRing c r.toNat k.toNat).setSlotTag c r.toNat k.toNat (stageStep claim (s.ring c r.toNat).outbound).2
  | .deq q w k _ _ =>
    let d := s.queue c q
    let bs := (s.core c).readScr (d.entry d.head) (8 * k)
    let s := ((s.touchAt c (d.entry d.head) (8 * k)).touchAt c (d.sender d.head) 4).scrWrite c (64 * fpUnit fp + 8 * w) (whole bs) false
    s.scrWrite c (q + 14) (whole (natLe 2 (d.head + 1))) false
  | .gather d _ idx esz _ _ =>
    s.each idx.zipIdx fun s p =>
      if p.1 = 0xffff then
        match s.localAddr c d with
        | some (t, off) => s.scrWrite t (off + p.2 * esz) (whole (List.replicate esz 0)) false
        | none => s
      else s
  | _ => (destWords a).foldl (fun s w => s.setTag c ((64 * fpUnit fp + 8 * w) / 8) false) s

/-- The bytes that go with an action to its packets: a `deq`'s are the sender word of the entry it removes, read as it removes
it (R171); any other's are its operand bytes. -/
def placedBytes (s : State) (c : Nat) (bs : List Byte) : Act → List Byte
  | .deq q _ _ _ _ => (s.core c).readScr ((s.queue c q).sender (s.queue c q).head) 4
  | _ => bs

/-- The pieces of at most 64 bytes that element j of a gather or scatter is served in (R157, R237). -/
def elemPieces (esz : Nat) : List (Nat × Nat) :=
  if esz ≤ 64 then [(0, esz)] else (List.range (esz / 64)).map fun k => (64 * k, 64)
/-- A form of a block completes as its block commits, with no request: its completion signal, behind what the threadlet's earlier
fences wait for (R156, R157, R225, R232). -/
def State.done (s : State) (o : Who) (fp : Word) (w : Nat) (p : PktMod) : State :=
  (s.noteCheck o.core).signal o.core fp w
    { src := coreNode s o.core, sid := o.sid, lid := o.lid, thr := o.thr, slack := slackOf (s.env o.core) p.urg }
    ((s.core o.core).ni.fenced o.thr)
/-- Send the requests of a gather or scatter: each waits for all the pieces of the earlier elements at its element's address
(R157). Each element is one request of event 6 (R341), in however many pieces it is served. -/
def sendElems (s : State) (o : Who) (fp : Word) (b : Word) (loc : Nat × Nat) (src : List Byte) (idx : List Nat) (esz : Nat)
    (p : PktMod) (sf : SlotField) (isGather : Bool) : State :=
  let els := idx.zipIdx.filter fun e => e.1 ≠ 0xffff
  let reqs := (els.map fun e => (elemPieces esz).map fun q => (e, b + wd (e.1 * esz + q.1), loc.2 + e.2 * esz + q.1, q.2)).flatten
  if reqs.isEmpty then
    match slotOf sf with
    | some w => s.done o fp w p
    | none => s
  else
    let (g, s) := s.fresh
    let s := s.modNi o.core fun ni => { ni with groups := ni.groups ++ [⟨g, reqs.length, false, fp, slotOf sf, ni.fenced o.thr⟩] }
    (reqs.foldl (fun (acc : State × List ((Nat × Nat) × Nat)) q =>
      let r := q.2
      let s := if r.2.1 = loc.2 + q.1.2 * esz && !acc.1.badAddr r.1 then acc.1.splitSent o else acc.1
      let dup := (acc.2.filter fun e => e.1.1 = q.1.1 && e.1.2 < q.1.2).map (·.2)
      let res := if isGather then
          s.hand o r.1 p.urg sf.fresh false none [] (.elem g loc.1 r.2.1) (.read r.1 r.2.2 .data (.elem g loc.1 r.2.1))
        else
          s.hand o r.1 p.urg sf.fresh true none dup (.elem g loc.1 r.2.1)
            (.write r.1 (whole ((src.drop (r.2.1 - loc.2)).take r.2.2)) (.elem g loc.1 r.2.1))
      (res.2, acc.2 ++ [(q.1, res.1)])) (s, [])).1

/-- Send a packet of a block that has no reply, with the fresh slack and the class its head asks for (R289). -/
def State.sent (s : State) (o : Who) (dst : Node) (slack : BitVec 10) (fr : Bool × BitVec 4) (wait : List Nat) (b : Body) : State :=
  s.postAs o dst slack fr wait b
/-- The packets of an action (R30): its operand bytes were read before any effect of the block. A fence's own wait begins
behind the block (`actFence`). -/
def actPacket (s : State) (o : Who) (fp : Word) (bs : List Byte) (a : Act) : State :=
  let l := s.env o.core
  let c := o.core
  match a with
  | .sig f urg w n d rel =>
    (if rel.isSome then s.splitSent o else s).sent o (fpNode f) (slackOf l urg) (false, urg) (match rel with | some sc => s.unacked c sc | none => []) (.sig f w n d)
  | .spawn t args urg cls prio e => s.sent o ⟨s.pkg, BitVec.ofNat 11 t, 0⟩ (slackOf l urg) (false, urg) [] (.spawn args cls prio e fp)
  | .tspawn args e =>
    s.sent o ⟨s.pkg, BitVec.ofNat 11 (cornerOf (groupOf c)), 0⟩ 0 (false, 0) [] (.task [⟨e, o.sid, o.lid, args ++ List.replicate (6 - args.length) 0⟩])
  | .launch a urg slot fresh =>
    let s := s.sent o (ioNode s.pkg) (slackOf l urg) (fresh, urg) [] (.launch a ((s.launch o.lid).depth + 1) c fp slot o.lid)
    s.modNi c fun ni => { ni with resv := mmod 0 o.lid.toNat (· - 1) ni.resv, children := mmod 0 o.lid.toNat (· + 1) ni.children }
  | .rbar p lw lh slot fresh =>
    let r := s.launch o.lid
    let corner := coreAt (r.ox + (cxOf c - r.ox) / 2 ^ lw * 2 ^ lw) (r.oy + (cyOf c - r.oy) / 2 ^ lh * 2 ^ lh)
    let s := s.modNi c fun ni => { ni with bars := ni.bars ++ [⟨o.lid, lw, lh, fp, slot⟩] }
    s.sent o ⟨s.pkg, BitVec.ofNat 11 corner, 0⟩ (slackOf l p.urg) (fresh, p.urg) (s.unacked c p.scope) (.bara lw lh corner)
  | .get a w ty p sf =>
    (s.request o a p.urg sf.fresh false none [] (.word fp w ty (slotOf sf)) (.read a (Ty.width ty) .data (.word fp w ty (slotOf sf)))).2
  | .put a _ _ p sf => (s.request o a p.urg sf.fresh true none [] (.slot fp (slotOf sf)) (.write a (whole bs) (.slot fp (slotOf sf)))).2
  | .vget a w p sf => (s.request o a p.urg sf.fresh false none [] (.block fp w (slotOf sf)) (.read a 64 .data (.block fp w (slotOf sf)))).2
  | .vput a _ p sf => (s.request o a p.urg sf.fresh true none [] (.slot fp (slotOf sf)) (.write a (whole bs) (.slot fp (slotOf sf)))).2
  | .gather d b idx esz p sf =>
    match s.localAddr c d with
    | some loc => sendElems s o fp b loc [] idx esz p sf true
    | none => s
  | .scatter b src idx esz p sf => sendElems s o fp b (c, 0) src idx esz p sf false
  | .amsg t a args prio p e => (s.splitSent o).sent o ⟨s.pkg, BitVec.ofNat 11 t, 0⟩ (slackOf l p.urg) (false, p.urg) [] (.amsg a args prio e fp)
  | .own m cc w p sf =>
    let k := Cont.ownHdr fp w (slotOf sf) m cc p sf.fresh
    (s.request o m p.urg sf.fresh false none [] k (.read m 64 .data k)).2
  | .fe op a v w p sf =>
    let k := if op = .ldfe then Cont.word fp w .s64 (slotOf sf) else .slot fp (slotOf sf)
    let wait := if op = .stef || op = .tagf then s.unacked c p.scope else []
    (s.request o a p.urg sf.fresh (op ≠ .ldfe) none wait k (.fe op a v k)).2
  | .amo op ty a v cmp w p sf =>
    (s.request o a p.urg sf.fresh true none [] (.word fp w ty (slotOf sf)) (.amo op ty a v cmp (.word fp w ty (slotOf sf)))).2
  | .red op ty a v p =>
    let region := !onChip a && artBit l a 21
    let wait := if region then ((s.core c).ni.outs.filter fun q => q.isRed && q.slice = some (sliceOf l a) && addrPkg q.addr = addrPkg a).map (·.id) else []
    (s.request o a p.urg false true (if region then some (artScope l a) else none) wait (.slot fp none)
      (.red op ty a v region (.slot fp none))).2
  | .csnap a w p sf => (s.request o a p.urg sf.fresh true none [] (.block fp w (slotOf sf)) (.csnap a (.block fp w (slotOf sf)))).2
  | .enq q ws p slot fresh => s.enqueue o q ws p fp slot fresh
  | .deq q _ _ p fresh =>
    let pk := mkPkt (coreNode s c) (senderNode (leNat bs)) o.sid o.lid o.thr 0 0 (.credit (wd ((baseOf s.pkg c).toNat + q)))
    (s.splitSent o).sendOrHold c (pk.withFresh l fresh p.urg) ((s.core c).ni.fenced o.thr)
  | _ => s
/-- The engine and matrix requests of an action (R30, R150, R156, R203). A matrix request is outstanding at the core, an
`acc.st` at the scratch it writes, until it completes (R165, R166). A copy is outstanding at its destination: whether a fence
waits for one of which only the source lies within its scope R165 and R166 leave open (log 71). -/
def actEngine (s : State) (o : Who) (fp : Word) (a : Act) : State :=
  match a with
  | .copy d src n p sf =>
    if n = 0 then
      match slotOf sf with
      | some w => s.done o fp w p
      | none => s
    else
      let (id, s) := (s.splitSent o).fresh
      let out : Outst := { id := id, thr := o.thr, lid := o.lid, addr := d, isWrite := true, len := n,
                           slice := if onChip d then none else some (sliceOf (s.env o.core) d) }
      let s := s.modNi o.core fun ni => { ni with outs := ni.outs ++ [out] }
      let t : Xfer :=
        { id := id, src := src, dst := d, len := n, urg := p.urg, scope := p.scope, lid := o.lid, sid := o.sid,
          thr := o.thr, fp := fp, slot := slotOf sf, fresh := sf.fresh, wait := (s.core o.core).ni.fenced o.thr }
      s.modCore o.core fun x => { x with copyQ := x.copyQ ++ [t] }
  | .matrix m =>
    let (id, s) := s.fresh
    let at_ := (s.localAddr o.core (if m.form = .accSt then m.addr else 0)).getD (o.core, 0)
    let s := s.modCore o.core fun x => { x with mq := x.mq ++ [{ m with id := id, wait := x.ni.fenced o.thr }] }
    let out : Outst := { id := id, thr := o.thr, lid := o.lid, addr := baseOf s.pkg at_.1 + wd at_.2, isWrite := m.form = .accSt }
    s.modNi o.core fun ni => { ni with outs := ni.outs ++ [out] }
  | .tile c off bs p slot =>
    let s := s.scrWrite c off (whole bs) false
    match slot with
    | some w => s.done o fp w p
    | none => s
  | _ => s
/-- The identifiers that the requests of a block's heads took: a head, and the last identifier before its own and its last. -/
abbrev Taken := List (Nat × Nat × Nat)
/-- Carry out an action of a head, noting the identifiers it took. -/
def noting (f : State → Act → List Byte → State) (acc : State × Taken) (a : Nat × Act × List Byte) : State × Taken :=
  let s := f acc.1 a.2.1 a.2.2
  (s, acc.2 ++ [(a.1, acc.1.nextId, s.nextId)])
/-- Was a request sent before head k of the block whose first identifier follows `base`? -/
def Taken.before (t : Taken) (base k id : Nat) : Bool := id ≤ base || t.any fun r => r.1 < k && r.2.1 < id && id ≤ r.2.2
/-- A fence at head k begins (R165, R166): it makes the packets of the threadlet's later blocks wait for what is outstanding
now, the writes of the core or the requests of the threadlet, within its scope. The requests of the heads before it in its
own block count, those of the heads after it do not. -/
def actFence (s : State) (o : Who) (early : Nat → Bool) (a : Act) : State :=
  let begin_ := fun (ids : List Nat) => s.modNi o.core fun ni => { ni with fences := ni.fences ++ [⟨o.thr, ids.filter early⟩] }
  match a with
  | .fenceRel sc => begin_ (s.unacked o.core sc)
  | .fenceAcq sc => begin_ (((s.core o.core).ni.outs.filter fun q => q.thr = o.thr && s.within o.core sc q).map (·.id))
  | _ => s
/-- The words a block writes in a core, each once, in the order of its stores. -/
def storedWords (l : List PStore) : List (Nat × Nat) :=
  l.foldl (fun acc p => (wordsHit p.off p.bytes).foldl (fun acc w => if acc.contains (p.core, w) then acc else acc ++ [(p.core, w)]) acc) []
/-- The stores of a block take effect together, and only then are the deferred requests on their words served (R30, R116). -/
def State.applyStores (s : State) (l : List PStore) : State :=
  (s.each l fun s p => s.scrPut p.core p.off p.bytes p.mark).each (storedWords l) fun s q => s.serve q.1 q.2

/-- All the effects of a block but its control outcome (R30). -/
def State.applyBlock (s : State) (w : Work) : State :=
  let o := s.who
  let fp := s.me.fp
  let ops := w.acts.map fun a => (a.1, a.2, operandBytes s w a.2)
  let s := s.each w.acts fun s a => match a.2 with
    | .falloc u _ gen => s.takeFrame o.core u (BitVec.ofNat 8 gen) o.lid
    | _ => s
  let s := (s.each w.acts fun s a => s.touchOperand o.core fp a.2).applyStores w.stores
  let r := ops.foldl (fun acc a => (actPlace acc.1 o fp a.2.1, acc.2 ++ [(a.1, a.2.1, placedBytes acc.1 o.core a.2.2 a.2.1)])) (s, [])
  let s := r.1
  let ops := r.2
  let base := s.nextId
  let r := ops.foldl (noting fun s a bs => actPacket s o fp bs a) (s, [])
  let r := ops.foldl (noting fun s a _ => actEngine s o fp a) r
  let s := r.1.each w.acts fun s a => actFence s o (r.2.before base a.1) a.2
  let s := s.each w.acts fun s a => match a.2 with
    | .falloc u _ _ => s.applyHeld o.core u
    | _ => s
  (s.event o.core o.sid 1 1).modNi o.core fun ni =>
    { ni with counts := mmod {} o.lid.toNat (fun c => { c with worked := true }) ni.counts }

/-- After a commit that goes on: the debugger's STEP and the parking of a wave take the threadlet here (R331, R340). -/
def State.afterCommit (s : State) (c k : Nat) : State :=
  let x := s.ctx c k
  if !x.bound then s
  else if (s.core c).park then (s.park c k x.regs x.pos false false).getD s
  else if s.debugged x.lid && bitOf s.dist.dbgCtl 61 then
    (s.debugStop c k x.regs x.pos 3 false).getD (s.stopNote c x.fp true 3)
  else s

/-- The block commits and its threadlet goes on at a line with the loops left, and with what is still to be checked of it. -/
def State.commitTo (s : State) (w : Work) (core k n : Nat) (loops : List LoopEnt) (owed : Owed) : State :=
  ((s.applyBlock w).modCtx core k fun x =>
    { x with regs := w.regs.setLoops loops, pos := BitVec.ofNat 32 (n * 32), owed := owed, work := {} }).afterCommit core k

/-- BLOCK_COMMIT (R30): a block whose indivisible reads no longer stand, or that no longer finds the room, the reservations or the
barriers its heads found, runs again. A record that its `tresume` refuses is an execution trap, which comes before those that the
commit finds (R33, R277); of these a trap is the one of the lowest head, so where a transfer's line must be fetched to be
checked, it is fetched before a later head's trap is taken. The traps are looked for before a full queue holds the block back, an
owner word's among them, which R203 and R205 leave open (log 45). On a core that a wave has stopped no line arrives any more, and the
block commits all the same: its transfer is checked when the threadlet goes on (R331; log 57). -/
def execBlockCommit (core k : Nat) (s : State) : Out :=
  needCtx core k <|
  let s := { s with cur := ⟨core, k⟩ }
  let w := s.work
  if !w.active then .next s
  else if !foundStill s w then .next (s.rerunBlock core k)
  else
    let h := (lineHdr w.image).h
    let nxt := outcome s w
    let ctlHead := if w.ctl = .fall then h - 1 else w.ctlHead
    let tr := if s.resumeBad w then some (ctlHead, ({ cls := .control } : Trap)) else match actsTrap s w {} w.acts, nxt with
      | some (n, t), .trap => if ctlHead < n then some (ctlHead, ({ cls := .control } : Trap)) else some (n, t)
      | some (n, t), .fetch _ _ => if ctlHead < n && !(s.core core).frozen then none else some (n, t)
      | some p, _ => some p
      | none, .trap => some (ctlHead, { cls := .control })
      | none, _ => none
    match tr with
    | some (n, t) => .next (s.takeTrap core k t n)
    | none =>
      match nxt with
      | .fetch n loops =>
        if (s.core core).frozen && heldBack s w then .next (startPins s w)
        else if (s.core core).frozen then .next (s.commitTo w core k n loops .transfer)
        else .next (s.fetchLine core s.me.lid n)
      | .trap => .next s
      | .ends => if heldBack s w then .next (startPins s w) else .next ((s.applyBlock w).endThread core k)
      | .resumes p =>
        if heldBack s w then .next (startPins s w)
        else
          let s := (s.applyBlock w).resume core k p
          let s := match p with
            | some q => s.modCtx core k fun x =>
              { x with regs := x.regs.setLoops (popLoops (lineOf q) x.regs.loops),
                       owed := if (s.lineAt core x.lid (lineOf q)).isNone then .resume else .no }
            | none => s
          .next (s.afterCommit core k)
      | .line n loops =>
        if heldBack s w then .next (startPins s w)
        else .next (s.commitTo w core k n loops .no)

end Sys2Proof.Machine
end

