-- ==== Sys2Proof/Machine/Control.lean ====
section
/-! DEFINITION. Control.lean: the heads of control, threadlet, frame and system instructions (R144, R258-R281). What takes
effect at commit is left as an action of the block (Commit.lean). -/

namespace Sys2Proof.Machine

/-! Outcomes and targets (R260-R265). -/

def execEndT (g : Guard) (s : State) : Out := runHead s g fun w => takeCtl w .endT
/-- `next` needs an active loop (R260). -/
def execNext (g : Guard) (s : State) : Out :=
  runHead s g fun w => check (w.regs.depth ≠ 0) .control 0 (takeCtl w .next)
def execNop (g : Guard) (s : State) : Out := runHead s g fun w => .ok w

/-- A branch on a condition over the working copy's registers (R261). -/
def branch (s : State) (g : Guard) (d : BitVec 32) (c : Regs → Bool) : Out :=
  runHead s g fun w => if c w.regs then jumpTo s w (target w d) else .ok w
def execBEq (g : Guard) (a b : XReg) (d : BitVec 32) (s : State) : Out := branch s g d fun r => r.rx a = r.rx b
def execBNe (g : Guard) (a b : XReg) (d : BitVec 32) (s : State) : Out := branch s g d fun r => r.rx a ≠ r.rx b
def execBLt (g : Guard) (a b : XReg) (d : BitVec 32) (s : State) : Out := branch s g d fun r => (r.rx a).slt (r.rx b)
def execBGe (g : Guard) (a b : XReg) (d : BitVec 32) (s : State) : Out := branch s g d fun r => !(r.rx a).slt (r.rx b)
def execBLtu (g : Guard) (a b : XReg) (d : BitVec 32) (s : State) : Out := branch s g d fun r => (r.rx a).ult (r.rx b)
def execBGeu (g : Guard) (a b : XReg) (d : BitVec 32) (s : State) : Out := branch s g d fun r => !(r.rx a).ult (r.rx b)
def execBLtz (g : Guard) (a : XReg) (d : BitVec 32) (s : State) : Out := branch s g d fun r => (r.rx a).msb
def execBGez (g : Guard) (a : XReg) (d : BitVec 32) (s : State) : Out := branch s g d fun r => !(r.rx a).msb
def execBqAny (g : Guard) (a : QReg) (d : BitVec 32) (s : State) : Out := branch s g d fun r => r.rq a ≠ 0
def execBqAll (g : Guard) (a : QReg) (d : BitVec 32) (s : State) : Out := branch s g d fun r => r.rq a = 0xffff

/-- The virtual address of the line after the head's own (R262). -/
def linkAddr (s : State) (w : Work) : Word := s.myLaunch.code + wd (64 * (w.line + 1))
def execJal (g : Guard) (d : XReg) (disp : BitVec 32) (s : State) : Out :=
  runHead s g fun w => jumpTo s { w with regs := w.regs.wx d (linkAddr s w) } (target w disp)
/-- `jr` takes an address of the segment, a multiple of 64 (R262). -/
def execJr (g : Guard) (a : XReg) (s : State) : Out :=
  runHead s g fun w =>
    let v := (w.regs.rx a).toNat
    let code := s.myLaunch.code.toNat
    check (v % 64 = 0 && code ≤ v && v < code + 64 * s.myLaunch.clen) .control 0 <|
      jumpTo s w (((v - code) / 64 : Nat) : Int)

/-- A loop instruction with count n (R263). -/
def loopHead (s : State) (w : Work) (n : Nat) (disp : BitVec 32) : HeadRes :=
  let last := target w disp
  let top := w.regs.loops.getLastD {}
  check (1 ≤ disp.toInt && last < s.myLaunch.clen && w.regs.depth < 2) .control 0 <|
  check (w.regs.depth = 0 || (top.first.toNat ≤ w.line + 1 && last ≤ top.last.toNat)) .control 0 <|
  if n = 0 then check (last + 1 < s.myLaunch.clen) .control 0 (takeCtl w (.loopIn (last + 1).toNat none))
  else takeCtl w (.loopIn (w.line + 1)
    (some ⟨BitVec.ofNat 27 (w.line + 1), BitVec.ofNat 27 last.toNat, BitVec.ofNat 32 n⟩))
def execLoop (g : Guard) (c : XReg) (disp : BitVec 32) (s : State) : Out :=
  runHead s g fun w => check ((w.regs.rx c).toNat < 2 ^ 32) .control 0 (loopHead s w (w.regs.rx c).toNat disp)
def execLoopi (g : Guard) (n : Half) (disp : BitVec 32) (s : State) : Out :=
  runHead s g fun w => loopHead s w n.toNat disp

/-! Arming and signalling (R266, R267). -/

/-- The count of `sarm` is exact: x[C] + i; above 32,767 it raises the frame trap (R266). -/
def execSarm (g : Guard) (prio : BitVec 2) (c : XReg) (i : BitVec 5) (word : FWord) (entry : BitVec 32) (s : State) : Out :=
  runHead s g fun w =>
    check (word.toNat < s.myWords) .index (wd word.toNat) <|
    check ((w.regs.rx c).toNat + i.toNat ≤ 32767) .frame 0 <|
      .ok (w.act (.arm word.toNat ((w.regs.rx c).toNat + i.toNat) entry prio.toNat))
/-- The slot word and the data words of a signal lie in the frame that f's CLASS gives (R267). -/
def sigCheck (f : Word) (w last : Nat) (k : HeadRes) : HeadRes :=
  check (w < frameWords (fpCls f)) .index (wd w) <| check (last < frameWords (fpCls f)) .index (wd last) k
def execSig (g : Guard) (f : XReg) (urg : BitVec 4) (w : FWord) (n : BitVec 8) (s : State) : Out :=
  runHead s g fun k => sigCheck (k.regs.rx f) w.toNat w.toNat <|
    .ok (k.act (.sig (k.regs.rx f) urg w.toNat n.toNat .none none))
def execSigw (g : Guard) (f v : XReg) (urg : BitVec 4) (w : FWord) (n : BitVec 8) (d : FWord) (s : State) : Out :=
  runHead s g fun k => sigCheck (k.regs.rx f) w.toNat d.toNat <|
    .ok (k.act (.sig (k.regs.rx f) urg w.toNat n.toNat (.word d.toNat (k.regs.rx v) (k.regs.mark v)) none))
def execSigv (g : Guard) (f : XReg) (v : VReg) (urg : BitVec 4) (w : FWord) (n : BitVec 8) (d : FWord) (s : State) : Out :=
  runHead s g fun k => sigCheck (k.regs.rx f) w.toNat (d.toNat + 7) <|
    .ok (k.act (.sig (k.regs.rx f) urg w.toNat n.toNat (.vec d.toNat (k.regs.rv v)) none))

/-! Frames (R268-R270). -/

/-- `falloc` chooses and reserves its location when it executes; the location is taken at commit (R268). -/
def execFalloc (g : Guard) (d : XReg) (cls : BitVec 2) (s : State) : Out :=
  runHeadS s g fun w =>
    match s.chooseFrame s.cur.core cls.toNat with
    | none => trapAt .frame 0
    | some (u, gen) =>
      .ok (s.reserveFrame s.cur.core u cls.toNat,
        { w with regs := w.regs.wxm d (mkFp s.pkg s.cur.core u gen cls.toNat) true }.act (.falloc u cls.toNat gen.toNat))
def execFfree (g : Guard) (f : XReg) (s : State) : Out := runHead s g fun w => .ok (w.act (.ffree (w.regs.rx f)))
def execFpin (g : Guard) (f : XReg) (s : State) : Out := runHead s g fun w => .ok (w.act (.fpin (w.regs.rx f)))
def execFunpin (g : Guard) (f : XReg) (s : State) : Out := runHead s g fun w => .ok (w.act (.funpin (w.regs.rx f)))

/-! Spawns, tasks, launches and barriers (R271-R274). -/

/-- x[C] names a core of the issuing launch's rectangle by its on-chip base (R271). -/
def execSpawn (g : Guard) (c a : XReg) (urg : BitVec 4) (cls prio : BitVec 2) (k : BitVec 4) (entry : BitVec 32) (s : State) : Out :=
  runHead s g fun w =>
    let t := w.regs.rx c
    check (t = baseOf s.pkg (addrCore t) && s.myLaunch.inRect (addrCore t)) .scratchProtection t <|
      .ok (w.act (.spawn (addrCore t) (w.regs.range a k.toNat) urg cls.toNat prio.toNat entry))
def execTspawn (g : Guard) (a : XReg) (k : BitVec 4) (entry : BitVec 32) (s : State) : Out :=
  runHead s g fun w => .ok (w.act (.tspawn (w.regs.range a k.toNat) entry))
/-- The pool reservations the core holds for the running launch (R273, R278). -/
def State.resvHeld (s : State) : Nat := mget 0 (s.core s.cur.core).ni.resv s.me.lid.toNat
/-- The reservations `launch` heads see, in head order (R273). -/
def State.resvLeft (s : State) (w : Work) : Nat := s.resvHeld - (w.acts.filter fun a => match a.2 with
  | .launch _ _ _ _ => true
  | _ => false).length
def execLaunch (g : Guard) (d a : XReg) (urg : BitVec 4) (sf : SlotField) (s : State) : Out :=
  runHead s g fun w =>
    wordsOk s (slotOf sf) none <|
    check (aligned (w.regs.rx a) 128) .alignment (w.regs.rx a) <|
      if s.myLaunch.depth = 7 || s.resvLeft w = 0 then .ok { w with regs := w.regs.wx d 1 }
      else .ok { w.act (.launch (w.regs.rx a) urg (slotOf sf) sf.fresh) with regs := w.regs.wx d 0 }
/-- The barriers the core has outstanding, those of the block's earlier heads among them (R274). -/
def State.barsOut (s : State) (w : Work) : List (Nat × Nat) :=
  ((s.core s.cur.core).ni.bars.map fun b => (b.lw, b.lh)) ++
    w.acts.filterMap fun p => match p.2 with
      | .rbar _ a b _ _ => some (a, b)
      | _ => none
def execRbar (g : Guard) (p : PktMod) (lw lh : BitVec 3) (sf : SlotField) (s : State) : Out :=
  runHead s g fun w =>
    wordsOk s (some sf.slot.toNat) none <|
    check (lw.toNat ≤ s.myLaunch.lw && lh.toNat ≤ s.myLaunch.lh && !(s.barsOut w).contains (lw.toNat, lh.toNat) &&
      (s.barsOut w).length < 4) .control 0 <|
      .ok (w.act (.rbar p lw.toNat lh.toNat sf.slot.toNat sf.fresh))

/-! Identity (R37, R254, R275). -/

def ceilDiv (a b : Nat) : Nat := if b = 0 then 0 else (a + b - 1) / b
/-- The share of one core along an axis (R254): total length, log₂ of the quantum, cores along the axis, position. -/
def share (total lq n pos : Nat) : Nat × Nat :=
  let p := 2 ^ lq * ceilDiv total (2 ^ lq * n)
  (pos * p, min p (total - pos * p))
/-- The identity register of an index on a core for a launch (R37). -/
def identity (s : State) (l : Launch) (c : Nat) (k : Nat) (fp : Word) (unit : Nat) (cf : Word) : Word :=
  let lx := cxOf c - l.ox
  let ly := cyOf c - l.oy
  let r := share (bits (l.w 13) 63 32) (bits (l.w 14) 63 59) l.height ly
  let q := share (bits (l.w 13) 31 0) (bits (l.w 14) 58 54) l.width lx
  match k with
  | 0 => wd (cxOf c) | 1 => wd (cyOf c) | 2 => wd l.ox | 3 => wd l.oy | 4 => wd l.width | 5 => wd l.height
  | 6 => wd lx | 7 => wd ly | 8 => wd r.2 | 9 => wd q.2 | 10 => wd r.1 | 11 => wd q.1 | 12 => fp
  | 13 => wd s.pkg.toNat | 14 => wd l.lid.toNat | 15 => wd l.sid.toNat | 16 => wd unit | _ => cf
def execRid (g : Guard) (d : XReg) (idx : BitVec 5) (s : State) : Out :=
  runHead s g fun w => check (idx.toNat ≤ 17) .illegal 0 <|
    .ok { w with regs := w.regs.wxm d (identity s s.myLaunch s.cur.core idx.toNat s.me.fp s.cur.unit (wd w.regs.cf.toNat))
                           (idx = 12) }

/-! Frame words (R144). -/

/-- WIDX plus the index register, exact; `x0` reads 0, so SRC1 = 0 adds nothing. -/
def frameIdx (w : Work) (i : XReg) (n : FWord) : Nat := n.toNat + (w.regs.rx i).toNat
def execFld (g : Guard) (d i : XReg) (n : FWord) (_ : LsId) (s : State) : Out :=
  runHeadS s g fun w =>
    let k := frameIdx w i n
    check (k < s.myWords) .index (wd k) <|
    check (s.fullIn w s.cur.core (s.wordOff k / 8)) .emptyWord (wd k) <|
      .ok (s.touchAt s.cur.core (s.wordOff k) 8,
        { w with regs := w.regs.wxm d (s.loadWord w s.cur.core (s.wordOff k)) (s.ptrIn w s.cur.core (s.wordOff k / 8)) })
def execFst (g : Guard) (i v : XReg) (n : FWord) (_ : LsId) (s : State) : Out :=
  runHead s g fun w =>
    let k := frameIdx w i n
    check (k < s.myWords) .index (wd k) <|
      .ok (w.store s.cur.core (s.wordOff k) (whole (wordBytes (w.regs.rx v))) (w.regs.mark v))
/-- The eight words of a `fldv` or `fstv` (R144). -/
def frameVec {α : Type} (s : State) (w : Work) (i : XReg) (n : FWord) (k : Nat → Except Trap α) : Except Trap α :=
  let j := frameIdx w i n
  check (j % 8 = 0 && j + 7 < s.myWords) .index (wd j) (k j)
/-- The enabled words of a vector access, lowest first. -/
def onWords (m : Half) : List Nat := (List.range 8).filter fun j => laneOn m true j
def execFldv (g : Guard) (d : VReg) (i : XReg) (n : FWord) (_ : LsId) (s : State) : Out :=
  headEndS s <|
    let w := s.work
    let m := w.regs.guard g
    if !anyLane true m then .ok (s, w)
    else frameVec s w i n fun k =>
      match (onWords m).find? fun j => !s.fullIn w s.cur.core (s.wordOff (k + j) / 8) with
      | some j => trapAt .emptyWord (wd (k + j))
      | none => .ok (s.touchAt s.cur.core (s.wordOff k) 64, { w with regs := w.regs.wv d (mapLanes true m (w.regs.rv d) fun j =>
          (s.loadWord w s.cur.core (s.wordOff (k + j))).toNat) })
/-- A `fstv` with every lane off is a null (R144). -/
def execFstv (g : Guard) (i : XReg) (v : VReg) (n : FWord) (_ : LsId) (s : State) : Out :=
  headEnd s <|
    let w := s.work
    let m := w.regs.guard g
    if !anyLane true m then .ok w
    else frameVec s w i n fun k => .ok ((onWords m).foldl (fun w j =>
      w.store s.cur.core (s.wordOff (k + j)) (whole (natLe 8 (getLane true (s.work.regs.rv v) j))) false) w)

/-! Traps and the debugger (R276, R277). -/

def execTrap (g : Guard) (code : Half) (s : State) : Out :=
  runHead s g fun _ => .error { cls := .software, code := code }
/-- `brk` stops the threadlet at block start while the debugger has BRK set for its launch; else it has no effect. -/
def execBrk (g : Guard) (code : Half) (s : State) : Out :=
  if s.work.regs.on g && s.debugged s.me.lid && bitOf s.dist.dbgCtl 62 then
    let s' := s.discard s.cur.core s.cur.unit
    match s'.debugStop s.cur.core s.cur.unit s.me.regs s.me.pos (2 + 16 * code.toNat) false with
    | some s'' => .next s''
    | none => headDone (s.stopNote s.cur.core s.me.fp true 2) s.work
  else headDone s s.work
/-- `tresume` (R277): only in a handler; a position in x[P] names a line of kind 0b10 with head 0. A line the core does not
hold is fetched first; on a core that a wave has stopped none arrives any more, and the line is checked when the threadlet goes
on (R331; log 57). The record is checked against what the block's stores leave of it: against those of all its heads at the
commit (`recordOk`), against those so far where a later head traps (`headTrapOf`). -/
def execTresume (g : Guard) (p : XReg) (s : State) : Out :=
  let w := s.work
  if !w.regs.on g then headDone s w
  else if !s.me.handler then headTrap s { cls := .control }
  else if p = 0 then headEnd s (takeCtl w (.resume none))
  else
    let pos := (w.regs.rx p).extractLsb' 0 32
    if (w.regs.rx p).toNat ≥ 2 ^ 32 || headOf pos ≠ 0 || s.myLaunch.clen ≤ lineOf pos then headTrap s { cls := .control }
    else match s.lineAt s.cur.core s.me.lid (lineOf pos) with
      | none =>
        if (s.core s.cur.core).frozen then headEnd s (takeCtl w (.resume (some pos)))
        else .next (s.fetchLine s.cur.core s.me.lid (lineOf pos))
      | some img =>
        if lineKind img ≠ 2 then headTrap s { cls := .control } else headEnd s (takeCtl w (.resume (some pos)))

/-! System registers and counters (R278, R279). -/

/-- The power level of a supergroup (R309). -/
def State.level (s : State) (g : Nat) : Nat := mget 15 s.dist.levels g
/-- Four 16-bit counts in one word, class 3 highest, each saturating (R278). -/
def classCounts (f : Nat → Nat) : Word := wd (((List.range 4).map fun p => min (f p) 65535 * 65536 ^ p).sum)
def sysRead (s : State) (w : Work) (n : Nat) : Word :=
  let x := s.core s.cur.core
  match n with
  | 0 => wd w.regs.cf.toNat
  | 1 => wd (s.acyc - x.upAt)
  | 2 => wd (s.level (sgpOf s.cur.core))
  | 3 => classCounts fun p => (mget [] x.ready p).length
  | 4 => wd s.myLaunch.depth
  | 5 => wd s.resvHeld
  | 8 => wd (((List.range 16).map fun k => b2n (x.ctx k).bound * 2 ^ k).sum)
  | 9 => classCounts fun p => (mget [] x.fr.free p).length
  | _ => wd s.myLaunch.lhang
def sysNumber (n : BitVec 5) : Bool := n.toNat ≤ 5 || (8 ≤ n.toNat && n.toNat ≤ 10)
def execSysr (g : Guard) (d : XReg) (n : BitVec 5) (s : State) : Out :=
  runHead s g fun w =>
    check (sysNumber n) .illegal 0 <|
    check (s.myLaunch.priv || n.toNat < 8) .privilege 0 <|
      .ok { w with regs := w.regs.wx d (sysRead s w n.toNat) }
/-- `sysw` of `cf` replaces the working copy's flags at once; of `lhang` it takes effect at commit; of a read-only register
by a privileged launch it is ignored (R278). -/
def execSysw (g : Guard) (n : BitVec 5) (v : XReg) (s : State) : Out :=
  runHead s g fun w =>
    check (sysNumber n) .illegal 0 <|
    check (s.myLaunch.priv || n = 0) .privilege 0 <|
      if n = 0 then .ok { w with regs := { w.regs with cf := (w.regs.rx v).extractLsb' 0 7 } }
      else .ok (w.act (.sysw n.toNat (w.regs.rx v)))
/-- A counter reads 0 to a launch of another space than its SID tag (R279). -/
def execCtrRd (g : Guard) (d : XReg) (n : BitVec 4) (s : State) : Out :=
  regHead s g fun r =>
    let x := s.core s.cur.core
    r.wx d (if bits (mget 0 x.ctrCfg n.toNat) 23 8 = s.mySid.toNat then mget 0 x.ctr n.toNat else 0)
def execCtrCfg (g : Guard) (n : BitVec 4) (v : XReg) (s : State) : Out :=
  runHead s g fun w => check s.myLaunch.priv .privilege 0 <| .ok (w.act (.ctrCfg n.toNat (w.regs.rx v)))

end Sys2Proof.Machine
end

