-- ==== Sys2Proof/Machine/Messages.lean ====
section
/-! DEFINITION. Messages.lean: packets a network interface acts on itself: active messages and spawns (R158, R271), queue
entries and credits (R169-R171), packets held by fences and releases (R61, R165-R167), and barriers (R274). -/

namespace Sys2Proof.Machine

/-! Handlers. -/

/-- Take a frame of a class for a launch, fill it and queue its token; none where no frame can be taken. -/
def State.startToken (s : State) (c cls : Nat) (lid : BitVec 32) (ws : List (Nat × Word × Bool)) (e : BitVec 32) (prio : Nat) : Option State :=
  match s.falloc c cls lid with
  | none => none
  | some (f, s) => some ((s.fillFrame c (fpUnit f) ws).queueToken c prio { fp := f, pos := e })
/-- The token a message or a spawn starts (R158, R271). -/
def State.startPacket (s : State) (c : Nat) (p : Packet) : Option State :=
  match p.body with
  | .amsg a args prio e fr => s.startToken c 0 p.lid (numbered 0 args ++ [(6, a, false), (7, fr, false)]) e prio
  | .spawn args cls prio e fr => s.startToken c cls p.lid (numbered 0 args ++ [(7, fr, false)]) e prio
  | _ => some s
/-- Start it now, or try again 64 A-cycles later (R158). -/
def State.startOrWait (s : State) (c : Nat) (p : Packet) : State :=
  match s.startPacket c p with
  | some s => s
  | none => s.modNi c fun ni => { ni with retry := ni.retry ++ [⟨p, s.acyc + 64⟩] }
def isAmsg (p : Packet) : Bool := match p.body with
  | .amsg _ _ _ _ _ => true
  | _ => false
def isSpawn (p : Packet) : Bool := match p.body with
  | .spawn _ _ _ _ _ => true
  | _ => false
/-- The first packet of a kind that is due is tried again. -/
def retryDue (c : Nat) (s : State) (f : Packet → Bool) : Out :=
  needCore c <|
  match takeDue s.acyc f (s.core c).ni.retry with
  | none => .next s
  | some (r, rest) => .next ((s.modNi c fun ni => { ni with retry := rest }).startOrWait c r.pkt)
/-- AMSG_ARRIVAL (R158). -/
def execAmsgArrival (core : Nat) (s : State) : Out := onPacket s core isAmsg fun p s => s.startOrWait core p
/-- AMSG_RETRY (R158). -/
def execAmsgRetry (core : Nat) (s : State) : Out := retryDue core s isAmsg
/-- A TCB runs in a class-0 frame: six argument words, the last two words empty (R272); none where no frame can be taken. -/
def State.startTcb (s : State) (c : Nat) (t : Tcb) : Option State := s.startToken c 0 t.lid (numbered 0 (t.args.take 6)) t.entry 0
/-- Run the first TCB that is due of those a core runs itself (R272). -/
def State.runOwn (s : State) (c : Nat) : State :=
  let l := (s.core c).ni.runs
  match l.findIdx? fun r => r.2 ≤ s.acyc with
  | none => s
  | some j =>
    match (l.getD j default) with
    | (t, _) =>
      match s.startTcb c t with
      | some s => s.modNi c fun ni => { ni with runs := ni.runs.eraseIdx j }
      | none => s.modNi c fun ni => { ni with runs := ni.runs.set j (t, s.acyc + 64) }
/-- SPAWN_ARRIVAL (R271); with no spawn packet there, a TCB that the core runs as a spawn to itself (R272). -/
def execSpawnArrival (core : Nat) (s : State) : Out :=
  needCore core <|
  match (s.core core).first isSpawn with
  | some (p, rest) => .next ((s.modCore core fun x => x.took rest).startOrWait core p)
  | none => .next (s.runOwn core)
/-- SPAWN_RETRY (R271). -/
def execSpawnRetry (core : Nat) (s : State) : Out :=
  needCore core <|
  if (takeDue s.acyc isSpawn (s.core core).ni.retry).isSome then retryDue core s isSpawn else .next (s.runOwn core)

/-! Queues. -/

/-- Why an arriving entry is discarded (R170), by the reason code of R327; none: it is written. -/
def State.entryBad (s : State) (c : Nat) (p : Packet) (off n : Nat) : Option Nat :=
  let d := s.queue c off
  let ok := fun (a k : Nat) => a + k ≤ 0x100000 && (s.core c).permits p.sid a k true
  if 0x100000 < off + 64 then some 3
  else if !d.valid then some 0
  else if n ≠ 8 * 2 ^ d.esz then some 1
  else if d.used = d.n then some 2
  else if ok off 64 && ok (d.entry d.tail) n && ok (d.sender d.tail) 4 then none else some 3
def isEntry (p : Packet) : Bool := match p.body with
  | .entry _ _ _ _ => true
  | _ => false
/-- ENQ_ENTRY_ARRIVAL (R170): the entry, its sender word and TAIL, then the notify and the sender's slot; or a QUEUE
fault, which ends the sender's launch where it is this package's. R168 bars no descriptor of NSCOPE 6 or 7, which R170 leaves
without a fault: it is taken as scope `sys` (log 60). -/
def execEnqEntryArrival (core : Nat) (s : State) : Out :=
  onPacket s core isEntry fun p s =>
    match p.body with
    | .entry q ws fp slot =>
      let off := addrOff q
      let s := s.touchAt core off 64
      match s.entryBad core p off (8 * ws.length) with
      | some r =>
        let s := s.packetRecord p (mkRec 12 0 p.sid p.lid (coreNode s core) q (wd r))
        if p.src.pkg = s.pkg then s.failLaunch p.lid else s
      | none =>
        let d := s.queue core off
        let s := s.scrWrite core (d.entry d.tail) (whole (ws.map wordBytes).flatten) false
        let s := s.scrWrite core (d.sender d.tail) (whole (natLe 4 (p.src.pkg.toNat * 2048 + p.src.core.toNat))) false
        let s := s.scrWrite core (off + 12) (whole (natLe 2 (d.tail + 1))) false
        let s := if d.nfp = 0 then s
          else s.post ⟨core, p.lid, p.sid, 0⟩ (fpNode d.nfp) (slackOf (s.env core) d.nurg)
            (s.unacked core ((scopeOfCode (BitVec.ofNat 3 d.nscope)).getD .sys)) (.sig d.nfp d.nword 1 .none)
        if slot.isSome then s.reply p (.ack (.slot fp slot) none) false else s
    | _ => s
/-- ENQ_BUFFER_RELEASE (R169): waiting entries leave in FIFO order while they have credits. -/
def execEnqBufferRelease (core : Nat) (s : State) : Out := needCore core (.next (s.enqDrain core 17))
def isCredit (p : Packet) : Bool := match p.body with
  | .credit _ => true
  | _ => false
/-- CREDIT_ARRIVAL (R171): one credit back to its queue's counter. -/
def execCreditArrival (core : Nat) (s : State) : Out :=
  onPacket s core isCredit fun p s => match p.body with
    | .credit q => s.modNi core fun ni =>
        { ni with credits := ni.credits.map fun k => if k.q = q then { k with count := k.count.map (· + 1) } else k }
    | _ => s

/-! Held packets. -/

/-- A reduction to a reduction region (R61). -/
def isRegionRed (p : Packet) : Bool := match p.body with
  | .red _ _ _ _ true _ => true
  | _ => false
/-- HELD_PACKET_RELEASE (R165-R167): packets leave once what they wait for has been acknowledged or completed. -/
def execHeldPacketRelease (core : Nat) (s : State) : Out := needCore core (.next (s.release core fun p => !isRegionRed p))
/-- RED_INJECT_RELEASE (R61). -/
def execRedInjectRelease (core : Nat) (s : State) : Out := needCore core (.next (s.release core isRegionRed))

/-! Barriers. -/

def isBara (p : Packet) : Bool := match p.body with
  | .bara _ _ _ => true
  | _ => false
def isBarc (p : Packet) : Bool := match p.body with
  | .barc _ _ => true
  | _ => false
/-- RBAR_ARRIVAL (R274): the corner counts; the last arrival resets the count and sends a completion to every core of the
sub-rectangle. -/
def execRbarArrival (core : Nat) (s : State) : Out :=
  onPacket s core isBara fun p s => match p.body with
    | .bara lw lh _ =>
      let key := fun (b : BarCnt) => b.lid = p.lid && b.lw = lw && b.lh = lh
      let n := (((s.core core).ni.barCnt.find? key).map BarCnt.n).getD 0 + 1
      let rest := (s.core core).ni.barCnt.filter fun b => !key b
      if n < 2 ^ (lw + lh) then s.modNi core fun ni => { ni with barCnt := rest ++ [⟨p.lid, lw, lh, n⟩] }
      else (s.modNi core fun ni => { ni with barCnt := rest }).each (rectCores (cxOf core) (cyOf core) (2 ^ lw) (2 ^ lh)) fun s t =>
        s.post ⟨core, p.lid, p.sid, 0⟩ ⟨s.pkg, BitVec.ofNat 11 t, 0⟩ 0 [] (.barc lw lh)
    | _ => s
/-- RBAR_COMPLETION (R274): the core signals the slot it recorded. -/
def execRbarCompletion (core : Nat) (s : State) : Out :=
  onPacket s core isBarc fun p s => match p.body with
    | .barc lw lh =>
      match (s.core core).ni.bars.find? fun b => b.lid = p.lid && b.lw = lw && b.lh = lh with
      | none => s
      | some b => (s.modNi core fun ni => { ni with bars := ni.bars.erase b }).frameArrive core b.fp b.slot 1 .none p
    | _ => s

end Sys2Proof.Machine
end

