-- ==== Sys2Proof/Machine/Donation.lean ====
section
/-! DEFINITION. Donation.lean: the donation units (R272, R312-R316). A deque is listed top first; its bottom is last. -/

namespace Sys2Proof.Machine

def needUnit (n : Nat) (k : Out) : Out := if n < 128 then k else .fault .noSuchAgent
def DonUnit.deque (u : DonUnit) (lid : BitVec 32) : List Tcb := ((u.deques.find? fun d => d.1 = lid).map (·.2)).getD []
def DonUnit.hasDeque (u : DonUnit) (lid : BitVec 32) : Bool := u.deques.any fun d => d.1 = lid
def DonUnit.setDeque (u : DonUnit) (lid : BitVec 32) (l : List Tcb) : DonUnit :=
  { u with deques := if u.hasDeque lid then u.deques.map fun d => if d.1 = lid then (lid, l) else d else u.deques ++ [(lid, l)] }
/-- No room for a push of a launch (R312). -/
def DonUnit.fullFor (u : DonUnit) (lid : BitVec 32) : Bool :=
  64 ≤ (u.deques.map fun d => d.2.length).sum || (!u.hasDeque lid && 4 ≤ u.deques.length)
/-- Push on the bottom, or have a core run the TCB as a spawn to itself (R272, R316). -/
def State.pushTcb (s : State) (n c : Nat) (t : Tcb) : State :=
  let u := s.unit n
  if u.fullFor t.lid then s.modNi c fun ni => { ni with runs := ni.runs ++ [(t, s.acyc)] }
  else s.modUnit n fun u => u.setDeque t.lid (u.deque t.lid ++ [t])
/-- The TCBs of a push. -/
def tcbsOf (p : Packet) : List Tcb := match p.body with
  | .task l => l
  | _ => []
/-- A unit serves one operation in an A-cycle (R314). -/
def State.unitFree (s : State) (n : Nat) : Bool := (s.unit n).opAt ≠ some s.acyc
def State.unitUsed (s : State) (n : Nat) : State := s.modUnit n fun u => { u with opAt := some s.acyc }
/-- The cores of a group in ascending index. -/
def groupCores (g : Nat) : List Nat := rectCores (4 * (g % 16)) (4 * (g / 16)) 4 4
/-- A core is hungry for a launch (R313). -/
def State.hungry (s : State) (c : Nat) (lid : BitVec 32) : Bool :=
  let x := s.core c
  x.lids.contains lid && !x.stopped && x.tokens.isEmpty && x.freeCtx.isSome && !(mget [] x.fr.free 0).isEmpty
/-- A hungry core asks: none of its pops is outstanding, and 64 A-cycles have passed since an empty one. -/
def State.asks (s : State) (c : Nat) (lid : BitVec 32) : Bool :=
  s.hungry c lid && (s.core c).ni.pops.isEmpty && mget 0 (s.core c).ni.popAt lid.toNat ≤ s.acyc
/-- The first core of a group that asks for a pop, for any of its launches (R314: ascending core index). -/
def State.asking (s : State) (g : Nat) : Option Nat := (groupCores g).find? fun c => (s.core c).lids.any fun l => s.asks c l
/-- A pop (R313): the bottom TCB of the deque, delivered 2 A-cycles later, or empty. -/
def State.popFor (s : State) (c : Nat) (lid : BitVec 32) : State :=
  let g := groupOf c
  if s.asks c lid && s.unitFree g && s.asking g = some c then
    let l := (s.unit g).deque lid
    let s := if l.isEmpty then s else s.modUnit g fun u => u.setDeque lid l.dropLast
    (s.unitUsed g).modNi c fun ni => { ni with pops := ni.pops ++ [(lid, l.getLast?, s.acyc + 2)] }
  else s
/-- POP (R313). -/
def execPop (core : Nat) (lid : BitVec 32) (s : State) : Out :=
  needCore core <| if mhas (s.core core).ni.popAt lid.toNat then .next s else .next (s.popFor core lid)
/-- POP_RETRY (R313): a core that is still hungry asks again; one that is not asks no more. -/
def execPopRetry (core : Nat) (s : State) : Out :=
  needCore core <|
  match (s.core core).ni.popAt.find? fun q => q.2 ≤ s.acyc with
  | none => .next s
  | some q =>
    let lid := BitVec.ofNat 32 q.1
    if s.hungry core lid then .next (s.popFor core lid)
    else .next (s.modNi core fun ni => { ni with popAt := merase q.1 ni.popAt })
/-- POP_DELIVERY (R313): the TCB takes a class-0 frame and its token is queued at class 0; an empty pop is asked again
after 64 A-cycles. -/
def execPopDelivery (core : Nat) (s : State) : Out :=
  needCore core <|
  match (s.core core).ni.pops with
  | [] => .next s
  | (lid, t, at_) :: rest =>
    if s.acyc < at_ then .next s
    else
      let drop := fun (s : State) => s.modNi core fun ni => { ni with pops := rest }
      match t with
      | none => .next ((drop s).modNi core fun ni => { ni with popAt := mput lid.toNat (s.acyc + 64) ni.popAt })
      | some t =>
        match s.startTcb core t with
        | some s => .next ((drop s).modNi core fun ni => { ni with popAt := merase lid.toNat ni.popAt })
        | none => .next s
/-- TASK_PUSH (R272, R314): the first push, in commit order, after every pop and steal that waits; a core whose TCB finds the
unit full runs it itself. -/
def execTaskPush (unit : Nat) (s : State) : Out :=
  needUnit unit <|
  match (s.unit unit).pushes with
  | [] => .next s
  | p :: rest =>
    if s.unitFree unit && (s.unit unit).stealIn.isEmpty && (s.asking unit).isNone then
      .next (((s.modUnit unit fun u => { u with pushes := rest }).each (tcbsOf p) fun s t => s.pushTcb unit p.src.core.toNat t).unitUsed unit)
    else .next s
/-- STEAL_REQUEST (R316): the victim's unit ships the top TCBs, half of them and at most four, or empty. -/
def execStealRequest (unit : Nat) (s : State) : Out :=
  needUnit unit <|
  match (s.unit unit).stealIn with
  | [] => .next s
  | p :: rest =>
    if s.unitFree unit && (s.asking unit).isNone then
      match p.body with
      | .stealReq lid thief =>
        let l := (s.unit unit).deque lid
        let m := min 4 ((l.length + 1) / 2)
        let s := (s.modUnit unit fun u => { (if l.isEmpty then u else u.setDeque lid (l.drop m)) with stealIn := rest }).unitUsed unit
        let (id, s) := s.fresh
        let c := cornerOf unit
        let s := s.inject (mkPkt (coreNode s c) ⟨s.pkg, BitVec.ofNat 11 (cornerOf thief), 0⟩ p.sid lid 0 id 0 (.stealRep lid thief (l.take m)))
        .next (if l.isEmpty then s else s.event c p.sid 14 1)
      | _ => .next (s.modUnit unit fun u => { u with stealIn := rest })
    else .next s
/-- Victim k of a group for a launch (R315), unless it is skipped. -/
def victim (l : Launch) (g k : Nat) : Option Nat :=
  let v : Option Nat :=
    if l.w 7 = 0 then
      match [(1, 0), (0, 1), (1, 1), (2, 0), (0, 2), (2, 2), (4, 0), (0, 4)][k]? with
      | some (dx, dy) => some (((g % 16) ^^^ dx) + 16 * ((g / 16) ^^^ dy))
      | none => none
    else
      let b := leNat (l.img 7 (8 * g + k) 1)
      if 128 ≤ b then some (b % 128) else none
  match v with
  | some v => if v ≠ g && l.cores.any (fun c => groupOf c = v) then some v else none
  | none => none
/-- A group is idle for a launch (R316). -/
def State.groupIdle (s : State) (g : Nat) (lid : BitVec 32) : Bool :=
  ((s.unit g).deque lid).isEmpty && (groupCores g).any fun c => s.hungry c lid
/-- Ask the first victim from number k on, or wait 1,024 A-cycles (R316). -/
def State.stealFrom (s : State) (g : Nat) (lid : BitVec 32) (k : Nat) : State :=
  let l := s.launch lid
  let s := s.modUnit g fun u => { u with stealing := u.stealing.filter (fun x => x.1 ≠ lid), waits := u.waits.filter fun x => x.1 ≠ lid }
  match ((List.range 8).drop k).find? fun j => (victim l g j).isSome with
  | none => s.modUnit g fun u => { u with waits := u.waits ++ [(lid, s.acyc + 1024)] }
  | some j =>
    let (id, s) := s.fresh
    let to_ := cornerOf ((victim l g j).getD g)
    (s.modUnit g fun u => { u with stealing := u.stealing ++ [(lid, j)] }).inject
      (mkPkt (coreNode s (cornerOf g)) ⟨s.pkg, BitVec.ofNat 11 to_, 0⟩ l.sid lid 0 id 0 (.stealReq lid g))
/-- STEAL_RETRY (R316): an idle group with no steal out starts its victim list, at first or again after its wait. -/
def execStealRetry (unit : Nat) (lid : BitVec 32) (s : State) : Out :=
  needUnit unit <|
  let u := s.unit unit
  if s.groupIdle unit lid && !(u.stealing.any fun x => x.1 = lid) && !(u.waits.any fun x => x.1 = lid && s.acyc < x.2) then
    .next (s.stealFrom unit lid 0)
  else .next s
/-- STEAL_REPLY (R314, R316): shipped TCBs go on the bottom, top first, as a push that gives way to waiting pops and steal
requests (log 38); those that find the unit full run on the corner core; an empty reply goes on to the next victim. -/
def execStealReply (unit : Nat) (s : State) : Out :=
  needUnit unit <|
  match (s.unit unit).replies with
  | [] => .next s
  | p :: rest =>
    let s' := s.modUnit unit fun u => { u with replies := rest }
    match p.body with
    | .stealRep lid _ ts =>
      if ts.isEmpty then
        match (s.unit unit).stealing.find? fun x => x.1 = lid with
        | some x => .next (s'.stealFrom unit lid (x.2 + 1))
        | none => .next s'
      else if s.unitFree unit && (s.unit unit).stealIn.isEmpty && (s.asking unit).isNone then
        .next (((s'.modUnit unit fun u => { u with stealing := u.stealing.filter fun x => x.1 ≠ lid }).each ts fun s t =>
          s.pushTcb unit (cornerOf unit) t).unitUsed unit)
      else .next s
    | _ => .next s'

end Sys2Proof.Machine
end

