-- ==== Sys2Proof/Machine/HostMem.lean ====
section
/-! DEFINITION. HostMem.lean: host accesses to device memory and to ingress words (R80, R240, R343-R345). The accesses of a
port take effect in the order in which the host issues them: each is a request of the I/O die to the slices, one line at a
time, and the next begins when it has completed. -/

namespace Sys2Proof.Machine

/-! Ingress (R344, R345). -/

/-- INGRESS of an endpoint of a launch. -/
def Launch.ingress (l : Launch) (e : Nat) : Word := l.endpoint e 2
/-- The launch of a space whose ingress word an endpoint's is: one with the binding open, else one that has had it. -/
def State.ingressOf (s : State) (sid : Half) (e : Nat) : Option Launch :=
  let mine := s.launches.filter fun l => l.sid = sid && l.live && !l.nested && bitOf (l.ingress e) 63
  match mine.find? fun l => !l.closed.contains e with
  | some l => some l
  | none => mine.head?
/-- A host read of the word. -/
def State.ingressRead (s : State) (sid : Half) (e : Nat) : Word :=
  match s.ingressOf sid e with
  | some l => wd (b2n (!l.closed.contains e) * 2 ^ 63 + mget 0 l.accepted e % 2 ^ 63)
  | none => 0
/-- The initial frame of a core, also while an image holds it. -/
def State.initialFrame (s : State) (l : Launch) (k : Nat) : Word :=
  let x := match s.dist.images.find? fun i => i.lid = l.lid with
    | some i => mget ({} : Core) i.cores k
    | none => s.core (l.cores.getD k 0)
  mget 0 x.ifps l.lid.toNat
/-- A host write of n bytes to the word (R345); earlier stores of the port have taken effect. -/
def State.ingressPost (s : State) (sid : Half) (e n : Nat) (v : Word) : State :=
  match s.ingressOf sid e with
  | none => s.status true
  | some l =>
    if n ≠ 8 || l.closed.contains e || l.closing.contains e || bits v 62 8 ≠ 0 then s.status true
    else
      let i := l.ingress e
      let k := bits v 7 0
      let s := if k = 0 then s
        else
          let f := s.initialFrame l (bits i 57 47)
          let (id, s) := s.fresh
          (s.inject (mkPkt (ioNode s.pkg) (coreNode s (l.cores.getD (bits i 57 47) 0)) sid l.lid (e + 1) id (slackOf l (i.extractLsb' 34 4))
            (.sig f (bits i 46 38) k .none))).modLaunch l.lid fun l => { l with posted := mmod 0 e (· + 1) l.posted }
      (s.modLaunch l.lid fun l =>
        { l with accepted := mmod 0 e (· + 1) l.accepted, closing := if bitOf v 63 then l.closing ++ [e] else l.closing }).status false

/-! The accesses of a port. -/

/-- What the last access to complete answered: a read bytes, a write none. -/
def State.answers (s : State) (bs : Option (List Byte)) : State := s.modHost fun h => { h with answer := bs }
def State.setQueue (s : State) (port : Nat) (l : List HostAcc) : State := s.modHost fun h => { h with queue := mput port l h.queue }
/-- How many bytes of an access its next request carries: to the end of the line. -/
def HostAcc.piece (h : HostAcc) : Nat := min h.left (256 - h.va.toNat % 256)
/-- An access to an ingress word takes effect. -/
def State.ingressAcc (s : State) (h : HostAcc) : State :=
  let e := h.va.toNat
  if h.wr then s.ingressPost h.sid e h.left (bytesWord (h.bytes.take 8))
  else (s.answers (some ((wordBytes (s.ingressRead h.sid e)).take h.left))).status false
/-- The request for the next piece of an access, under the I/O die's ART copy (R53, R343). -/
def State.hostPacket (s : State) (port id : Nat) (h : HostAcc) : Packet :=
  let b : Body := if h.wr then .write h.va (whole (h.bytes.take h.piece)) (.host port 0) else .read h.va h.piece .data (.host port 0)
  mkPkt (ioNode s.pkg) (addrNode (s.ioArt h.sid) h.va) h.sid 0 0 id 0 b
def State.hostRequest (s : State) (port : Nat) (h : HostAcc) : State :=
  let (id, s) := s.fresh
  s.inject (s.hostPacket port id h)
/-- The record of a host access that faulted (R80), at the I/O die, with its request's header for a slice fault (R327); the
kind is 0 where the slice has recorded it. -/
def State.hostRecord (s : State) (port : Nat) (h : HostAcc) (kind : Nat) : State :=
  let r := mkRec kind 0 h.sid 0 (ioNode s.pkg) h.va 0
  if kind = 0 then s else s.record (if kind = 8 then r else r.withHdr (s.hostPacket port 0 h))
/-- Begin the accesses at the head of a port's queue, as far as none waits for a reply; at most fuel of them. -/
def State.hostNext (s : State) (port : Nat) : Nat → State
  | 0 => s
  | n + 1 => match mget [] s.host.queue port with
    | [] => s
    | h :: rest =>
      if h.sent then s
      else if h.ingress then ((s.setQueue port rest).ingressAcc h).hostNext port n
      else if s.badAddr h.va then (((s.setQueue port rest).hostRecord port h 8).status true).hostNext port n
      else (s.setQueue port ({ h with sent := true } :: rest)).hostRequest port h
/-- The reply to the request on its way for a port: the access goes on with its next piece, or completes, with error status
where it faulted (R80). -/
def State.hostReply (s : State) (port kind : Nat) (data : List Byte) (fault : Bool) : State :=
  match mget [] s.host.queue port with
  | [] => s
  | h :: rest =>
    let left := h.left - h.piece
    let bs := if h.wr then h.bytes.drop h.piece else h.bytes ++ data
    let go := fun (s : State) => s.hostNext port ((mget [] s.host.queue port).length)
    if fault then go ((((s.setQueue port rest).hostRecord port h kind).answers none).status true)
    else if left = 0 then go (((s.setQueue port rest).answers (if h.wr then none else some bs)).status false)
    else go (s.setQueue port ({ h with va := h.va + wd h.piece, left := left, bytes := bs, sent := false } :: rest))
/-- A host access joins the queue of its port; one to a space that is being retired completes with error status (R354). -/
def State.hostQueue (s : State) (port : Nat) (h : HostAcc) : State :=
  if bitOf s.io.sdel 62 && s.io.sdel.extractLsb' 0 16 = h.sid then s.status true
  else
    let l := mget [] s.host.queue port ++ [h]
    (s.setQueue port l).hostNext port l.length

end Sys2Proof.Machine
end

