-- ==== Sys2Proof/Machine/Relocate.lean ====
section
/-! DEFINITION. Relocate.lean: relocation (R334): frame pointers, header fields and packets between a rectangle, a Dusk image
and another rectangle, and the records of packets in an image (R333). -/

namespace Sys2Proof.Machine

/-- What a relocation does to a frame pointer, a core's number, a group's number, and the record address of a forwarded signal
of a home core. -/
structure Reloc where
  fp : Word → Word
  core : Nat → Nat
  grp : Nat → Nat
  rec_ : Word → Nat → Word

/-- A header's node: a core is moved, a slice and the I/O die are not. -/
def Reloc.node (r : Reloc) (pk : BitVec 18) (n : Node) : Node :=
  if n.pkg = pk && n.port = 0 then { n with core := BitVec.ofNat 11 (r.core n.core.toNat) } else n
/-- A completion address. -/
def Reloc.cont (r : Reloc) (k : Cont) : Cont :=
  match k with
  | .word f w ty sl => .word (r.fp f) w ty sl
  | .block f w sl => .block (r.fp f) w sl
  | .slot f sl => .slot (r.fp f) sl
  | .elem g c off => .elem g (r.core c) off
  | .ownHdr f w sl a c p fr => .ownHdr (r.fp f) w sl a c p fr
  | .ownTab f w sl ob hi => .ownTab (r.fp f) w sl ob hi
  | .child l f sl => .child l (r.fp f) sl
  | k => k
/-- The frame pointer of a frame-addressed kind, completion addresses, and the numbers of cores and groups a body names. -/
def Reloc.body (r : Reloc) (b : Body) : Body :=
  let k := r.cont
  match b with
  | .read a n rd c => .read a n rd (k c)
  | .write a bs c => .write a bs (k c)
  | .amo op ty a v cmp c => .amo op ty a v cmp (k c)
  | .csnap a c => .csnap a (k c)
  | .red op ty a v rg c => .red op ty a v rg (k c)
  | .fe op a v c => .fe op a v (k c)
  | .data bs c => .data bs (k c)
  | .ack c f => .ack (k c) f
  | .sig f w n d => .sig (r.fp f) w n d
  | .fwd f w n d a h u => .fwd (r.fp f) w n d (r.rec_ a h) (r.core h) u
  | .refill f e p w => .refill (r.fp f) e p w
  | .launch d depth c f sl p => .launch d depth (r.core c) (r.fp f) sl p
  | .bara lw lh c => .bara lw lh (r.core c)
  | .entry q ws f sl => .entry q ws (r.fp f) sl
  | .stealReq l g => .stealReq l (r.grp g)
  | .stealRep l g t => .stealRep l (r.grp g) t
  | b => b
def Reloc.pkt (r : Reloc) (pk : BitVec 18) (p : Packet) : Packet :=
  { p with src := r.node pk p.src, dst := r.node pk p.dst, body := r.body p.body }

/-! From one rectangle to another. -/

/-- Where the cores of a rectangle go: pairs of old and new core. -/
abbrev Moves := List (Nat × Nat)
def movedCore (m : Moves) (c : Nat) : Nat := ((m.find? fun p => p.1 = c).map (·.2)).getD c
def movedGroup (m : Moves) (g : Nat) : Nat := ((m.find? fun p => groupOf p.1 = g).map fun p => groupOf p.2).getD g
/-- A frame pointer with another core. -/
def withCore (f : Word) (c : Nat) : Word := wd (f.toNat - fpCore f * 2 ^ 35 + c * 2 ^ 35)
def movedFp (pk : BitVec 18) (m : Moves) (f : Word) : Word := if fpPkg f = pk then withCore f (movedCore m (fpCore f)) else f
/-- A move; a forwarded signal's record moves with its core (R335 step 4). -/
def movedBy (pk : BitVec 18) (m : Moves) : Reloc :=
  ⟨movedFp pk m, movedCore m, movedGroup m, fun a h => a + wd (movedCore m h * 2 ^ 20) - wd (h * 2 ^ 20)⟩
def movedPkt (pk : BitVec 18) (m : Moves) (p : Packet) : Packet := (movedBy pk m).pkt pk p

/-! Into an image and out of it. -/

/-- Is a frame pointer one that a readout relocates: well formed, and to a core of the rectangle? -/
def State.movable (s : State) (l : Launch) (f : Word) : Bool :=
  bits f 34 30 = 0 && bits f 5 0 = 0 && fpPkg f = s.pkg && l.inRect (fpCore f) && (0x100000 - l.frs) / 64 ≤ fpUnit f && fpUnit f < 16384
/-- A core of the rectangle in image form: ly × 64 + lx. -/
def Launch.imageCore (l : Launch) (c : Nat) : Nat := if l.inRect c then (cyOf c - l.oy) * 64 + (cxOf c - l.ox) else c
/-- Image form: CORE := ly × 64 + lx, bit 0 := 1. -/
def State.imageForm (s : State) (l : Launch) (f : Word) : Word :=
  if s.movable l f then withCore f (l.imageCore (fpCore f)) ||| 1 else f
/-- Back from image form, for an origin (R335 step 3). -/
def fromImage (pk : BitVec 18) (l : Launch) (o : Nat × Nat) (f : Word) : Word :=
  if bitOf f 0 && bits f 5 1 = 0 && bits f 34 30 = 0 && fpPkg f = pk && cxOf (fpCore f) < l.width && cyOf (fpCore f) < l.height then
    withCore (f &&& ~~~1#64) (coreAt (o.1 + cxOf (fpCore f)) (o.2 + cyOf (fpCore f)))
  else f
/-- A held or inbox packet as an image has it. -/
def State.imagePkt (s : State) (l : Launch) (p : Packet) : Packet :=
  (⟨s.imageForm l, l.imageCore, id, fun a _ => a⟩ : Reloc).pkt s.pkg p
/-- The 384 bytes of a packet in an image (R333): header and payload as in R76's record, and a number: an inbox packet's
arrival number (log 12). -/
def State.imageRecord (s : State) (l : Launch) (p : Packet) (n : Nat) : List Byte := spillRecord (s.imagePkt l p) n
/-! Reading a record back (R335 step 2): the fields that stand in it, over those that the packet is kept with. -/

/-- Bytes given as a list, as far as it goes. -/
def overBytes (old new : List Byte) : List Byte := new.take old.length ++ old.drop new.length
/-- A task control block (R312). -/
def tcbBytes (t : Tcb) : List Byte :=
  ([wd (t.entry.toNat * 2 ^ 32 + t.sid.toNat * 2 ^ 16), wd (t.lid.toNat * 2 ^ 32)] ++ (List.range 6).map fun k => t.args.getD k 0).map wordBytes |>.flatten
/-- A task control block read back over another: as it was where its bytes are. -/
def tcbOf (old : Option Tcb) (bs : List Byte) : Tcb :=
  let w := fun k => bytesWord ((bs.drop (8 * k)).take 8)
  match old.filter fun t => tcbBytes t = bs with
  | some t => t
  | none => { entry := (w 0).extractLsb' 32 32, sid := (w 0).extractLsb' 16 16, lid := (w 1).extractLsb' 32 32, args := (List.range 6).map fun k => w (2 + k) }
/-- The data words of a signal, with given values. -/
def SigData.withWords (d : SigData) (ws : List Word) : SigData :=
  match d with
  | .none => .none
  | .word k v m => .word k (ws.getD 0 v) m
  | .vec k _ => .vec k (bytesLine (ws.map wordBytes).flatten)
  | .words k _ => .words k ws
/-- A body with the address and the data of a record. -/
def Body.withRecord (b : Body) (a : Word) (data : List Byte) : Body :=
  let d := overBytes (bodyData b) data
  let w := fun k => bytesWord ((d.drop (8 * k)).take 8)
  let ws := fun (k n : Nat) => (List.range n).map fun j => w (k + j)
  match b with
  | .read _ n rd c => .read a n rd c
  | .write _ bs c => .write a ((bs.zip d).map fun q => q.1.map fun _ => q.2) c
  | .amo op ty _ _ _ c => .amo op ty a (w 0) (w 1) c
  | .csnap _ c => .csnap a c
  | .red op ty _ _ rg c => .red op ty a (w 0) rg c
  | .fe op _ _ c => .fe op a (w 0) c
  | .sig _ _ _ x => .sig a ((w 0).toNat / 256) ((w 0).toNat % 256) (x.withWords (ws 1 (sigWords x).length))
  | .fwd f _ _ x _ h u => .fwd f ((w 0).toNat / 256) ((w 0).toNat % 256) (x.withWords (ws 1 (sigWords x).length)) a h u
  | .amsg _ args _ _ _ => .amsg a (ws 2 args.length) (bits (w 0) 63 32) ((w 0).setWidth 32) (w 1)
  | .spawn args cls _ _ _ => .spawn (ws 2 args.length) cls (bits (w 0) 63 32) ((w 0).setWidth 32) (w 1)
  | .launch _ depth c f sl p => .launch a depth c f sl p
  | .entry _ l f sl => .entry a (ws 0 l.length) f sl
  | .credit _ => .credit a
  | .refill _ e p x => .refill a e p x
  | .data _ c => .data d c
  | .task t => .task (t.zipIdx.map fun q => tcbOf (some q.1) ((d.drop (64 * q.2)).take 64))
  | .stealRep l g t => .stealRep l g (t.zipIdx.map fun q => tcbOf (some q.1) ((d.drop (64 * q.2)).take 64))
  | b => b
/-- A packet read back from its record in an image: `was` is its record as it was written, `p` the packet relocated to the new
rectangle. A core field or an address that stands as it was written is that of `p`; another is converted from image form. -/
def Packet.fromRecord (pk : BitVec 18) (l : Launch) (o : Nat × Nat) (was rec : List Byte) (p : Packet) : Packet :=
  let w := fun (bs : List Byte) k => bytesWord ((bs.drop (8 * k)).take 8)
  let w0 := w rec 0
  let w1 := w rec 1
  let core := fun (old : Node) (hi lo : Nat) =>
    if bits w0 hi lo = bits (w was 0) hi lo then old
    else
      let c := bits w0 (lo + 13) (lo + 3)
      let port := bits w0 (lo + 2) lo
      let inside := port = 0 && cxOf c < l.width && cyOf c < l.height
      { pkg := w0.extractLsb' (lo + 14) 18, core := BitVec.ofNat 11 (if inside then coreAt (o.1 + cxOf c) (o.2 + cyOf c) else c),
        port := BitVec.ofNat 3 port }
  let a := if w rec 2 = w was 2 then bodyAddr p.body else fromImage pk l o (w rec 2)
  { p with
    dst := core p.dst 63 32, src := core p.src 31 0,
    vc := match bits w1 63 62 with
      | 0 => .req | 1 => .rsp | 2 => .enq | _ => .sys,
    slack := w1.extractLsb' 52 10, e := bitOf w1 51, xd := bitOf w1 50, fresh := bitOf w1 49, fslk := w1.extractLsb' 39 10,
    sid := w1.extractLsb' 23 16, kind := w1.extractLsb' 17 6, len := w1.extractLsb' 14 3, fault := bitOf w1 13, dlc := bitOf w1 12,
    esc := bitOf w1 11, lid := (w rec 5).extractLsb' 32 32,
    body := if (rec.take 320).drop 16 = (was.take 320).drop 16 then p.body
      else p.body.withRecord a ((rec.drop 24).take 16 ++ (rec.take 320).drop 48) }
/-- A packet that an inbox takes once its core's image is written goes to the image too, as far as ISIZE has room (R331,
R333). -/
def State.imageInbox (s : State) (c : Nat) (p : Packet) (n : Nat) : State :=
  match s.dist.images.find? fun i => (s.launch i.lid).inRect c with
  | none => s
  | some i =>
    let l := s.launch i.lid
    if 384 * (n + 1) ≤ i.boxLen then
      s.pwrite (i.boxAt + i.boxLen * ((cyOf c - l.oy) * l.width + (cxOf c - l.ox)) + 384 * n) (whole (s.imageRecord l p n))
    else s

end Sys2Proof.Machine
end

