-- ==== Sys2Proof/Machine/Fabric.lean ====
section
/-! DEFINITION. Fabric.lean: the core torus and the system switch: routing and slots (R282-R288), slack ticks (R290),
arbitration (R291, R292), delivery (R295, R317, R331), and the reliability and credits of the lanes (R297, R298). Router
numbers 0 to 2047 are the cores', 2048 the system switch; a core router's ports are 0 north, 1 east, 2 south, 3 west,
4 local; the switch's are 0 to 5 for +x, −x, +y, −y, +z, −z and 6 local. -/

namespace Sys2Proof.Machine

/-! Ports. -/

def switch : Nat := 2048
def localPort (r : Nat) : Nat := if r = switch then 6 else 4
def needPort (r port : Nat) (k : Out) : Out := if r ≤ switch && port ≤ localPort r then k else .fault .noSuchAgent
/-- The lanes of a link: the torus links of a core router, the system links of the switch. -/
def needLane (r port lane : Nat) (k : Out) : Out :=
  if r ≤ switch && port < (if r = switch then 6 else 4) && lane < 8 then k else .fault .noSuchAgent
/-- The router across a port of a core router (R282). Across a system port stands another package's switch; the far ends of this
switch's links go by its own number (log 34). -/
def neighbour (r port : Nat) : Nat :=
  let x := cxOf r
  let y := cyOf r
  if r = switch then switch else match port with
  | 0 => coreAt x ((y + 31) % 32)
  | 1 => coreAt ((x + 1) % 64) y
  | 2 => coreAt x ((y + 1) % 32)
  | _ => coreAt ((x + 63) % 64) y
/-- The port at the other end of a link. -/
def opposite (r port : Nat) : Nat := if r = switch then port / 2 * 2 + (1 - port % 2) else (port + 2) % 4
def laneKey (port lane : Nat) : Nat := port * 8 + lane
def Router.lane (x : Router) (port lane : Nat) : Lane := mget {} x.lanes (laneKey port lane)
/-- Change a lane at its sender. -/
def State.modLane (s : State) (r port lane : Nat) (f : Lane → Lane) : State :=
  s.modRouter r fun x => { x with lanes := mput (laneKey port lane) (f (x.lane port lane)) x.lanes }

/-! Lanes and slots (R283). -/

def adaptiveLanes : VC → List Nat
  | .req => [1, 2]
  | .rsp => [4, 5]
  | _ => []
/-- The lane of the dimension-order slots of a channel. -/
def orderLane : VC → Nat
  | .req => 0 | .rsp => 3 | .enq => 6 | .sys => 7
def lanesOf (vc : VC) : List Nat := orderLane vc :: adaptiveLanes vc
/-- Of the same channel and slot kind. -/
def sameKind (a b : Nat) : Bool := a ≠ b && ([[1, 2], [4, 5]].any fun l => l.contains a && l.contains b)

/-! Malformed packets (R285). -/

def kindVc (k : Nat) : Option VC :=
  if 1 ≤ k && k ≤ 0x0e then some .req
  else if 0x10 ≤ k && k ≤ 0x13 then some .rsp
  else if k = 0x18 then some .enq
  else if 0x20 ≤ k && k ≤ 0x27 then some .sys else none
def Packet.malformed (p : Packet) : Bool :=
  kindVc p.kind.toNat ≠ some p.vc || p.len = 0 || 5 < p.len.toNat || 2 < p.dst.port.toNat
/-- FABRIC_FAULT (R285): the packet is discarded; the owner's device log takes its header and the owner is notified. -/
def State.fabricFault (s : State) (p : Packet) : State :=
  (s.modIo fun io => { io with devLog := io.devLog ++ [(hdrW0 p, hdrW1 p)] }).notify 8 (hdrW0 p)

/-! Routing (R286-R288). -/

/-- The core whose router a packet leaves the torus at, seen from a router. -/
def State.target (s : State) (r : Nat) (p : Packet) : Nat :=
  if p.dst.pkg ≠ s.pkg || p.dst.port = 2 then gatewayOf r else p.dst.core.toNat
/-- A rewritten entry of a router's route table: a port, or none (R286). -/
def Router.entry (x : Router) (k : Nat) : Option Nat :=
  let v := (mget 0 x.tab k).toNat
  if v < 4 then some v else none
/-- The productive x port toward a column, by the router's route table or, where it is not rewritten, by R286. -/
def Router.xPort (x : Router) (r t : Nat) : Option Nat :=
  let d := (cxOf t + 64 - cxOf r) % 64
  if mhas x.tab (cxOf t) then x.entry (cxOf t) else if d = 0 then none else some (if d ≤ 32 then 1 else 3)
def Router.yPort (x : Router) (r t : Nat) : Option Nat :=
  let d := (cyOf t + 32 - cyOf r) % 32
  if mhas x.tab (64 + cyOf t) then x.entry (64 + cyOf t) else if d = 0 then none else some (if d ≤ 16 then 2 else 0)
/-- The coordinates of a package (R18). -/
def pkgCoord (p : BitVec 18) (k : Nat) : Nat := p.toNat / 64 ^ k % 64
/-- The switch's output port, by dimension order with ties to the + direction (R288). -/
def switchPort (own dst : BitVec 18) : Nat :=
  match [0, 1, 2].find? fun k => pkgCoord own k ≠ pkgCoord dst k with
  | none => 6
  | some k => 2 * k + (if (pkgCoord dst k + 64 - pkgCoord own k) % 64 ≤ 32 then 0 else 1)
/-- The productive ports of a packet at a router, x first; the local port alone where it leaves here. -/
def State.ports (s : State) (r : Nat) (p : Packet) : List Nat :=
  if r = switch then [switchPort s.pkg p.dst.pkg]
  else if s.target r p = r then [4]
  else
    let t := s.target r p
    match ((s.router r).xPort r t).toList ++ ((s.router r).yPort r t).toList with
    | [] => [4]
    | l => l
/-- The dimension of a port. -/
def dimOf (r port : Nat) : Nat := if r = switch then port / 2 else port % 2
/-- Does the hop over a port cross its dimension's dateline (R287)? -/
def State.crosses (s : State) (r port : Nat) : Bool :=
  if r = switch then pkgCoord s.pkg (port / 2) = (if port % 2 = 0 then 63 else 0)
  else match port with
    | 0 => cyOf r = 0
    | 1 => cxOf r = 63
    | 2 => cyOf r = 31
    | _ => cxOf r = 0
/-- The dateline class of a dimension-order slot over a port: 1 from the dateline on, 0 when the dimension is entered. -/
def State.nextDlc (s : State) (r : Nat) (i : InPkt) (port : Nat) : Bool :=
  s.crosses r port ||
    (i.port < localPort r && dimOf r i.port = dimOf r port && i.lane = orderLane i.pkt.vc && i.pkt.dlc)
/-- Credits a sender holds for the slots of a channel over a port. -/
def Router.credits (x : Router) (port : Nat) (vc : VC) : Nat :=
  ((adaptiveLanes vc).map fun l => (x.lane port l).credit0).sum +
    (x.lane port (orderLane vc)).credit0 + (x.lane port (orderLane vc)).credit1
def Router.freeAdaptive (x : Router) (port : Nat) (vc : VC) : Nat :=
  ((adaptiveLanes vc).filter fun l => !(x.lane port l).retired && 0 < (x.lane port l).credit0).length
/-- The output port a packet goes for, and whether over an adaptive slot (R287), at the switch as at any router (R288). -/
def State.aim (s : State) (r : Nat) (i : InPkt) : Nat × Bool :=
  let x := s.router r
  let ps := s.ports r i.pkt
  let p0 := ps.headD 4
  if p0 = localPort r || i.pkt.vc = .enq || i.pkt.vc = .sys || i.pkt.esc then (p0, false)
  else
    let n := fun p => x.freeAdaptive p i.pkt.vc
    match ps with
    | [a, b] =>
      if n a = 0 && n b = 0 then (p0, false) else if n a < n b then (b, true) else (a, true)
    | _ => (p0, n p0 ≠ 0)
/-- A lane can take a packet of a length now: idle, not retired, room in its retry buffer (R297). -/
def laneIdle (l : Lane) (now n : Nat) : Bool := l.busyTill ≤ now && !l.retired && l.unacked.length + n ≤ 64
/-- The lane a packet would be granted over a port, if any (R283, R287, R292), at the switch as at any router (R288). -/
def State.laneFor (s : State) (r port : Nat) (i : InPkt) : Option Nat :=
  let x := s.router r
  let now := x.fcyc + s.fcyc
  let vc := i.pkt.vc
  let n := i.pkt.len.toNat
  let a := s.aim r i
  if a.1 ≠ port then none
  else if port = localPort r then (lanesOf vc).find? fun l => mget 0 x.ejBusy (laneKey port l) ≤ now
  else if vc ≠ .sys && !i.pkt.e && x.credits port vc ≤ 1 then none
  else if a.2 then (adaptiveLanes vc).find? fun l => laneIdle (x.lane port l) now n && 0 < (x.lane port l).credit0
  else
    let l := orderLane vc
    let c := if s.nextDlc r i port then (x.lane port l).credit1 else (x.lane port l).credit0
    if laneIdle (x.lane port l) now n && 0 < c then some l else none

/-! Arbitration (R291). -/

/-- Is a packet of an input port's queue served before another? Exhausted ones in the order in which they became so, then
least slack, then arrival; ENQ and SYS by arrival. -/
def ahead (a b : InPkt) : Bool :=
  if a.pkt.vc = .enq || a.pkt.vc = .sys then a.at_ < b.at_
  else match a.exh, b.exh with
    | some x, some y => x < y || (x = y && a.at_ < b.at_)
    | some _, none => true
    | none, some _ => false
    | none, none => a.pkt.slack < b.pkt.slack || (a.pkt.slack = b.pkt.slack && a.at_ < b.at_)
/-- The first of a list that no other precedes. -/
def firstBy {α : Type} (lt : α → α → Bool) : List α → Option α
  | [] => none
  | a :: t => match firstBy lt t with
    | some b => if lt b a then some b else some a
    | none => some a
/-- The packet of a queue that comes first; a list keeps the order of arrival. -/
def headOfQueue (l : List InPkt) : Option InPkt := firstBy ahead l
/-- Is the head of one input port granted before that of another, where none is exhausted? Least slack, then arrival; SYS by
arrival alone. The heads stand in port order. -/
def better (a b : InPkt) : Bool :=
  if a.pkt.vc = .sys then a.at_ < b.at_ else a.pkt.slack < b.pkt.slack || (a.pkt.slack = b.pkt.slack && a.at_ < b.at_)
/-- The heads of an output port's queues for a channel, one for each input port, that have a slot and a lane. A packet stands in
the queue of the port that R287 gives it. -/
def State.heads (s : State) (r port : Nat) (vc : VC) : List InPkt :=
  (List.range (localPort r + 1)).filterMap fun k =>
    match headOfQueue ((s.router r).ins.filter fun i => i.port = k && i.pkt.vc = vc && (s.aim r i).1 = port) with
    | some i => if (s.laneFor r port i).isSome then some i else none
    | none => none
/-- The best of the heads: the first exhausted one from the round-robin pointer on, else least slack, arrival, port. -/
def arbitrate (vc : VC) (ptr n : Nat) (l : List InPkt) : Option InPkt :=
  match if vc = .sys then none else
      ((List.range n).map fun k => (ptr + k) % n).findSome? fun k => l.find? fun i => i.port = k && i.pkt.e with
  | some i => some i
  | none => firstBy better l
/-- A credit of a dateline class goes back to a lane's sender, behind any resync on its way (R298). -/
def Lane.creditBack (l : Lane) (c : Bool) : Lane :=
  let add := fun (k : Nat × Nat) => if c then (k.1, k.2 + 1) else (k.1 + 1, k.2)
  match l.resyncs.reverse with
  | q :: t => { l with resyncs := (({ q with free := add q.free } : Resync) :: t).reverse }
  | [] => if c then { l with credit1 := l.credit1 + 1 } else { l with credit0 := l.credit0 + 1 }
/-- A slot of an input port is freed: its credit goes back to the sender. -/
def State.freeSlot (s : State) (r : Nat) (i : InPkt) : State :=
  if r = switch || i.port = 4 then s
  else s.modLane (neighbour r i.port) (opposite r i.port) i.lane fun l => l.creditBack (i.pkt.dlc && i.lane = orderLane i.pkt.vc)
/-- The flits of a packet from a sequence number on. -/
def flitsOf (p : Packet) (slot : Nat) (seq : BitVec 8) (n : Nat) : List Flit :=
  (List.range n).map fun k => { seq := seq + BitVec.ofNat 8 k, idx := k, slot := slot, pkt := p }
/-- The packet's flits go out on a lane, taking a downstream slot. -/
def State.sendOn (s : State) (r port lane : Nat) (p : Packet) (order : Bool) (now : Nat) : State :=
  s.modLane r port lane fun l =>
    let n := p.len.toNat
    let fs := flitsOf p lane l.next n
    let c := order && p.dlc
    { l with busyTill := now + n, next := l.next + BitVec.ofNat 8 n, unacked := l.unacked ++ fs, wire := l.wire ++ fs,
             sent := (List.replicate (n - 1) none ++ [some c] ++ l.sent).take 255,
             credit0 := if c then l.credit0 else l.credit0 - 1, credit1 := if c then l.credit1 - 1 else l.credit1 }
/-- A packet in an escape slot sets ESC (R287). -/
def Packet.inSlot (p : Packet) (lane : Nat) : Packet :=
  { p with esc := p.esc || (lane = orderLane p.vc && !(adaptiveLanes p.vc).isEmpty) }
/-- Grant one packet over a port. At the ejection port its service begins with the arrival of its last flit (R294). -/
def State.grant (s : State) (r port : Nat) (i : InPkt) (lane : Nat) : State :=
  let now := (s.router r).fcyc + s.fcyc
  let order := lane = orderLane i.pkt.vc
  let dlc := order && s.nextDlc r i port
  let s := (s.modRouter r fun x => { x with ins := x.ins.erase i }).freeSlot r i
  let s := if i.pkt.e && i.pkt.vc ≠ .sys then
      s.modRouter r fun x => { x with rr := mput (port * 4 + vcCode i.pkt.vc) ((i.port + 1) % (localPort r + 1)) x.rr }
    else s
  if port = localPort r then
    let out := s.modRouter r fun x => { x with ejBusy := mput (laneKey port lane) (now + i.pkt.len.toNat) x.ejBusy }
    if r = switch then out.modRouter (gatewayOf i.pkt.dst.core.toNat) fun x => { x with merge := x.merge ++ [(2, i.pkt)] }
    else out.modRouter r fun x => { x with eject := x.eject ++ [{ i.pkt with at_ := s.fcyc + i.pkt.len.toNat - 1 }] }
  else
    s.sendOn r port lane { i.pkt.inSlot lane with dlc := dlc } order now
/-- Grant the candidates, best first, each on a lane that is still idle for it: at most fuel of them (R291). -/
def State.grants (s : State) (r port : Nat) (vc : VC) : Nat → List InPkt → State
  | 0, _ => s
  | n + 1, cand =>
    match arbitrate vc (mget 0 (s.router r).rr (port * 4 + vcCode vc)) (localPort r + 1) cand with
    | none => s
    | some i =>
      let rest := cand.filter fun k => k.port ≠ i.port
      match s.laneFor r port i with
      | some l => (s.grant r port i l).grants r port vc n rest
      | none => s.grants r port vc n rest
/-- The grants of an output port for a channel in one F-cycle; a port that has granted in this one grants no more (R291). -/
def State.grantRound (s : State) (r port : Nat) (vc : VC) : State :=
  let key := port * 4 + vcCode vc
  let now := (s.router r).fcyc + s.fcyc + 1
  let cand := s.heads r port vc
  if cand.isEmpty || mget 0 (s.router r).rounds key = now then s
  else (s.grants r port vc cand.length cand).modRouter r fun x => { x with rounds := mput key now x.rounds }
/-- A packet of a router has drained its slack and is not exhausted yet: SLACK_EXHAUSTION comes first (R290). -/
def Router.draining (x : Router) : Bool := x.ins.any fun i => i.pkt.vc ≠ .sys && i.pkt.slack = 0 && !i.pkt.e
/-- ROUTER_GRANT (R291, R292). -/
def execRouterGrant (router port : Nat) (vc : VC) (s : State) : Out :=
  needPort router port <| if (s.router router).draining then .next s else .next (s.grantRound router port vc)

/-! Slack (R290). -/

/-- A slack tick of a router at the multiple of 16 of its F-cycle count where it stands, once (R290): each packet that has
waited here since before it, with E = 0, loses one tick; one that arrives at this boundary waits its 16 F-cycles first. -/
def State.slackTick (s : State) (r : Nat) : State :=
  let n := (s.router r).fcyc + s.fcyc
  if (s.router r).draining || n % 16 ≠ 0 || (s.router r).ticked = n / 16 then s
  else s.modRouter r fun x => { x with ticked := n / 16, ins := x.ins.map fun i =>
    if i.pkt.e || i.pkt.vc = .sys || i.at_ = n then i else { i with pkt := { i.pkt with slack := i.pkt.slack - 1 } } }
/-- Packets whose slack has reached zero set E and XD (R290). -/
def State.exhaust (s : State) (r : Nat) : State :=
  s.modRouter r fun x => { x with ins := x.ins.map fun i =>
    if i.pkt.vc ≠ .sys && i.pkt.slack = 0 && !i.pkt.e then
      { i with pkt := { i.pkt with e := true, xd := true }, exh := some (x.fcyc + s.fcyc) }
    else i }
/-- SLACK_TICK (R290). -/
def execSlackTick (router : Nat) (s : State) : Out := needPort router 0 (.next (s.slackTick router))
/-- SLACK_EXHAUSTION (R290). -/
def execSlackExhaustion (router : Nat) (s : State) : Out := needPort router 0 (.next (s.exhaust router))
/-- An F-cycle ends: whatever tick of it has not taken place does (R290). -/
def State.fTick (s : State) : State :=
  let s := s.each (s.routers.map (·.1)) fun s r => ((s.exhaust r).slackTick r).exhaust r
  { s with fcyc := s.fcyc + 1 }

/-! Arrival. -/

/-- The packets that a slot's lane holds at an input port. -/
def Router.inLane (x : Router) (port l : Nat) : List InPkt := x.ins.filter fun i => i.port = port && i.lane = l
/-- The free slots of a channel at an input port: one of each adaptive lane, two classes of the dimension-order lane (R283). -/
def Router.slotsFree (x : Router) (port : Nat) (vc : VC) : Nat :=
  ((adaptiveLanes vc).map fun l => 1 - (x.inLane port l).length).sum + (2 - (x.inLane port (orderLane vc)).length)
/-- May a packet take one of them (R292)? -/
def Router.mayEnter (x : Router) (port : Nat) (p : Packet) : Bool := p.vc = .sys || p.e || 1 < x.slotsFree port p.vc
/-- A slot of the local input that the merger may fill; a packet with ESC keeps to escape slots (R287). -/
def Router.localSlot (x : Router) (r : Nat) (p : Packet) : Option Nat :=
  let o := orderLane p.vc
  if !x.mayEnter (localPort r) p then none
  else ((if p.esc then [] else adaptiveLanes p.vc) ++ [o]).find? fun l => (x.inLane (localPort r) l).length < (if l = o then 2 else 1)
/-- The slot that a packet from another package takes at a system port (R288): an escape slot of its dateline class where it has
ESC or its channel has no other, else an adaptive one. -/
def Router.systemSlot (x : Router) (port : Nat) (p : Packet) : Option Nat :=
  let o := orderLane p.vc
  if !x.mayEnter port p then none
  else if p.esc || (adaptiveLanes p.vc).isEmpty then if (x.inLane port o).any fun i => i.pkt.dlc = p.dlc then none else some o
  else (adaptiveLanes p.vc).find? fun l => (x.inLane port l).isEmpty
/-- A packet takes an input slot, or is discarded where it is malformed. -/
def State.enter (s : State) (r port lane : Nat) (p : Packet) : State :=
  let now := (s.router r).fcyc + s.fcyc
  let i : InPkt := { pkt := p, port := port, lane := lane, at_ := now, exh := if p.e && p.vc ≠ .sys then some now else none }
  if p.malformed then (s.freeSlot r i).fabricFault p else s.modRouter r fun x => { x with ins := x.ins ++ [i] }
/-- The packet the local merger presents (R282, R291): of each source the head of its queue for each channel, where it has a
slot; SYS first, else the channels in their order (log 34), and the sources by the rules of R291. -/
def Router.presents (x : Router) (r : Nat) : Option (Nat × Packet × Nat) :=
  let asIn := x.merge.zipIdx.map fun m => (⟨m.1.2, m.1.1, 0, m.2, if m.1.2.e then some m.2 else none⟩ : InPkt)
  let heads := fun (vc : VC) => (List.range 3).filterMap fun k =>
    match headOfQueue (asIn.filter fun i => i.port = k && i.pkt.vc = vc) with
    | some i => if (x.localSlot r i.pkt).isSome then some i else none
    | none => none
  match [VC.sys, .req, .rsp, .enq].findSome? fun vc => arbitrate vc (mget 0 x.rr 100) 3 (heads vc) with
  | some i => (x.localSlot r i.pkt).map fun l => (i.at_, i.pkt, l)
  | none => none
/-- The packet of the merger enters the local input; the merger's pointer passes an exhausted packet's source. -/
def State.mergeIn (s : State) (r : Nat) : State :=
  match (s.router r).presents r with
  | none => s
  | some (k, p, lane) =>
    let src := ((s.router r).merge.getD k (0, p)).1
    (s.modRouter r fun x => { x with merge := x.merge.eraseIdx k, rr := if p.e then mput 100 ((src + 1) % 3) x.rr else x.rr }).enter r (localPort r) lane (p.inSlot lane)
/-- The first packet that the receiving end of a link holds complete. -/
def State.linkIn (s : State) (r port : Nat) : Option (Nat × Packet × Nat) :=
  (List.range 8).findSome? fun l =>
    match ((s.router (neighbour r port)).lane (opposite r port) l).rx with
    | (p, slot) :: _ => some (l, p, slot)
    | [] => none
/-- The packet that the switch takes next from another package at a port: the first that has a slot, an ENQ one behind none
that came before it (R288, R296). -/
def State.fromSystem (s : State) (port : Nat) : Option (Packet × Nat) :=
  let l := s.sysIn.filter fun q => q.1 = port
  l.findSome? fun q =>
    if q.2.vc = .enq && (l.find? fun k => k.2.vc = .enq) ≠ some q then none
    else ((s.router switch).systemSlot port q.2).map fun k => (q.2, k)
/-- PACKET_ARRIVAL_ROUTER (R282, R287): from the local merger, from a link, or, at the system switch, from another package. -/
def execPacketArrivalRouter (router port : Nat) (s : State) : Out :=
  needPort router port <|
  if (s.router router).draining then .next s
  else if port = localPort router then .next (s.mergeIn router)
  else if router = switch then
    match s.fromSystem port with
    | none => .next s
    | some q => .next (({ s with sysIn := s.sysIn.erase (port, q.1) }).enter switch port q.2 q.1)
  else match s.linkIn router port with
    | none => .next s
    | some (l, p, slot) =>
      .next ((s.modLane (neighbour router port) (opposite router port) l fun x => { x with rx := x.rx.drop 1 }).enter router port slot p)

/-! Delivery. -/

/-- EXHAUST_NOTIFY (R295). -/
def State.exhaustNotify (s : State) (c : Nat) (l : Launch) : State :=
  let ni := (s.core c).ni
  let f := mget 0 (s.core c).ifps l.lid.toNat
  let late := match ni.exhAt with
    | some t => t + 1024 ≤ s.acyc
    | none => true
  if bitOf (l.w 14) 39 && late then
    (s.modNi c fun ni => { ni with exhAt := some s.acyc }).post ⟨c, l.lid, l.sid, 0⟩ (fpNode f) 0 [] (.sig f (bits (l.w 14) 38 30) 1 .none)
  else s
/-- An exhausted, drained packet of the launch's space is counted (R295, R341); EXV and EXW are those of the packet's own
launch where it is on the core (R305). -/
def State.countExhausted (s : State) (c : Nat) (p : Packet) : State :=
  let l := if (s.core c).lids.contains p.lid then s.launch p.lid else s.env c
  if p.e && p.xd && !(s.core c).lids.isEmpty && p.sid = l.sid then
    ((s.modNi c fun ni => { ni with exh := if ni.exh = 0xffffffff then ni.exh else ni.exh + 1 }).event c p.sid 7 1).exhaustNotify c l
  else s
/-- A fatal reply from another package ends the launch that issued the request (R78); in this package the agent that declares
it does (`State.fatal`). -/
def State.fatalReply (s : State) (p : Packet) : State :=
  if p.vc = .rsp && p.fault && p.src.pkg ≠ s.pkg then s.failLaunch p.lid else s
/-- A packet takes its place at the agent behind a network interface; pushes stand in commit order (R314). -/
def State.toNi (s : State) (c : Nat) (p : Packet) : State :=
  let s := ((s.count p p.dst (isTask p.body) countR).countExhausted c p).fatalReply p
  match p.body with
  | .task _ => s.modUnit (groupOf c) fun u => { u with pushes := insertBy (fun a b => a.id ≤ b.id) p u.pushes }
  | .stealReq _ _ => s.modUnit (groupOf c) fun u => { u with stealIn := u.stealIn ++ [p] }
  | .stealRep _ _ _ => s.modUnit (groupOf c) fun u => { u with replies := u.replies ++ [p] }
  | _ => s.modCore c fun x => { x with inq := x.inq ++ [p] }
/-- Entries of 384 bytes that an inbox of ISIZE KiB holds (R330, R333). -/
def State.inboxRoom (s : State) : Nat := bits s.dist.img 15 0 * 1024 / 384
/-- INBOX_APPEND (R331): kept in arrival order; the owner is notified when the inbox fills. -/
def State.toInbox (s : State) (c : Nat) (p : Packet) : State :=
  let n := (s.core c).inbox.length
  let s := (s.modCore c fun x => { x with inbox := x.inbox ++ [p] }).imageInbox c p n
  if (s.core c).inbox.length = s.inboxRoom then s.notify 9 (wd c) else s
/-- Is a packet the end report of a child? A frozen core keeps it with its inbox, since what it signals may be in an image
(log 39). -/
def isEndReport (p : Packet) : Bool := match p.body with
  | .ack (.child _ _ _) _ => true
  | _ => false
/-- Where a packet is delivered that has reached its router's ejection port; none while it must wait. -/
def State.deliver (s : State) (p : Packet) : Option State :=
  if p.malformed then some (s.fabricFault p)
  else if p.dst.pkg ≠ s.pkg then some (s.modRouter switch fun x => { x with merge := x.merge ++ [(2, p)] })
  else match p.dst.port.toNat with
    | 0 =>
      let c := p.dst.core.toNat
      let x := s.core c
      if x.frozen && (p.vc ≠ .sys || isEndReport p) then
        if x.inbox.length < s.inboxRoom || x.fwdTo.isSome then some (s.toInbox c p) else none
      else some (s.toNi c p)
    | 1 => some (s.modSlice (groupOf p.dst.core.toNat) fun x => { x with inq := x.inq ++ [p] })
    | _ =>
      some (match p.body with
        | .launch _ _ _ _ _ _ | .data _ (.desc _ _ _) | .ack (.desc _ _ _) _ => s.modDist fun d => { d with inq := d.inq ++ [p] }
        | .data bs (.host port k) => s.hostReply port k bs p.fault
        | .ack (.host port k) _ => s.hostReply port k [] p.fault
        | _ => s.modIo fun io => { io with inq := io.inq ++ [p] })
/-- The packets of an ejection port in the order in which they are offered: nothing orders two packets that have left the torus
(R153), so a free value says which comes first, but for ENQ and SYS ones, which keep their order (R291, R296, log 75). -/
def State.offers (s : State) (r : Nat) : List Packet × State :=
  match (s.router r).eject with
  | p :: q :: t =>
    let l := p :: q :: t
    let k := s.freeVal.1.toNat % l.length
    let x := l.getD k p
    (if x.vc = .enq || x.vc = .sys then l else x :: l.eraseIdx k, s.freeVal.2)
  | l => (l, s)
/-- PACKET_DELIVERY (R295): the first packet of the ejection port that its agent can accept. -/
def State.deliverFirst (s : State) (r : Nat) : List Packet → State
  | [] => s
  | p :: t => match s.deliver p with
    | some s' => s'.modRouter r fun x => { x with eject := x.eject.erase p }
    | none => s.deliverFirst r t
def execPacketDelivery (router : Nat) (s : State) : Out :=
  needPort router 0 <|
  let o := s.offers router
  .next (o.2.deliverFirst router o.1)

/-! Link reliability (R297). -/

/-- The remainder of the CRC-32 of R297 over bits, most significant first, from a remainder. -/
def crcStep (c : BitVec 32) (b : Bool) : BitVec 32 :=
  if (c.getLsbD 31) != b then (c <<< 1) ^^^ 0x04c11db7#32 else c <<< 1
/-- An error pattern on a transfer (flit in bits 511:0, sideband above) that the CRC does not see: by linearity, one whose
CRC field is the CRC of its other bits. -/
def crcBlind (e : BitVec 560) : Bool :=
  let data := (List.range 512).map fun k => e.getLsbD (511 - k)
  let side := ((List.range 8).map fun k => e.getLsbD (559 - k)) ++ (List.range 8).map fun k => e.getLsbD (519 - k)
  (data ++ side).foldl crcStep 0 = e.extractLsb' 520 32
/-- The last flit of a packet has reached the far end of a system link: the packet has left this package, and its slot there
is free again (log 34). -/
def State.leaves (s : State) (port lane : Nat) (f : Flit) : State :=
  { s.modLane switch port lane fun l => l.creditBack (f.pkt.dlc && f.slot = orderLane f.pkt.vc) with
    sysOut := s.sysOut ++ [(port, f.pkt)] }
/-- FLIT_RECEIVE (R297): the receiver at an input port checks the first flit on a lane's wire. -/
def State.flitIn (s : State) (r port lane : Nat) (err : BitVec 560) : State :=
  let up := neighbour r port
  let l := (s.router up).lane (opposite r port) lane
  match l.wire with
  | [] => s
  | f :: rest =>
    let set := fun (l : Lane) => s.modLane up (opposite r port) lane fun _ => { l with wire := rest }
    let seq := f.seq ^^^ err.extractLsb' 552 8
    if !crcBlind err then set { l with naks := l.naks ++ [l.expect] }
    else if seq = l.expect then
      if err ≠ 0 then s
      else
        let done := f.idx + 1 = f.pkt.len.toNat
        let s := set { l with expect := l.expect + 1, acks := l.acks ++ [f.seq],
                              rx := if done && r ≠ switch then l.rx ++ [(f.pkt, f.slot)] else l.rx }
        if done && r = switch then s.leaves (opposite r port) f.slot f else s
    else if (l.expect - seq).toNat ≤ 64 then set l
    else set { l with naks := l.naks ++ [l.expect] }
def execFlitReceive (router port lane : Nat) (err : BitVec 560) (s : State) : Out :=
  needLane router port lane <| .next (s.flitIn router port lane err)
/-- The unacknowledged flits from a sequence number on. -/
def fromSeq (n : BitVec 8) (l : List Flit) : List Flit := l.dropWhile fun f => f.seq ≠ n
/-- Has the flit a lane's receiver awaits failed its sixteenth replay, which is no longer on the wire, so that the lane awaits
LANE_RETIRE (R297)? -/
def Lane.dead (l : Lane) : Bool :=
  16 ≤ l.replays && l.failed = l.expect && l.naks.head? = some l.expect && !l.wire.any fun f => f.seq = l.expect
/-- NACK_RECEIVE (R297): the sender replays from the flit named, unless its replay is on the wire already. Only a replay of
the flit the receiver still awaits is one that may fail. -/
def execNackReceive (router port lane : Nat) (s : State) : Out :=
  needLane router port lane <|
  let l := (s.router router).lane port lane
  match l.naks with
  | [] => .next s
  | n :: rest =>
    if l.wire.any fun f => f.seq = n then .next (s.modLane router port lane fun l => { l with naks := rest })
    else if l.dead || l.retired then .next s
    else .next (s.modLane router port lane fun l =>
      let again := { l with naks := rest, wire := l.wire ++ fromSeq n l.unacked }
      if n ≠ l.expect || (fromSeq n l.unacked).isEmpty then again
      else { again with failed := n, replays := if l.failed = n then l.replays + 1 else 1 })
/-- ACK_RECEIVE (R297): a cumulative acknowledgement frees flits of the retry buffer; the failed replays of a flit are counted until
it is freed. -/
def execAckReceive (router port lane : Nat) (s : State) : Out :=
  needLane router port lane <|
  .next (s.modLane router port lane fun l =>
    match l.acks with
    | [] => l
    | a :: rest =>
      let kept := l.unacked.dropWhile fun f => (a - f.seq).toNat < 128
      let has := fun (fs : List Flit) => fs.any fun f => f.seq = l.failed
      { l with acks := rest, unacked := kept, replays := if has l.unacked && !has kept then 0 else l.replays })
/-- The flits a lane's receiver has not accepted. -/
def Lane.pending (l : Lane) : List Flit := l.unacked.dropWhile fun f => (f.seq - l.expect).toNat ≥ 128
/-- Flits numbered anew from a sequence number. -/
def renumber (n : BitVec 8) : List Flit → List Flit
  | [] => []
  | f :: t => { f with seq := n } :: renumber (n + 1) t
/-- LANE_RETIRE (R297): after 16 failed replays the lane is retired and the owner is notified; its flits go out again, in
order, on another lane of the channel and slot kind, where there is one, once its retry buffer has room for them. -/
def execLaneRetire (router port lane : Nat) (s : State) : Out :=
  needLane router port lane <|
  let x := s.router router
  let l := x.lane port lane
  if !l.retired && !l.dead then .next s
  else
    let s := if l.retired then s
      else (s.modLane router port lane fun l => { l with retired := true, naks := [], wire := [] }).notify 7
        (wd (router * 2 ^ 16 + port * 2 ^ 8 + lane))
    let left := l.pending
    match (List.range 8).find? fun k => sameKind k lane && !(x.lane port k).retired && (x.lane port k).unacked.length + left.length ≤ 64 with
    | none => .next s
    | some k =>
      .next ((s.modLane router port lane fun l => { l with unacked := [] }).modLane router port k fun m =>
        let fs := renumber m.next left
        { m with next := m.next + BitVec.ofNat 8 fs.length, unacked := m.unacked ++ fs, wire := m.wire ++ fs,
                 sent := (List.replicate fs.length none ++ m.sent).take 255 })

/-! Credits (R298). -/

/-- The slots of a lane that stand occupied at the receiver, in each dateline class: by packets in the input, by complete
packets not yet in it, and by a packet that has arrived in part. -/
def State.occupied (s : State) (r port lane : Nat) (l : Lane) (c : Bool) : Nat :=
  let cls := fun (p : Packet) => (p.dlc && lane = orderLane p.vc) = c
  (if r = switch then 0 else ((s.router r).ins.filter fun i => i.port = port && i.lane = lane && cls i.pkt).length) +
    (l.rx.filter fun q => q.2 = lane && cls q.1).length +
    (match l.pending with
     | f :: _ => if 0 < f.idx && f.slot = lane && cls f.pkt then 1 else 0
     | [] => 0)
/-- CREDIT_RESYNC_SEND (R298): every 256 F-cycles the receiver at an input port sends what its slots of a lane stand at. -/
def execCreditResyncSend (router port lane : Nat) (s : State) : Out :=
  needLane router port lane <|
  let up := neighbour router port
  let l := (s.router up).lane (opposite router port) lane
  let two := [0, 3, 6, 7].contains lane
  if (s.router router).fcyc + s.fcyc < l.resyncAt + 256 then .next s
  else .next (s.modLane up (opposite router port) lane fun l =>
    { l with resyncAt := (s.router router).fcyc + s.fcyc, epoch := !l.epoch, resyncs := l.resyncs ++
        [{ free := (1 - s.occupied router port lane l false, if two then 1 - s.occupied router port lane l true else 0),
           s := l.expect - 1, epoch := !l.epoch }] })
/-- CREDIT_RESYNC_RECEIVE (R298): the sender's credits become the carried counts less the slots taken by packets sent
after S. -/
def execCreditResyncReceive (router port lane : Nat) (s : State) : Out :=
  needLane router port lane <|
  .next (s.modLane router port lane fun l =>
    match l.resyncs with
    | [] => l
    | q :: rest =>
      let since := l.sent.take (l.next - 1 - q.s).toNat
      let taken := fun (c : Bool) => (since.filter fun x => x = some c).length
      { l with resyncs := rest, credit0 := q.free.1 - taken false, credit1 := q.free.2 - taken true })
/-- CREDIT_COUNT_SOFT_ERROR (R298): the sender's counts of a lane become what a soft error makes of them. -/
def execCreditCountSoftError (router port lane v : Nat) (s : State) : Out :=
  needLane router port lane <|
  .next (s.modLane router port lane fun l => { l with credit0 := v % 256, credit1 := v / 256 })

end Sys2Proof.Machine
end

