-- ==== Sys2Proof/Machine/Formats.lean ====
section
/-! DEFINITION. Formats.lean: storage formats (R125-R130), the carrier X24 (R131), format registers (R133, R134), tile
records (R135, R136), widening (R137, R138) and quantising (R139-R142), and `fmt.set`, `fmt.get` (R143). -/

namespace Sys2Proof.Machine

/-! Format registers (R133, R134). -/

/-- The kinds of R133. -/
inductive FKind where
  | f64 | f32 | bf16 | f16 | s8 | s4 | narrow
  deriving DecidableEq, Repr

/-- A format register's fields; a floating-point kind of 16 bits or fewer has its widths and bias here. -/
structure Fmt where
  kind : FKind
  smax : Nat
  rtz : Bool
  obf16 : Bool
  clamp : Bool
  cap : Nat
  esc : Bool
  scl : Nat
  bias : Int
  spc : Bool
  ew : Nat
  sgn : Bool
  bw : Nat
  deriving DecidableEq, Repr

def kindOf (n : Nat) : FKind :=
  match n with
  | 0 => .f64 | 1 => .f32 | 2 => .bf16 | 3 => .f16 | 4 => .s8 | 5 => .s4 | _ => .narrow
def capOf (n : Nat) : Nat := match n with
  | 0 => 0 | 1 => 8 | 2 => 16 | 3 => 32 | _ => 64
/-- Read a format register; the fixed kinds get the parameters R127 gives them. -/
def fmtRead (v : Word) : Fmt :=
  let k := kindOf (bits v 3 0)
  let f : Fmt := { kind := k, smax := bits v 63 56, rtz := bitOf v 32, obf16 := bitOf v 31, clamp := bitOf v 30,
                   cap := capOf (bits v 29 27), esc := bitOf v 26, scl := bits v 25 24,
                   bias := (v.extractLsb' 17 7).toInt, spc := bitOf v 16, ew := bits v 15 13, sgn := bitOf v 12,
                   bw := bits v 11 8 }
  match k with
  | .bf16 => { f with bias := 127, spc := true, ew := 8, sgn := true, bw := 16 }
  | .f16 => { f with bias := 15, spc := true, ew := 5, sgn := true, bw := 16 }
  | .s8 => { f with bw := 8 }
  | .s4 => { f with bw := 4 }
  | _ => f
/-- Mantissa width (R128). -/
def Fmt.m (f : Fmt) : Nat := f.bw - b2n f.sgn - f.ew
def Fmt.isInt (f : Fmt) : Bool := f.kind = .s8 || f.kind = .s4
/-- FP32 and FP64: plain tiles, passed through unchanged. -/
def Fmt.plain (f : Fmt) : Bool := f.kind = .f64 || f.kind = .f32
/-- Is a format register's value malformed (R134)? -/
def fmtMalformed (v : Word) : Bool :=
  let k := bits v 3 0
  let b := bits v 11 8
  let s := bits v 12 12
  let e := bits v 15 13
  let spc := bitOf v 16
  let esc := bitOf v 26
  bits v 55 33 ≠ 0 || bits v 7 4 ≠ 0 || 6 < k || bits v 25 24 = 3 || 4 < bits v 29 27 || bits v 63 56 = 255 ||
  (k < 2 && v.toNat ≠ k) || (k ≠ 6 && bits v 23 8 ≠ 0) ||
  (k = 6 && (b < 2 || 8 < b || e = 0 || b < s + e)) || (spc && (e < 2 || b = s + e)) ||
  (spc && s = 0 && esc && b < s + e + 2) || (bits v 25 24 = 0 && bits v 63 56 ≠ 0) ||
  (!esc && bits v 31 27 ≠ 0) || (esc && bits v 29 27 = 0)

/-! Codes and their values (R127-R129). -/

/-- The escape code (R129). -/
def Fmt.escape (f : Fmt) : Nat := if f.kind = .narrow && !f.sgn then 2 ^ f.bw - 1 else 2 ^ (f.bw - 1)
/-- The value of a code but for its block scale; an escape code is not asked for (R127, R128). -/
def Fmt.codeVal (f : Fmt) (c : Nat) : FVal :=
  if f.isInt then
    let neg := c.testBit (f.bw - 1)
    .fin neg (if neg then 2 ^ f.bw - c else c) 0
  else
    let neg := f.sgn && c.testBit (f.bw - 1)
    let ef := (c / 2 ^ f.m) % 2 ^ f.ew
    let mf := c % 2 ^ f.m
    if f.spc && ef = 2 ^ f.ew - 1 then if mf = 0 then .inf neg else .nan false
    else if ef = 0 then .fin neg mf (1 - f.bias - f.m)
    else .fin neg (2 ^ f.m + mf) (ef - f.bias - f.m)
def FVal.scaled (v : FVal) (k : Int) : FVal :=
  match v with
  | .fin n m e => .fin n m (e + k)
  | w => w
/-- The X24 pattern of a value it can hold (R131). -/
def x24 : FVal → BitVec 24
  | .nan _ => 5
  | .inf n => BitVec.ofNat 24 (b2n n * 2 ^ 23 + 3)
  | .fin n m e =>
    if m = 0 then BitVec.ofNat 24 (b2n n * 2 ^ 23 + 1)
    else
      let l := bitLen m
      let sig := if l ≤ 12 then m * 2 ^ (12 - l) else m / 2 ^ (l - 12)
      BitVec.ofNat 24 (b2n n * 2 ^ 23 + ((e + l - 1) % 1024).toNat * 2 ^ 13 + sig * 2)

/-! Tile records (R135, R136). -/

/-- Bytes of packed elements. -/
def Fmt.packed (f : Fmt) : Nat := 128 * f.bw
def Fmt.entryBytes (f : Fmt) : Nat := if f.obf16 then 2 else 4
def Fmt.trailer (f : Fmt) : Bool := f.scl ≠ 0 || f.esc
/-- Record size, or the size of a plain 32 × 32 tile. -/
def Fmt.size (f : Fmt) : Nat :=
  match f.kind with
  | .f64 => 8192
  | .f32 => 4096
  | _ => if f.trailer then f.packed + 64 + 64 * ((f.cap * f.entryBytes + 63) / 64) else f.packed
/-- The codes of packed elements of w bits. -/
def unpack (w n : Nat) (bs : List Byte) : List Nat :=
  let v := leNat bs
  (List.range n).map fun i => (v / 2 ^ (w * i)) % 2 ^ w
def pack (w : Nat) (cs : List Nat) (bytes : Nat) : List Byte :=
  natLe bytes (cs.foldr (fun c acc => c % 2 ^ w + 2 ^ w * acc) 0)
def Fmt.codes (f : Fmt) (bs : List Byte) : List Nat := unpack f.bw 1024 (bs.take f.packed)
def Fmt.trail (f : Fmt) (bs : List Byte) (k : Nat) : Nat := (bs.getD (f.packed + k) 0).toNat
def Fmt.escn (f : Fmt) (bs : List Byte) : Nat := f.trail bs 32 + 256 * f.trail bs 33
/-- The check of R136: does a record pass? The zero bytes of the trailer are those of its first 64 bytes and the padding
after the outlier list; list entries at or above ESCN are not looked at. -/
def Fmt.recordOk (f : Fmt) (bs : List Byte) : Bool :=
  if !f.trailer then true
  else
    let used := if f.scl = 1 then 32 else if f.scl = 2 then 1 else 0
    ((List.range 64).all fun k => k < used || k = 32 || k = 33 || f.trail bs k = 0) &&
    (((bs.take f.size).drop (f.packed + 64 + f.cap * f.entryBytes)).all fun b => b = 0) &&
    ((List.range used).all fun k => f.trail bs k ≠ 255) &&
    f.escn bs ≤ f.cap && f.escn bs = if f.esc then ((f.codes bs).filter (· = f.escape)).length else 0
/-- The scale byte of element i; 127 denotes 1 (R130, R137). -/
def Fmt.scale (f : Fmt) (bs : List Byte) (i : Nat) : Nat :=
  if f.scl = 1 then f.trail bs (i / 32) else if f.scl = 2 then f.trail bs 0 else 127
def Fmt.entry (f : Fmt) (bs : List Byte) (k : Nat) : FVal :=
  let b := (bs.drop (f.packed + 64 + k * f.entryBytes)).take f.entryBytes
  if f.obf16 then fmtBf16.val (leNat b) else fmtF32.val (leNat b)
/-- Widen codes in row-major order; k counts the escapes before (R137). -/
def Fmt.widenFrom (f : Fmt) (bs : List Byte) : List Nat → Nat → Nat → List FVal
  | [], _, _ => []
  | c :: t, i, k =>
    if f.esc && c = f.escape then f.entry bs k :: f.widenFrom bs t (i + 1) (k + 1)
    else (f.codeVal c).scaled ((f.scale bs i : Int) - 127) :: f.widenFrom bs t (i + 1) k
/-- The true values of a record's 1,024 elements, or of a plain tile's (R137). -/
def Fmt.widen (f : Fmt) (bs : List Byte) : List FVal :=
  match f.kind with
  | .f32 => (unpack 32 1024 bs).map fmtF32.val
  | .f64 => (unpack 64 1024 bs).map fmtF64.val
  | _ => f.widenFrom bs (f.codes bs) 0 0
/-- A value as an FP32 lane (R138). -/
def toF32 (v : FVal) : Nat × CfFlags :=
  match v with
  | .nan _ => (fmtF32.qnan, 0)
  | .inf n => (fmtF32.inf n, 0)
  | .fin n m e => fmtF32.round .rne n m e false

/-! Quantising (R139-R142). -/

def Fmt.rm (f : Fmt) : Rm := if f.rtz then .rtz else .rne
/-- The magnitude part of the code with the largest finite magnitude (R128, R129). -/
def Fmt.topCode (f : Fmt) : Nat :=
  if f.isInt then 2 ^ (f.bw - 1) - 1
  else if f.spc then (2 ^ f.ew - 1) * 2 ^ f.m - 1
  else if !f.sgn && f.esc then 2 ^ (f.ew + f.m) - 2 else 2 ^ (f.ew + f.m) - 1
/-- The largest finite magnitude Mx as m × 2^e. -/
def Fmt.mx (f : Fmt) : Nat × Int :=
  match f.codeVal f.topCode with
  | .fin _ m e => (m, e)
  | _ => (0, 0)
/-- The least exponent of a last place. -/
def Fmt.qlow (f : Fmt) : Int := if f.isInt then 0 else 1 - f.bias - f.m
/-- The exponent of the spacing at the end of the grid (R139): that of Mx, or half of it where Mx begins a binade of normal
values, whose predecessor lies in the binade below. -/
def Fmt.endLow (f : Fmt) : Int :=
  if !f.isInt && f.topCode % 2 ^ f.m = 0 && 2 ≤ f.topCode / 2 ^ f.m then f.mx.2 - 1 else f.mx.2
/-- Round a magnitude m × 2^e on the grid, continued beyond Mx with the spacing at its end (R139): n × 2^q, and whether
the rounding was inexact. A tie goes to the even multiple of the spacing, so that where m is 0 and every code is finite a value
halfway between Mx and the next point, 1.25 Mx, rounds to Mx (log 27). -/
def Fmt.grid (f : Fmt) (m : Nat) (e : Int) : Nat × Int × Bool :=
  let q := min (max (e + bitLen m - 1 - f.m) f.qlow) f.endLow
  let q := if f.isInt then 0 else q
  let r := roundTo f.rm false m e false q
  (r.1, q, r.2)
/-- a × 2^p ≤ b × 2^q. -/
def dyLe (a : Nat) (p : Int) (b : Nat) (q : Int) : Bool :=
  let e := min p q
  a * 2 ^ (p - e).toNat ≤ b * 2 ^ (q - e).toNat
/-- The magnitude a value of a sign may reach (R139): without ESC the integer kinds go one lower on the negative side. -/
def Fmt.limit (f : Fmt) (neg : Bool) : Nat × Int :=
  if f.isInt && neg && !f.esc then (f.mx.1 + 1, 0) else f.mx
/-- Does x = m × 2^e overflow at scale byte sc (R139)? -/
def Fmt.overflows (f : Fmt) (neg : Bool) (m : Nat) (e : Int) (sc : Nat) : Bool :=
  let g := f.grid m (e + 127 - sc)
  let l := f.limit neg
  m ≠ 0 && !dyLe g.1 g.2.1 l.1 l.2
def Fmt.overflowsAt (f : Fmt) (sc : Nat) (x : Nat) : Bool :=
  match fmtF32.val x with
  | .fin n m e => f.overflows n m e sc
  | _ => false
/-- Does the format encode this value as a special (R140)? -/
def Fmt.encodes (f : Fmt) (v : FVal) : Bool :=
  match v with
  | .nan _ => !f.isInt && f.spc
  | .inf n => !f.isInt && f.spc && (f.sgn || !n)
  | _ => false
/-- Rank of a value by R140, as a number. -/
def qrank (x : Nat) : Nat := if (fmtF32.val x).isNan then 2 ^ 32 else x % 2 ^ 31
/-- An index in order of rank, ties to the lower index. -/
def rankIns (p : Nat × Nat) : List (Nat × Nat) → List (Nat × Nat)
  | [] => [p]
  | q :: t => if qrank q.1 ≤ qrank p.1 then p :: q :: t else q :: rankIns p t
/-- The indices of the n largest of some values with their indices. -/
def largest (n : Nat) (l : List (Nat × Nat)) : List Nat := ((l.foldr rankIns []).take n).map (·.2)
/-- The magnitude code of n × 2^q, which does not overflow. -/
def Fmt.magCode (f : Fmt) (n : Nat) (q : Int) : Nat :=
  if n = 0 then 0
  else if f.isInt then n
  else
    let le := q + bitLen n - 1
    if le < 1 - f.bias then n * 2 ^ (q - f.qlow).toNat
    else
      let lo := le - f.m
      let mant := if lo ≤ q then n * 2 ^ (q - lo).toNat else n / 2 ^ (lo - q).toNat
      (le + f.bias).toNat * 2 ^ f.m + (mant - 2 ^ f.m)
/-- Put a sign on a magnitude code. -/
def Fmt.signed (f : Fmt) (neg : Bool) (c : Nat) : Nat :=
  if f.isInt then if neg then (2 ^ f.bw - c) % 2 ^ f.bw else c else c + b2n neg * 2 ^ (f.bw - 1)
/-- The largest or least representable value by sign (R141): Mx or −Mx, −128 or −8 without ESC, +0 without a sign bit. -/
def Fmt.extreme (f : Fmt) (neg : Bool) : Nat :=
  if neg && f.kind = .narrow && !f.sgn then 0
  else if f.isInt then f.signed neg (f.limit neg).1 else f.signed neg f.topCode
/-- The code of a value that is not elected, at a scale byte (R141). -/
def Fmt.code (f : Fmt) (sc : Nat) (x : Nat) : Nat × CfFlags :=
  let v := fmtF32.val x
  match v with
  | .nan _ =>
    if f.encodes v then
      (match f.kind with | .f16 => 0x7e00 | .bf16 => 0x7fc0 | _ => (2 ^ f.ew - 1) * 2 ^ f.m + 1, 0)
    else (0, fNV)
  | .inf n =>
    if f.encodes v then (f.signed n ((2 ^ f.ew - 1) * 2 ^ f.m), 0) else (f.extreme n, fSAT)
  | .fin n m e =>
    let y := e + 127 - sc
    let g := f.grid m y
    let low := !f.isInt && m ≠ 0 && y + bitLen m - 1 < 1 - f.bias
    if f.overflows n m e sc then (f.extreme n, fSAT)
    else if n && f.kind = .narrow && !f.sgn then
      if g.1 ≠ 0 then (0, fSAT) else (0, flagIf (m ≠ 0) (fNX ||| flagIf low fUF))
    else
      let fl := flagIf g.2.2 (fNX ||| flagIf low fUF)
      if g.1 = 0 then (if n && !f.isInt && !f.esc then f.signed true 0 else 0, fl)
      else (f.signed n (f.magCode g.1 g.2.1), fl)
/-- An outlier list entry (R140). -/
def Fmt.listEntry (f : Fmt) (x : Nat) : List Byte × CfFlags :=
  if f.obf16 then
    let r := fpToFp fmtF32 fmtBf16 f.rm x
    (natLe 2 r.1, r.2)
  else (natLe 4 x, 0)
/-- The smallest scale at which no kept finite value overflows (R140). -/
def Fmt.chooseScale (f : Fmt) (xs : List Nat) : Nat :=
  ((List.range (f.smax + 1)).find? fun e => !xs.any (f.overflowsAt e)).getD f.smax
/-- The elected indices, or none: the list-overflow trap; with the LOV flag (R140). -/
def Fmt.elect (f : Fmt) (topk : Bool) (xs : List Nat) : Option (List Nat × CfFlags) :=
  let fs := if f.scl = 0 then 127 else f.smax
  let el := xs.zipIdx.filter fun p =>
    let v := fmtF32.val p.1
    p.1 % 2 ^ 31 ≠ 0 && !f.encodes v
  if !f.esc then some ([], 0)
  else if topk then some (largest f.cap el, 0)
  else
    let cand := el.filter fun p => f.overflowsAt fs p.1 || (match fmtF32.val p.1 with | .fin _ _ _ => false | _ => true)
    if cand.length ≤ f.cap then some (cand.map (·.2), 0)
    else if f.clamp then some (largest f.cap cand, fLOV) else none
/-- Quantise 1,024 FP32 values into a record (R140-R142), or none: the list-overflow trap. -/
def Fmt.quantise (f : Fmt) (topk : Bool) (xs : List Nat) : Option (List Byte × CfFlags) :=
  match f.elect topk xs with
  | none => none
  | some (el, fl0) =>
    let ix := xs.zipIdx.map fun p => (p.1, p.2, el.contains p.2)
    let kept := fun (lo n : Nat) => (((ix.drop lo).take n).filter fun p => !p.2.2).map (·.1)
    let scs := if f.scl = 1 then (List.range 32).map fun r => f.chooseScale (kept (32 * r) 32)
               else if f.scl = 2 then [f.chooseScale (kept 0 1024)] else []
    let sc := fun (i : Nat) => if f.scl = 1 then scs.getD (i / 32) 0 else if f.scl = 2 then scs.getD 0 0 else 127
    let cs := ix.map fun p => if p.2.2 then (f.escape, (0 : CfFlags)) else f.code (sc p.2.1) p.1
    let out := (ix.filter fun p => p.2.2).map fun p => f.listEntry p.1
    let fl := (cs.map (·.2) ++ out.map (·.2)).foldl (fun a p => a ||| p) fl0
    let body := pack f.bw (cs.map (·.1)) f.packed
    let pad := fun (n : Nat) (l : List Byte) => l ++ List.replicate (n - l.length) (0 : Byte)
    let trail := if f.trailer then pad 32 (scs.map (BitVec.ofNat 8)) ++ natLe 2 out.length ++ List.replicate 30 0 else []
    some (pad f.size (body ++ trail ++ (out.map (·.1)).flatten), fl)

/-! Instructions of the format edge (R143, R147, R148). -/

def execFmtSet (g : Guard) (n : FmtReg) (a : XReg) (s : State) : Out :=
  runHead s g fun w =>
    let v := w.regs.rx a
    check (!fmtMalformed v) .format 0 <|
      .ok ({ w with fmt := mput n.toNat v w.fmt }.act (.fmtSet n.toNat v))
def execFmtGet (g : Guard) (d : XReg) (n : FmtReg) (s : State) : Out :=
  runHead s g fun w => check (!fmtMalformed (s.fmtOf n.toNat)) .format 0 <| .ok { w with regs := w.regs.wx d (s.fmtOf n.toNat) }
/-- The checks of `vldf` and `vstq`, in the order of R147; then the record's format, core and offset. A `vstq` reads and
writes (log 51). -/
def tileAt {α : Type} (s : State) (a : Word) (n start : Nat) (wr : Bool) (k : Fmt → Nat → Nat → Except Trap α) : Except Trap α :=
  let v := s.fmtOf n
  let f := fmtRead v
  let wide := f.kind = .f64
  check (!fmtMalformed v) .format a <|
  check (aligned a 64) .alignment a <|
  (if wr then localRW s a f.size else localAt s a f.size false) fun c o =>
    check (start % (if wide then 8 else 16) = 0 && start ≤ (if wide then 1016 else 1008)) .index (wd start) <| k f c o
def execVldf (g : Guard) (d : VReg) (b : XReg) (n : FmtReg) (_ : LsId) (start : BitVec 10) (s : State) : Out :=
  headEndS s <|
    let w := s.work
    let m := w.regs.guard g
    let a := w.regs.rx b
    let wide := (fmtRead (s.fmtOf n.toNat)).kind = .f64
    if !anyLane wide m then .ok (s, w)
    else tileAt s a n.toNat start.toNat false fun f c o =>
      let bs := s.loadBytes w c o f.size
      if f.plain then
        let es := unpack (laneBits wide) 1024 bs
        .ok (s.touchAt c o f.size, { w with regs := w.regs.wv d (mapLanes wide m (w.regs.rv d) fun j => es.getD (start.toNat + j) 0) })
      else check (f.recordOk bs) .format a <|
        let vs := f.widen bs
        .ok (s.touchAt c o f.size,
          { w with regs := w.regs.wvf d (lanesF false m (w.regs.rv d) fun j => toF32 (vs.getD (start.toNat + j) (.fin false 0 0))) })
/-- The values of a tile with the enabled lanes replaced from START. -/
def mergeLanes (xs : List Nat) (start : Nat) (m : Half) (v : Line64) : List Nat :=
  xs.zipIdx.map fun p =>
    if start ≤ p.2 && p.2 < start + 16 && laneOn m false (p.2 - start) then getLane false v (p.2 - start) else p.1
/-- `vstq` (R147, R148): its block keeps what it read of the record, so that read and write are one access. -/
def execVstq (g : Guard) (b : XReg) (x : VReg) (n : FmtReg) (_ : LsId) (start : BitVec 10) (topk : Bool) (s : State) : Out :=
  headEndS s <|
    let w := s.work
    let m := w.regs.guard g
    let a := w.regs.rx b
    let wide := (fmtRead (s.fmtOf n.toNat)).kind = .f64
    if !anyLane wide m then .ok (s, w)
    else tileAt s a n.toNat start.toNat true fun f c o =>
      let nb := laneBits wide / 8
      if f.plain then
        .ok (s, w.store c (o + start.toNat * nb) (((List.range (laneCount wide)).map fun j =>
          if laneOn m wide j then whole (natLe nb (getLane wide (w.regs.rv x) j)) else List.replicate nb none).flatten) false)
      else
        let bs := s.loadBytes w c o f.size
        check (f.recordOk bs) .format a <|
        match f.quantise topk (mergeLanes ((f.widen bs).map fun v => (toF32 v).1) start.toNat m (w.regs.rv x)) with
        | none => trapAt .listOverflow 0
        | some (r, fl) =>
          .ok (s, { (w.store c o (whole r) false).note c o ((s.core c).readScr o f.size) with regs := w.regs.setFlags fl })

end Sys2Proof.Machine
end

