-- ==== Sys2Proof/Machine/Float.lean ====
section
/-! DEFINITION. Float.lean: the scalar floating-point instructions (R184-R189). -/

namespace Sys2Proof.Machine

/-- An operand of a type: `.f32` reads bits [31:0] (R184). -/
def fpArg (t : FTy) (v : Word) : Nat := match t with
  | .f32 => v.toNat % 2 ^ 32
  | .f64 => v.toNat
def fop2 (s : State) (g : Guard) (d a b : XReg) (t : FTy) (f : FpFmt → Nat → Nat → Nat × CfFlags) : Out :=
  regHead s g fun r => r.wxf d (f (fmtOf t) (fpArg t (r.rx a)) (fpArg t (r.rx b)))
def execFadd (g : Guard) (d a b : XReg) (t : FTy) (m : Rm) (s : State) : Out := fop2 s g d a b t fun f => f.add m
def execFsub (g : Guard) (d a b : XReg) (t : FTy) (m : Rm) (s : State) : Out := fop2 s g d a b t fun f => f.sub m
def execFmul (g : Guard) (d a b : XReg) (t : FTy) (m : Rm) (s : State) : Out := fop2 s g d a b t fun f => f.mul m
def execFdiv (g : Guard) (d a b : XReg) (t : FTy) (m : Rm) (s : State) : Out := fop2 s g d a b t fun f => f.div m
def execFsqrt (g : Guard) (d a : XReg) (t : FTy) (m : Rm) (s : State) : Out := fop2 s g d a a t fun f x _ => f.sqrt m x
def execFma (g : Guard) (d a b c : XReg) (t : FTy) (m : Rm) (s : State) : Out :=
  regHead s g fun r => r.wxf d ((fmtOf t).fma m (fpArg t (r.rx a)) (fpArg t (r.rx b)) (fpArg t (r.rx c)))
def execFmin (g : Guard) (d a b : XReg) (t : FTy) (s : State) : Out := fop2 s g d a b t fun f => f.minmax false
def execFmax (g : Guard) (d a b : XReg) (t : FTy) (s : State) : Out := fop2 s g d a b t fun f => f.minmax true
def execFcmp (g : Guard) (d a b : XReg) (t : FTy) (c : FCond) (s : State) : Out :=
  fop2 s g d a b t fun f x y => let r := f.cmp c x y; (b2n r.1, r.2)
def execFclass (g : Guard) (d a : XReg) (t : FTy) (s : State) : Out := fop2 s g d a a t fun f x _ => (f.classify x, 0)
def execFsgnj (g : Guard) (d a b : XReg) (t : FTy) (v : SgnVar) (s : State) : Out :=
  fop2 s g d a b t fun f x y => (f.sgnj v x y, 0)
def execFcvt (g : Guard) (d a : XReg) (dt sty : Ty) (m : Rm) (s : State) : Out :=
  regHead s g fun r => r.wxf d (convert dt sty m (r.rx a).toNat)

end Sys2Proof.Machine
end

