-- ==== Sys2Proof/Machine/Scalar.lean ====
section
/-! DEFINITION. Scalar.lean: the scalar integer and address instructions (R177-R183). None raises an execution trap or sets
a flag (R175); every write clears the pointer mark but that of `mov` (R174). -/

namespace Sys2Proof.Machine

/-- xD := f(x[A], x[B]). -/
def op2 (s : State) (g : Guard) (d a b : XReg) (f : Word → Word → Word) : Out :=
  regHead s g fun r => r.wx d (f (r.rx a) (r.rx b))
/-- xD := f(x[A]). -/
def op1 (s : State) (g : Guard) (d a : XReg) (f : Word → Word) : Out := regHead s g fun r => r.wx d (f (r.rx a))
def bool64 (b : Bool) : Word := if b then 1 else 0
/-- The shift amount in the low six bits (R177). -/
def sh6 (b : Word) : Nat := b.toNat % 64
def execAdd (g : Guard) (d a b : XReg) (s : State) : Out := op2 s g d a b fun x y => x + y
def execSub (g : Guard) (d a b : XReg) (s : State) : Out := op2 s g d a b fun x y => x - y
def execMul (g : Guard) (d a b : XReg) (s : State) : Out := op2 s g d a b fun x y => x * y
def execMulh (g : Guard) (d a b : XReg) (s : State) : Out := op2 s g d a b fun x y => BitVec.ofInt 64 (x.toInt * y.toInt / 2 ^ 64)
def execMulhu (g : Guard) (d a b : XReg) (s : State) : Out := op2 s g d a b fun x y => wd (x.toNat * y.toNat / 2 ^ 64)
/-- Division with the cases of R178; `div` truncates toward zero. -/
def divS (x y : Word) : Word := if y = 0 then BitVec.allOnes 64 else BitVec.ofInt 64 (x.toInt.tdiv y.toInt)
def remS (x y : Word) : Word := if y = 0 then x else BitVec.ofInt 64 (x.toInt.tmod y.toInt)
def divU (x y : Word) : Word := if y = 0 then BitVec.allOnes 64 else wd (x.toNat / y.toNat)
def remU (x y : Word) : Word := if y = 0 then x else wd (x.toNat % y.toNat)
def execDiv (g : Guard) (d a b : XReg) (s : State) : Out := op2 s g d a b divS
def execDivu (g : Guard) (d a b : XReg) (s : State) : Out := op2 s g d a b divU
def execRem (g : Guard) (d a b : XReg) (s : State) : Out := op2 s g d a b remS
def execRemu (g : Guard) (d a b : XReg) (s : State) : Out := op2 s g d a b remU
def execMin (g : Guard) (d a b : XReg) (s : State) : Out := op2 s g d a b fun x y => if y.slt x then y else x
def execMax (g : Guard) (d a b : XReg) (s : State) : Out := op2 s g d a b fun x y => if x.slt y then y else x
def execMinu (g : Guard) (d a b : XReg) (s : State) : Out := op2 s g d a b fun x y => if y.ult x then y else x
def execMaxu (g : Guard) (d a b : XReg) (s : State) : Out := op2 s g d a b fun x y => if x.ult y then y else x
def execAnd (g : Guard) (d a b : XReg) (s : State) : Out := op2 s g d a b fun x y => x &&& y
def execOr (g : Guard) (d a b : XReg) (s : State) : Out := op2 s g d a b fun x y => x ||| y
def execXor (g : Guard) (d a b : XReg) (s : State) : Out := op2 s g d a b fun x y => x ^^^ y
def execAndn (g : Guard) (d a b : XReg) (s : State) : Out := op2 s g d a b fun x y => x &&& ~~~y
def execSll (g : Guard) (d a b : XReg) (s : State) : Out := op2 s g d a b fun x y => x <<< sh6 y
def execSrl (g : Guard) (d a b : XReg) (s : State) : Out := op2 s g d a b fun x y => x >>> sh6 y
def execSra (g : Guard) (d a b : XReg) (s : State) : Out := op2 s g d a b fun x y => x.sshiftRight (sh6 y)
def execRol (g : Guard) (d a b : XReg) (s : State) : Out := op2 s g d a b fun x y => x.rotateLeft (sh6 y)
def execRor (g : Guard) (d a b : XReg) (s : State) : Out := op2 s g d a b fun x y => x.rotateRight (sh6 y)
def ctzNat (x : Word) : Nat := ((List.range 64).find? fun i => x.getLsbD i).getD 64
def clzNat (x : Word) : Nat := 64 - (if x = 0 then 0 else Nat.log2 x.toNat + 1)
def popNat {n : Nat} (x : BitVec n) : Nat := ((List.range n).filter fun i => x.getLsbD i).length
def execClz (g : Guard) (d a : XReg) (s : State) : Out := op1 s g d a fun x => wd (clzNat x)
def execCtz (g : Guard) (d a : XReg) (s : State) : Out := op1 s g d a fun x => wd (ctzNat x)
def execPopc (g : Guard) (d a : XReg) (s : State) : Out := op1 s g d a fun x => wd (popNat x)
def execBswap (g : Guard) (d a : XReg) (s : State) : Out := op1 s g d a fun x => bytesWord (wordBytes x).reverse
def execSeq (g : Guard) (d a b : XReg) (s : State) : Out := op2 s g d a b fun x y => bool64 (x = y)
def execSne (g : Guard) (d a b : XReg) (s : State) : Out := op2 s g d a b fun x y => bool64 (x ≠ y)
def execSlt (g : Guard) (d a b : XReg) (s : State) : Out := op2 s g d a b fun x y => bool64 (x.slt y)
def execSltu (g : Guard) (d a b : XReg) (s : State) : Out := op2 s g d a b fun x y => bool64 (x.ult y)
/-- x[N−1:0] extended by the type (R179). -/
def extTo (t : Ty) (x : Word) : Word := extendTy t (natLe (Ty.width t) x.toNat)
def execSext (g : Guard) (d a : XReg) (t : Ty) (s : State) : Out := op1 s g d a (extTo t)
def execZext (g : Guard) (d a : XReg) (t : Ty) (s : State) : Out := op1 s g d a (extTo t)
/-- The field of LEN bits at POS (R180). -/
def field (x : Word) (l p : BitVec 6) : Nat := (x.toNat / 2 ^ p.toNat) % 2 ^ (l.toNat + 1)
def execBfx (g : Guard) (d a : XReg) (l p : BitVec 6) (s : State) : Out :=
  op1 s g d a fun x => (BitVec.ofNat (l.toNat + 1) (field x l p)).signExtend 64
def execBfxu (g : Guard) (d a : XReg) (l p : BitVec 6) (s : State) : Out := op1 s g d a fun x => wd (field x l p)
def execBfi (g : Guard) (d a b : XReg) (l p : BitVec 6) (s : State) : Out :=
  op2 s g d a b fun x y => wd (x.toNat - field x l p * 2 ^ p.toNat + y.toNat % 2 ^ (l.toNat + 1) * 2 ^ p.toNat)
def execSel (g : Guard) (d a b c : XReg) (s : State) : Out :=
  regHead s g fun r => r.wx d (if r.rx c ≠ 0 then r.rx a else r.rx b)
def execAddi (g : Guard) (d a : XReg) (i : Half) (s : State) : Out := op1 s g d a fun x => x + i.signExtend 64
def execAndi (g : Guard) (d a : XReg) (i : Half) (s : State) : Out := op1 s g d a fun x => x &&& i.signExtend 64
def execOri (g : Guard) (d a : XReg) (i : Half) (s : State) : Out := op1 s g d a fun x => x ||| i.signExtend 64
def execXori (g : Guard) (d a : XReg) (i : Half) (s : State) : Out := op1 s g d a fun x => x ^^^ i.signExtend 64
def execSlli (g : Guard) (d a : XReg) (n : BitVec 6) (s : State) : Out := op1 s g d a fun x => x <<< n.toNat
def execSrli (g : Guard) (d a : XReg) (n : BitVec 6) (s : State) : Out := op1 s g d a fun x => x >>> n.toNat
def execSrai (g : Guard) (d a : XReg) (n : BitVec 6) (s : State) : Out := op1 s g d a fun x => x.sshiftRight n.toNat
def execSlti (g : Guard) (d a : XReg) (i : Half) (s : State) : Out := op1 s g d a fun x => bool64 (x.slt (i.signExtend 64))
def execSltiu (g : Guard) (d a : XReg) (i : Half) (s : State) : Out := op1 s g d a fun x => bool64 (x.ult (i.signExtend 64))
def execLea (g : Guard) (d b i : XReg) (n : BitVec 4) (off : BitVec 32) (s : State) : Out :=
  op2 s g d b i fun x y => x + (y <<< n.toNat) + off.signExtend 64
def execLi (g : Guard) (d : XReg) (i : BitVec 32) (s : State) : Out := regHead s g fun r => r.wx d (i.signExtend 64)
def execLih (g : Guard) (d a : XReg) (i : BitVec 32) (s : State) : Out := op1 s g d a fun x => i ++ x.extractLsb' 0 32
def execMov (g : Guard) (d a : XReg) (s : State) : Out := regHead s g fun r => r.wxm d (r.rx a) (r.mark a)

end Sys2Proof.Machine
end

