-- ==== Sys2Proof/Machine/Vector.lean ====
section
/-! DEFINITION. Vector.lean: vector and predicate instructions (R190-R202). Lanes are handled as numbers of their width;
a lane that is predicated off keeps its value and sets no flag. -/

namespace Sys2Proof.Machine

/-- Types of 64-bit lanes (R190). -/
def wideTy : Ty → Bool
  | .f64 | .s64 | .z64 => true
  | _ => false
def wideF : FTy → Bool
  | .f64 => true | .f32 => false

/-! Lane operations (R191, R192). -/

def vf2 (s : State) (g : Guard) (d a b : VReg) (t : FTy) (f : FpFmt → Nat → Nat → Nat × CfFlags) : Out :=
  laneHead s g fun m r => r.wvf d (lanesF (wideF t) m (r.rv d) fun i =>
    f (fmtOf t) (getLane (wideF t) (r.rv a) i) (getLane (wideF t) (r.rv b) i))
def execVfadd (g : Guard) (d a b : VReg) (t : FTy) (m : Rm) (s : State) : Out := vf2 s g d a b t fun f => f.add m
def execVfsub (g : Guard) (d a b : VReg) (t : FTy) (m : Rm) (s : State) : Out := vf2 s g d a b t fun f => f.sub m
def execVfmul (g : Guard) (d a b : VReg) (t : FTy) (m : Rm) (s : State) : Out := vf2 s g d a b t fun f => f.mul m
def execVfma (g : Guard) (d a b c : VReg) (t : FTy) (rm : Rm) (s : State) : Out :=
  laneHead s g fun m r => r.wvf d (lanesF (wideF t) m (r.rv d) fun i => (fmtOf t).fma rm
    (getLane (wideF t) (r.rv a) i) (getLane (wideF t) (r.rv b) i) (getLane (wideF t) (r.rv c) i))
def execVfmin (g : Guard) (d a b : VReg) (t : FTy) (s : State) : Out := vf2 s g d a b t fun f => f.minmax false
def execVfmax (g : Guard) (d a b : VReg) (t : FTy) (s : State) : Out := vf2 s g d a b t fun f => f.minmax true
def execVfdiv (g : Guard) (d a b : VReg) (t : FTy) (m : Rm) (s : State) : Out := vf2 s g d a b t fun f => f.div m
def execVfsqrt (g : Guard) (d a : VReg) (t : FTy) (m : Rm) (s : State) : Out := vf2 s g d a a t fun f x _ => f.sqrt m x

/-- An integer lane operation over the lanes' values by the type. -/
def vi2 (s : State) (g : Guard) (d a b : VReg) (t : Ty) (f : Int → Int → Int) : Out :=
  laneHead s g fun m r => r.wv d (mapLanes (wideTy t) m (r.rv d) fun i =>
    extInt (f (intVal t (getLane (wideTy t) (r.rv a) i)) (intVal t (getLane (wideTy t) (r.rv b) i))))
/-- Saturation to the range of a type (R192). -/
def saturate (t : Ty) (v : Int) : Int × CfFlags :=
  if v < intLo t then (intLo t, fSAT) else if intHi t < v then (intHi t, fSAT) else (v, 0)
def visat (s : State) (g : Guard) (d a b : VReg) (t : Ty) (sat : Bool) (f : Int → Int → Int) : Out :=
  laneHead s g fun m r => r.wvf d (lanesF (wideTy t) m (r.rv d) fun i =>
    let v := f (intVal t (getLane (wideTy t) (r.rv a) i)) (intVal t (getLane (wideTy t) (r.rv b) i))
    if sat then let q := saturate t v; (extInt q.1, q.2) else (extInt v, 0))
def execVadd (g : Guard) (d a b : VReg) (t : Ty) (sat : Bool) (s : State) : Out := visat s g d a b t sat fun x y => x + y
def execVsub (g : Guard) (d a b : VReg) (t : Ty) (sat : Bool) (s : State) : Out := visat s g d a b t sat fun x y => x - y
def execVmul (g : Guard) (d a b : VReg) (t : Ty) (s : State) : Out := vi2 s g d a b t fun x y => x * y
def execVmulh (g : Guard) (d a b : VReg) (t : Ty) (s : State) : Out := vi2 s g d a b t fun x y => x * y / 2 ^ intBits t
def execVmin (g : Guard) (d a b : VReg) (t : Ty) (s : State) : Out := vi2 s g d a b t fun x y => min x y
def execVmax (g : Guard) (d a b : VReg) (t : Ty) (s : State) : Out := vi2 s g d a b t fun x y => max x y
/-- A lane operation on bits; the type code chooses only the lane width. -/
def vb2 (s : State) (g : Guard) (d a b : VReg) (t : Ty) (f : Nat → Nat → Nat) : Out :=
  laneHead s g fun m r => r.wv d (mapLanes (wideTy t) m (r.rv d) fun i =>
    f (getLane (wideTy t) (r.rv a) i) (getLane (wideTy t) (r.rv b) i))
def execVand (g : Guard) (d a b : VReg) (t : Ty) (s : State) : Out := vb2 s g d a b t fun x y => x &&& y
def execVor (g : Guard) (d a b : VReg) (t : Ty) (s : State) : Out := vb2 s g d a b t fun x y => x ||| y
def execVxor (g : Guard) (d a b : VReg) (t : Ty) (s : State) : Out := vb2 s g d a b t fun x y => x ^^^ y
def execVsll (g : Guard) (d a b : VReg) (t : Ty) (s : State) : Out :=
  vb2 s g d a b t fun x y => x * 2 ^ (y % laneBits (wideTy t))
def execVsrl (g : Guard) (d a b : VReg) (t : Ty) (s : State) : Out :=
  vb2 s g d a b t fun x y => x / 2 ^ (y % laneBits (wideTy t))
def execVsra (g : Guard) (d a b : VReg) (t : Ty) (s : State) : Out :=
  vb2 s g d a b t fun x y => extInt (intVal (if wideTy t then .s64 else .s32) x / 2 ^ (y % laneBits (wideTy t)))

/-! Comparisons into predicates and selection (R193, R194, R201, R202). -/

/-- The bits of a predicate that lane i stands for (R193). -/
def laneMask (wide : Bool) (i : Nat) : Half := if wide then 3#16 <<< (2 * i) else 1#16 <<< i
/-- Write the outcome of each enabled lane into a predicate; bits of disabled lanes keep their value. -/
def qLanes (wide : Bool) (m old : Half) (f : Nat → Bool) : Half :=
  (List.range (laneCount wide)).foldl (fun q i =>
    if laneOn m wide i then if f i then q ||| laneMask wide i else q &&& ~~~(laneMask wide i) else q) old
def execVfcmp (g : Guard) (d : QReg) (a b : VReg) (t : FTy) (c : FCond) (s : State) : Out :=
  laneHead s g fun m r =>
    let f := fun i => (fmtOf t).cmp c (getLane (wideF t) (r.rv a) i) (getLane (wideF t) (r.rv b) i)
    (r.wq d (qLanes (wideF t) m (r.rq d) fun i => (f i).1)).setFlags
      (((List.range (laneCount (wideF t))).filter fun i => laneOn m (wideF t) i).foldl (fun acc i => acc ||| (f i).2) 0)
def icond (c : ICond) (x y : Int) : Bool := match c with
  | .eq => x = y | .ne => x ≠ y | .lt => x < y | .le => x ≤ y
def execVcmp (g : Guard) (d : QReg) (a b : VReg) (t : Ty) (c : ICond) (s : State) : Out :=
  laneHead s g fun m r => r.wq d (qLanes (wideTy t) m (r.rq d) fun i =>
    icond c (intVal t (getLane (wideTy t) (r.rv a) i)) (intVal t (getLane (wideTy t) (r.rv b) i)))
def execVsel (g : Guard) (d a b : VReg) (q : QReg) (t : Ty) (s : State) : Out :=
  laneHead s g fun m r => r.wv d (mapLanes (wideTy t) m (r.rv d) fun i =>
    if laneOn (r.rq q) (wideTy t) i then getLane (wideTy t) (r.rv a) i else getLane (wideTy t) (r.rv b) i)
def execPmaskLt (g : Guard) (d : QReg) (a b : XReg) (t : Ty) (s : State) : Out :=
  laneHead s g fun m r => r.wq d (qLanes (wideTy t) m (r.rq d) fun i => (r.rx a).toNat + i < (r.rx b).toNat)
/-- Predicate logic writes the bits whose guard bit is set (R202). -/
def q2 (s : State) (g : Guard) (d a b : QReg) (f : Half → Half → Half) : Out :=
  laneHead s g fun m r => r.wq d ((f (r.rq a) (r.rq b) &&& m) ||| (r.rq d &&& ~~~m))
def execPand (g : Guard) (d a b : QReg) (s : State) : Out := q2 s g d a b fun x y => x &&& y
def execPor (g : Guard) (d a b : QReg) (s : State) : Out := q2 s g d a b fun x y => x ||| y
def execPxor (g : Guard) (d a b : QReg) (s : State) : Out := q2 s g d a b fun x y => x ^^^ y
def execPnot (g : Guard) (d a : QReg) (s : State) : Out := q2 s g d a a fun x _ => ~~~x
def execPcnt (g : Guard) (d : XReg) (a : QReg) (s : State) : Out := regHead s g fun r => r.wx d (wd (popNat (r.rq a)))
def execPfirst (g : Guard) (d : XReg) (a : QReg) (s : State) : Out :=
  regHead s g fun r => r.wx d (wd (((List.range 16).find? fun i => (r.rq a).getLsbD i).getD 16))

/-! Reductions and scan (R195, R196). -/

/-- One level of the pairwise tree, lower lane on the left. -/
def pairUp (f : Nat → Nat → Nat × CfFlags) : List Nat → List Nat × CfFlags
  | x :: y :: t => let r := f x y; let q := pairUp f t; (r.1 :: q.1, r.2 ||| q.2)
  | l => (l, 0)
/-- The fixed pairwise tree of R195, at most fuel levels. -/
def treeReduce (f : Nat → Nat → Nat × CfFlags) : Nat → List Nat → CfFlags → Nat × CfFlags
  | 0, l, fl => (l.headD 0, fl)
  | n + 1, l, fl => if l.length ≤ 1 then (l.headD 0, fl) else let r := pairUp f l; treeReduce f n r.1 (fl ||| r.2)
def fpOf (t : Ty) : FpFmt := if wideTy t then fmtF64 else fmtF32
def isFp : Ty → Bool
  | .f32 | .f64 => true
  | _ => false
/-- The operation of a reduction on lane values; integer sums are taken modulo 2^mod (R195, R196). -/
def redFn (op : RedOp) (t : Ty) (mod : Nat) (x y : Nat) : Nat × CfFlags :=
  match isFp t, op with
  | true, .sum => (fpOf t).add .rne x y
  | true, .min => (fpOf t).minmax false x y
  | true, .max => (fpOf t).minmax true x y
  | false, .sum => ((x + y) % 2 ^ mod, 0)
  | false, .min => (if intVal t y < intVal t x then y else x, 0)
  | false, .max => (if intVal t x < intVal t y then y else x, 0)
/-- The identity of an operation as a lane value (R195). -/
def redIdentity (op : RedOp) (t : Ty) : Nat :=
  let f := fpOf t
  match isFp t, op with
  | true, .sum => f.zero true
  | true, .min => f.inf false
  | true, .max => f.inf true
  | false, .sum => 0
  | false, .min => extInt (intHi t) % 2 ^ intBits t
  | false, .max => extInt (intLo t) % 2 ^ intBits t
/-- The enabled lanes of a vector, identities elsewhere; integer sums extend each lane to 64 bits. -/
def redLanes (op : RedOp) (t : Ty) (ext : Bool) (m : Half) (v : Line64) : List Nat :=
  (List.range (laneCount (wideTy t))).map fun i =>
    if laneOn m (wideTy t) i then
      let x := getLane (wideTy t) v i
      if ext && !isFp t && op = .sum then extInt (intVal t x) else x
    else redIdentity op t
def vred (s : State) (g : Guard) (d : XReg) (a : VReg) (t : Ty) (op : RedOp) : Out :=
  laneHead s g fun m r =>
    let q := treeReduce (redFn op t 64) 4 (redLanes op t true m (r.rv a)) 0
    r.wxf d (if !isFp t && op ≠ .sum then (extInt (intVal t q.1), q.2) else q)
def execVredsum (g : Guard) (d : XReg) (a : VReg) (t : Ty) (s : State) : Out := vred s g d a t .sum
def execVredmin (g : Guard) (d : XReg) (a : VReg) (t : Ty) (s : State) : Out := vred s g d a t .min
def execVredmax (g : Guard) (d : XReg) (a : VReg) (t : Ty) (s : State) : Out := vred s g d a t .max
/-- The Kogge–Stone levels of R196: distances 1, 2, 4, 8. An operation's flags are those of the lane it gives
(R175): one at a disabled lane's position sets none, be its value used by an enabled lane or not (log 44). -/
def scanLevels (on : Nat → Bool) (f : Nat → Nat → Nat × CfFlags) : List Nat → List Nat → CfFlags → List Nat × CfFlags
  | [], l, fl => (l, fl)
  | d :: ds, l, fl =>
    if l.length ≤ d then scanLevels on f ds l fl
    else
      let rs := (List.range l.length).map fun i => if d ≤ i then f (l.getD (i - d) 0) (l.getD i 0) else (l.getD i 0, 0)
      scanLevels on f ds (rs.map (·.1)) (rs.zipIdx.foldl (fun a r => if on r.2 then a ||| r.1.2 else a) fl)
def execVscan (g : Guard) (d a : VReg) (t : Ty) (op : RedOp) (s : State) : Out :=
  laneHead s g fun m r =>
    let q := scanLevels (laneOn m (wideTy t)) (redFn op t (intBits t)) [1, 2, 4, 8] (redLanes op t false m (r.rv a)) 0
    (r.wv d (mapLanes (wideTy t) m (r.rv d) fun i => q.1.getD i 0)).setFlags q.2

/-! Permutes and moves between files (R197, R198). -/

def execVperm (g : Guard) (d a b : VReg) (t : Ty) (s : State) : Out :=
  laneHead s g fun m r => r.wv d (mapLanes (wideTy t) m (r.rv d) fun i =>
    let k := getLane (wideTy t) (r.rv b) i
    if k < laneCount (wideTy t) then getLane (wideTy t) (r.rv a) k else 0)
def execVbcast (g : Guard) (d : VReg) (x : XReg) (t : Ty) (s : State) : Out :=
  laneHead s g fun m r => r.wv d (mapLanes (wideTy t) m (r.rv d) fun _ => (r.rx x).toNat)
/-- `vext` and `vins` are governed by the guard bit of lane k, or by bit 0 when k is no lane (R197). -/
def laneGate (m : Half) (t : Ty) (k : Nat) : Bool :=
  if k < laneCount (wideTy t) then laneOn m (wideTy t) k else m.getLsbD 0
def execVext (g : Guard) (d : XReg) (a : VReg) (i : XReg) (t : Ty) (s : State) : Out :=
  laneHead s g fun m r =>
    let k := (r.rx i).toNat
    if laneGate m t k then
      r.wx d (if k < laneCount (wideTy t) then extendTy t (natLe (Ty.width t) (getLane (wideTy t) (r.rv a) k)) else 0)
    else r
def execVins (g : Guard) (d : VReg) (x i : XReg) (t : Ty) (s : State) : Out :=
  laneHead s g fun m r =>
    let k := (r.rx i).toNat
    if k < laneCount (wideTy t) && laneGate m t k then
      r.wv d (ofLanes (wideTy t) ((List.range (laneCount (wideTy t))).map fun j =>
        if j = k then (r.rx x).toNat else getLane (wideTy t) (r.rv d) j))
    else r
/-- The lanes a mask selects, lowest first. -/
def maskLanes (wide : Bool) (q : Half) : List Nat := (List.range (laneCount wide)).filter fun i => laneOn q wide i
def execVcompress (d a : VReg) (q : QReg) (t : Ty) (s : State) : Out :=
  laneHead s ⟨0, false⟩ fun _ r =>
    let l := (maskLanes (wideTy t) (r.rq q)).map fun i => getLane (wideTy t) (r.rv a) i
    r.wv d (ofLanes (wideTy t) l)
def execVexpand (d a : VReg) (q : QReg) (t : Ty) (s : State) : Out :=
  laneHead s ⟨0, false⟩ fun _ r =>
    let on := maskLanes (wideTy t) (r.rq q)
    r.wv d (ofLanes (wideTy t) ((List.range (laneCount (wideTy t))).map fun i =>
      match on.findIdx? (· = i) with
      | some k => getLane (wideTy t) (r.rv a) k
      | none => 0))

/-! Conversions and elementary functions (R199, R200). -/

/-- With types of one width each lane converts in place; with two widths the 32-bit side uses lanes 8H to 8H + 7. -/
def execVcvt (g : Guard) (d a : VReg) (dt sty : Ty) (rm : Rm) (h : Bool) (s : State) : Out :=
  laneHead s g fun m r =>
    let o := if h then 8 else 0
    if wideTy dt = wideTy sty then
      r.wvf d (lanesF (wideTy dt) m (r.rv d) fun i => convert dt sty rm (getLane (wideTy sty) (r.rv a) i))
    else if wideTy dt then
      r.wvf d (lanesF true m (r.rv d) fun j => convert dt sty rm (getLane false (r.rv a) (o + j)))
    else
      r.wvf d (lanesF false (m &&& (if h then 0xff00 else 0x00ff)) (r.rv d) fun i =>
        convert dt sty rm (getLane true (r.rv a) (i - o)))
def vf1 (s : State) (g : Guard) (d a : VReg) (f : Nat → Nat × CfFlags) : Out :=
  laneHead s g fun m r => r.wvf d (lanesF false m (r.rv d) fun i => f (getLane false (r.rv a) i))
def execVexp2 (g : Guard) (d a : VReg) (rm : Rm) (s : State) : Out := vf1 s g d a (exp2Fp fmtF32 rm)
/-- `vrcp` is the quotient of 1.0 by the lane (R200). -/
def execVrcp (g : Guard) (d a : VReg) (rm : Rm) (s : State) : Out := vf1 s g d a fun x => fmtF32.div rm 0x3f800000 x
def execVrsqrt (g : Guard) (d a : VReg) (rm : Rm) (s : State) : Out := vf1 s g d a (rsqrtFp fmtF32 rm)

end Sys2Proof.Machine
end

