-- ==== Sys2Proof/Machine/Matrix.lean ====
section
/-! DEFINITION. Matrix.lean: the matrix unit (R203-R227): the heads that check and hand over requests, and the events in
which the unit carries a request out and completes it. -/

namespace Sys2Proof.Machine

/-! Accumulators (R204, R50). -/

/-- Replace consecutive bytes of a canonical byte map. -/
def mputRange (m : Map Byte) (a : Nat) (bs : List Byte) : Map Byte :=
  m.filter (fun p => p.1 < a) ++
    (bs.zipIdx.filterMap fun p => if p.1 = 0 then none else some (a + p.2, p.1)) ++
    m.filter fun p => a + bs.length ≤ p.1
/-- The elements of an accumulator under its view: 1,024 of FP32 or 512 of FP64, row by row. -/
def Core.accElems (x : Core) (n : Nat) (wide : Bool) : Array Nat :=
  (unpack (laneBits wide) (if wide then 512 else 1024) (readMap x.acc (4096 * n) 4096)).toArray
def Core.setAcc (x : Core) (n : Nat) (wide : Bool) (es : List Nat) : Core :=
  { x with acc := mputRange x.acc (4096 * n) (pack (laneBits wide) es 4096) }
def wideT : Ty → Bool
  | .f64 => true
  | _ => false
def elem (a : Array Nat) (i : Nat) : Nat := a.getD i 0
def valAt (a : Array FVal) (i : Nat) : FVal := a.getD i (.fin false 0 0)

/-! Ownership (R205, R206). -/

def execAccGet (g : Guard) (d : AccReg) (s : State) : Out := runHead s g fun w => .ok (w.act (.accGet d.toNat))
def execAccGive (g : Guard) (d : AccReg) (s : State) : Out := runHead s g fun w => .ok (w.act (.accGive d.toNat))
/-- A request with what every request carries (R210, R212). -/
def mreq (s : State) (w : Work) (form : MForm) (d : Nat) : MReq :=
  { form := form, d := d, fp := s.me.fp, lid := s.me.lid, sid := s.mySid, thr := s.me.thr, pos := BitVec.ofNat 32 (w.line * 32 + w.k) }
/-- Hand a request over at commit, its frame holding the accumulators it names (R205). -/
def handOver (w : Work) (m : MReq) (uses : List Nat) : HeadRes :=
  .ok ((uses.foldl (fun w n => w.act (.accUse n)) w).act (.matrix m))
def execAccZero (g : Guard) (d : AccReg) (s : State) : Out :=
  runHead s g fun w => handOver w (mreq s w .accZero d.toNat) [d.toNat]

/-! Views and their checks (R207-R209). -/

/-- A view address checked and its record read as the block's working copy holds it (R209, step 1). -/
def viewAt {α : Type} (s : State) (w : Work) (a : Word) (k : List Word → Except Trap α) : Except Trap α :=
  check (aligned a 32) .alignment a <| localAt s a 32 false fun c o => k (bytesWords (s.loadBytes w c o 32))
def viewOf (s : State) (ws : List Word) : View :=
  let w1 := ws.getD 1 0
  { addr := 0, base := ws.getD 0 0, rstr := bits w1 63 32, cstr := bits w1 31 0,
    fmt := s.fmtOf (bits (ws.getD 2 0) 3 0), aux := ws.getD 3 0 }
/-- The bound of gathered rows (R207). -/
def viewBound (ws : List Word) : Nat := if bits (ws.getD 2 0) 63 48 = 0 then 65535 else bits (ws.getD 2 0) 63 48
/-- Is a view well formed (R207)? AUX is a zero field but in the sparse A of `mmas`, where it is a multiple of 32: one that is
not makes the view malformed, which R207 leaves unsaid (log 53). -/
def viewOk (ws : List Word) (sparse : Bool) : Bool :=
  aligned (ws.getD 0 0) 64 && bits (ws.getD 1 0) 63 32 % 64 = 0 && bits (ws.getD 1 0) 31 0 % 64 = 0 &&
    bits (ws.getD 2 0) 47 4 = 0 && if sparse then aligned (ws.getD 3 0) 32 else ws.getD 3 0 = 0
/-- Does the kind of a view's format suit the form (R208)? -/
def kindSuits (form : MForm) (v : Word) : Bool :=
  let k := bits v 3 0
  match form with
  | .mmaF32 => k = 1
  | .mmaF64 => k = 0
  | .mscan => 1 ≤ k
  | _ => 2 ≤ k
/-- Does a view and its format pass step 2 of R209? -/
def viewFits (form : MForm) (ws : List Word) (v : View) (sparse : Bool) : Bool :=
  viewOk ws sparse && !fmtMalformed v.fmt && kindSuits form v.fmt
/-- The address of a tile (R207). -/
def View.tile (v : View) (ti tk : Nat) : Word := v.base + wd (ti * v.rstr + tk * v.cstr)
/-- The bytes V and X of a sparse chunk record with T entries, and its size (R220). -/
def sparseParts (f : Fmt) (t : Nat) : Nat × Nat × Nat :=
  let v := 64 * ((t * f.bw + 511) / 512)
  let x := 64 * ((t + 63) / 64)
  (v, x, v + x + if f.scl = 0 then 0 else 64)
def budgetSum (b : List Byte) : Nat := (b.map (·.toNat)).sum
/-- The size of an A operand and of a B operand of a form (R208, R220). -/
def aSize (m : MReq) : Nat :=
  match m.form with
  | .mmaF32 | .mmaF64 => 4096
  | .mmas => (sparseParts (fmtRead m.a.fmt) (budgetSum m.budget)).2.2
  | _ => (fmtRead m.a.fmt).size
def bSize (m : MReq) : Nat := (fmtRead m.b.fmt).size
/-- Remove repeats, keeping the first. -/
def nub : List Nat → List Nat
  | [] => []
  | a :: t => a :: (nub t).filter (· ≠ a)
/-- The tile rows of A a request reads: those of the gathered rows, else row 0. -/
def MReq.tileRows (m : MReq) : List Nat :=
  if m.form = .mmag then nub ((m.rows.filter (· ≠ 0xffff)).map (· / 32)) else [0]
/-- The tiles of a request with their sizes, chunk by chunk. -/
def MReq.tiles (m : MReq) : List (Word × Nat) :=
  if m.form = .mscan then [(m.a.tile 0 0, aSize m), (m.b.tile 0 0, bSize m)]
  else ((List.range m.chunks).map fun c => (m.tileRows.map fun t => (m.a.tile t c, aSize m)) ++ [(m.b.tile c 0, bSize m)]).flatten
/-- Every operand of a request with its size (R209, step 4). -/
def MReq.operands (m : MReq) : List (Word × Nat) := (if m.form = .mmas then [(m.a.aux, 32)] else []) ++ m.tiles
/-- Local accesses of a core, by address and size, are noted on the frames they fall in (R120). -/
def State.touchLocal (s : State) (c : Nat) (l : List (Word × Nat)) : State :=
  s.each l fun s p => match s.localAddr c p.1 with
    | some (t, o) => s.touchAt t o p.2
    | none => s
/-- The first operand that does not lie within one core's scratch under R110 and R82. -/
def State.badOperand (s : State) (l : List (Word × Nat)) : Option (Word × Nat) :=
  l.find? fun p => p.2 ≠ 0 && (s.localOk s.cur.core s.mySid p.1 p.2 false).isNone
/-- Steps 3 to 5 of R209 for a request, then its hand-over. -/
def mulChecks (s : State) (w : Work) (m : MReq) (bound : Nat) (scanBad : Bool) (sf : SlotField) : HeadRes :=
  match m.rows.find? fun g => g ≠ 0xffff && bound ≤ g with
  | some g => trapAt .index (wd g)
  | none =>
    check (!scanBad) .index m.t <|
    match s.badOperand m.operands with
    | some p => trapAt .scratchProtection p.1
    | none => wordsOk s (slotOf sf) none (handOver w m [m.d])
/-- A multiply or scan form: the checks of R209 in its order, then the request. Which operand ADDR names where several fail one
step R209 leaves open (log 53): in steps 1 and 2 the view of A is checked whole before that of B, step 3 takes the lowest lane, and
step 4 the budget table and then chunk by chunk A before B. -/
def mulHead (s : State) (g : Guard) (form : MForm) (d : AccReg) (a b : XReg) (rows : Regs → List Nat) (chunks : Nat)
    (t : Regs → Word) (scanBad : Word → Bool) (p : PktMod) (sf : SlotField) : Out :=
  runHeadS s g fun w =>
    let sparse := form = .mmas
    let read := fun (wa : List Word) => [(w.regs.rx a, 32), (w.regs.rx b, 32)] ++ if sparse then [((viewOf s wa).aux, 32)] else []
    viewAt s w (w.regs.rx a) fun wa =>
    viewAt s w (w.regs.rx b) fun wb =>
    (fun (x : HeadRes) => x.map fun w' => (s.touchLocal s.cur.core (read wa), w')) <|
    let va := viewOf s wa
    let vb := viewOf s wb
    check (viewFits form wa va sparse) .format (w.regs.rx a) <|
    check (viewFits form wb vb false) .format (w.regs.rx b) <|
    let bud := if sparse then
        match s.localOk s.cur.core s.mySid va.aux 32 false with
        | some (c, o) => s.loadBytes w c o 32
        | none => []
      else []
    check (!sparse || (!bitOf va.fmt 26 && bud.all fun n => n.toNat ≤ 32)) .format (w.regs.rx a) <|
    mulChecks s w { mreq s w form d.toNat with a := va, b := vb, rows := rows w.regs, budget := bud, chunks := chunks,
                                               t := t w.regs, p := p, slot := slotOf sf }
      (viewBound wa) (scanBad (t w.regs)) sf
def noRows (_ : Regs) : List Nat := []
def noScan (_ : Regs) : Word := 0
def execMma (g : Guard) (d : AccReg) (a b : XReg) (k : BitVec 4) (p : PktMod) (sf : SlotField) (s : State) : Out :=
  mulHead s g .mma d a b noRows (k.toNat + 1) noScan (fun _ => false) p sf
/-- Its chunks of 8 lie four to a tile (R214). -/
def execMmaF32 (g : Guard) (d : AccReg) (a b : XReg) (k : BitVec 4) (p : PktMod) (sf : SlotField) (s : State) : Out :=
  mulHead s g .mmaF32 d a b noRows (k.toNat + 1) noScan (fun _ => false) p sf
def execMmaF64 (g : Guard) (d : AccReg) (a b : XReg) (k : BitVec 4) (p : PktMod) (sf : SlotField) (s : State) : Out :=
  mulHead s g .mmaF64 d a b noRows (k.toNat + 1) noScan (fun _ => false) p sf
/-- The 32 halfword lanes of a vector of indices (R157, R219). -/
def indexLanes (n : Nat) (v : Line64) : List Nat := (List.range n).map fun j => (v.extractLsb' (16 * j) 16).toNat
def execMmag (g : Guard) (d : AccReg) (a b : XReg) (v : VReg) (k : BitVec 4) (p : PktMod) (sf : SlotField) (s : State) : Out :=
  mulHead s g .mmag d a b (fun r => indexLanes 32 (r.rv v)) (k.toNat + 1) noScan (fun _ => false) p sf
def execMmas (g : Guard) (d : AccReg) (a b : XReg) (k : BitVec 4) (p : PktMod) (sf : SlotField) (s : State) : Out :=
  mulHead s g .mmas d a b noRows (k.toNat + 1) noScan (fun _ => false) p sf
/-- For `mscan` SEG is required to be zero; a nonzero reserved bit raises the index trap (R222). -/
def execMscan (g : Guard) (d : AccReg) (a b t : XReg) (p : PktMod) (sf : SlotField) (s : State) : Out :=
  mulHead s g .mscan d a b noRows 1 (fun r => r.rx t) (fun v => bits v 63 37 ≠ 0 || bits v 31 0 ≠ 0) p sf
def execMscanSeg (g : Guard) (d : AccReg) (a b t : XReg) (p : PktMod) (sf : SlotField) (s : State) : Out :=
  mulHead s g .mscan d a b noRows 1 (fun r => r.rx t) (fun v => bits v 63 37 ≠ 0) p sf

/-! Accumulator load, store, add, reduce and quantise (R223-R225). -/

/-- Bytes of one row of an accumulator form (R223). -/
def rowBytes : Ty → Nat
  | .f64 => 256
  | .bf16 => 64
  | _ => 128
def accMove (s : State) (g : Guard) (form : MForm) (n : AccReg) (a : XReg) (nm1 : BitVec 5) (ty : Ty) (p : PktMod)
    (sf : SlotField) : Out :=
  runHead s g fun w =>
    let len := (nm1.toNat + 1) * rowBytes ty
    wordsOk s (slotOf sf) none <|
    check (aligned (w.regs.rx a) 64) .alignment (w.regs.rx a) <|
    localAt s (w.regs.rx a) len (form = .accSt) fun _ _ =>
      handOver w { mreq s w form n.toNat with ty := ty, n := nm1.toNat + 1, addr := w.regs.rx a, p := p, slot := slotOf sf }
        [n.toNat]
def execAccLd (g : Guard) (d : AccReg) (a : XReg) (n : BitVec 5) (ty : Ty) (p : PktMod) (sf : SlotField) (s : State) : Out :=
  accMove s g .accLd d a n ty p sf
def execAccSt (g : Guard) (a : XReg) (d : AccReg) (n : BitVec 5) (ty : Ty) (p : PktMod) (sf : SlotField) (s : State) : Out :=
  accMove s g .accSt d a n ty p sf
def fTy : FTy → Ty
  | .f64 => .f64 | .f32 => .f32
def execAccAdd (g : Guard) (d a : AccReg) (ty : FTy) (s : State) : Out :=
  runHead s g fun w => handOver w { mreq s w .accAdd d.toNat with s := a.toNat, ty := fTy ty } [d.toNat, a.toNat]
def execAccRed (g : Guard) (d a : AccReg) (ty : FTy) (s : State) : Out :=
  runHead s g fun w => handOver w { mreq s w .accRed d.toNat with s := a.toNat, ty := fTy ty } [d.toNat, a.toNat]
/-- `qtile` (R225): its block waits until the request queue is empty, then the head executes. -/
def execQtile (g : Guard) (a : XReg) (n : AccReg) (fm : FmtReg) (topk : Bool) (p : PktMod) (sf : SlotField) (s : State) : Out :=
  if s.work.regs.on g && !(s.core s.cur.core).mq.isEmpty then .next s
  else runHead s g fun w =>
    let v := s.fmtOf fm.toNat
    let f := fmtRead v
    wordsOk s (slotOf sf) none <|
    check (aligned (w.regs.rx a) 64) .alignment (w.regs.rx a) <|
    check (!fmtMalformed v && f.kind ≠ .f64) .format (w.regs.rx a) <|
    localAt s (w.regs.rx a) f.size true fun c o =>
      let xs := ((s.core s.cur.core).accElems n.toNat false).toList
      let w := w.act (.accUse n.toNat)
      if f.kind = .f32 then .ok (w.act (.tile c o (pack 32 xs 4096) p (slotOf sf)))
      else match f.quantise topk xs with
        | none => trapAt .listOverflow 0
        | some (r, fl) => .ok { w.act (.tile c o r p (slotOf sf)) with regs := w.regs.setFlags fl }

/-! Carrying a request out (R210, R214-R224). -/

def tileBytes (s : State) (c : Nat) (a : Word) (n : Nat) : List Byte :=
  match s.localAddr c a with
  | some (t, o) => (s.core t).readScr o n
  | none => List.replicate n 0
/-- The widened elements of a tile, or the address of a failing record (R210). -/
def tileVals (s : State) (c : Nat) (fmt : Word) (a : Word) : Except Word (Array FVal) :=
  let f := fmtRead fmt
  let bs := tileBytes s c a f.size
  if f.plain || f.recordOk bs then .ok (f.widen bs).toArray else .error a
/-- Row, column and value of the entries of a sparse chunk record, or none when it fails (R220). -/
def sparseVals (f : Fmt) (bud : List Byte) (bs : List Byte) : Option (List (Nat × Nat × FVal)) :=
  let t := budgetSum bud
  let p := sparseParts f t
  let rows := (bud.zipIdx.map fun q => List.replicate q.1.toNat q.2).flatten
  let vals := leNat (bs.take p.1)
  let cols := ((bs.drop p.1).take p.2.1).map (·.toNat)
  let sc := ((bs.drop (p.1 + p.2.1)).take 64).map (·.toNat)
  let used := if f.scl = 1 then 32 else if f.scl = 2 then 1 else 0
  let ents := rows.zipIdx.map fun q =>
    (q.1, cols.getD q.2 0, ((f.codeVal ((vals / 2 ^ (f.bw * q.2)) % 2 ^ f.bw)).scaled
      ((if f.scl = 1 then (sc.getD q.1 0 : Int) else if f.scl = 2 then sc.getD 0 0 else 127) - 127)))
  let rising := ((ents.zip (ents.drop 1)).all fun q => q.1.1 ≠ q.2.1 || q.1.2.1 < q.2.2.1)
  if vals < 2 ^ (f.bw * t) && (cols.zipIdx.all fun q => if q.2 < t then q.1 < 32 else q.1 = 0) && rising &&
      (f.scl = 0 || sc.zipIdx.all fun q => if q.2 < used then q.1 ≠ 255 else q.1 = 0) then some ents else none
/-- The 32 × 32 values of a chunk of A (R208, R219, R220). -/
def aVals (s : State) (c : Nat) (m : MReq) (k : Nat) : Except Word (Array FVal) :=
  match m.form with
  | .mmas =>
    let f := fmtRead m.a.fmt
    match sparseVals f m.budget (tileBytes s c (m.a.tile 0 k) (aSize m)) with
    | none => .error (m.a.tile 0 k)
    | some es => .ok (es.foldl (fun a e => a.setIfInBounds (32 * e.1 + e.2.1) e.2.2) (Array.replicate 1024 (.fin false 0 0)))
  | .mmag => do
    let ts ← m.tileRows.mapM fun t => do return (t, ← tileVals s c m.a.fmt (m.a.tile t k))
    return (m.rows.map fun g => (List.range 32).map fun j =>
      if g = 0xffff then FVal.fin false 0 0 else valAt ((ts.find? fun q => q.1 = g / 32).map (·.2) |>.getD #[]) (32 * (g % 32) + j)).flatten.toArray
  | _ => tileVals s c m.a.fmt (m.a.tile 0 k)
/-- The exact product of two values that are not zero. -/
def fmul : FVal → FVal → FVal
  | .nan _, _ | _, .nan _ => .nan false
  | .inf a, y => .inf (a != y.neg)
  | x, .inf b => .inf (x.neg != b)
  | .fin a m e, .fin b n f => .fin (a != b) (m * n) (e + f)
def FVal.isZero : FVal → Bool
  | .fin _ m _ => m = 0
  | _ => false
/-- What the chunk sum gathers from its products: a NaN, infinities of each sign, and the finite products. -/
structure Prods where
  nan : Bool := false
  pinf : Bool := false
  ninf : Bool := false
  fin : List (Bool × Nat × Int) := []
  deriving DecidableEq, Repr
def Prods.add (p : Prods) (a b : FVal) : Prods :=
  if a.isZero || b.isZero then p
  else match fmul a b with
    | .nan _ => { p with nan := true }
    | .inf n => if n then { p with ninf := true } else { p with pinf := true }
    | .fin n m e => { p with fin := (n, m, e) :: p.fin }
/-- The aligned chunk sum added to an accumulator element (R214): terms truncated at 2^(E − U), one rounding. -/
def chunkAdd (u : Nat) (acc : Nat) (p : Prods) : Nat :=
  let av := fmtF32.val acc
  let anyInf := p.pinf || p.ninf
  if p.fin.isEmpty && !p.nan && !anyInf then acc
  else if p.nan || (p.pinf && p.ninf) || av.isNan then fmtF32.qnan
  else if anyInf then
    match av with
    | .inf n => if n = p.ninf then acc else fmtF32.qnan
    | _ => fmtF32.inf p.ninf
  else match av with
    | .inf _ => acc
    | .nan _ => fmtF32.qnan
    | .fin n m e =>
      let top := p.fin.foldl (fun (t : Option Int) q =>
        let l : Int := q.2.2 + bitLen q.2.1 - 1
        some (match t with | none => l | some x => max x l)) none
      let unit : Int := top.getD 0 + 1 - u
      let sum := p.fin.foldl (fun (t : Int) q =>
        let v : Int := if unit ≤ q.2.2 then q.2.1 * 2 ^ (q.2.2 - unit).toNat else (q.2.1 / 2 ^ (unit - q.2.2).toNat : Nat)
        if q.1 then t - v else t + v) 0
      (fmtF32.roundSum .rne (addExact n m e (sum < 0) sum.natAbs unit) (n && sum < 0) (!n && 0 ≤ sum)).1
/-- One chunk of n consecutive k from k0 of a tile pair, over all outputs. -/
def chunkStep (u n k0 : Nat) (a b : Array FVal) (acc : List Nat) : List Nat :=
  acc.zipIdx.map fun q =>
    let i := q.2 / 32
    let j := q.2 % 32
    chunkAdd u q.1 ((List.range n).foldl (fun p k => p.add (valAt a (32 * i + k0 + k)) (valAt b (32 * (k0 + k) + j))) {})
/-- The FP64 steps of one tile pair (R217). -/
def f64Step (a b : List Byte) (acc : List Nat) : List Nat :=
  let av := (unpack 64 512 a).toArray
  let bv := (unpack 64 1024 b).toArray
  acc.zipIdx.map fun q =>
    (List.range 32).foldl (fun t k => (fmtF64.fma .rne (elem av (32 * (q.2 / 32) + k)) (elem bv (32 * k + q.2 % 32)) t).1) q.1
/-- Each carrier chunk in ascending k. -/
def mulTile (form : MForm) (a b : Array FVal) (acc : List Nat) : List Nat :=
  if form = .mmaF32 then [0, 8, 16, 24].foldl (fun acc k => chunkStep 80 8 k a b acc) acc else chunkStep 62 32 0 a b acc
/-- The scan of one channel (R222): pairs of A and B in FP32. -/
def scanLevel (ps : List (Nat × Nat)) (d : Nat) : List (Nat × Nat) :=
  ps.zipIdx.map fun q =>
    if q.2 < d then q.1
    else let o := ps.getD (q.2 - d) (0, 0)
      ((fmtF32.mul .rne q.1.1 o.1).1, (fmtF32.fma .rne q.1.1 o.2 q.1.2).1)
def scanChannel (ps : List (Nat × Nat)) (h0 : Nat) : List Nat :=
  ([1, 2, 4, 8, 16].foldl scanLevel ps).map fun q => (fmtF32.fma .rne q.1 h0 q.2).1
/-- The pairwise sum of a row (R195, R224). -/
def rowSum (f : FpFmt) (l : List Nat) : Nat := (treeReduce (f.add .rne) 6 l 0).1
/-- The operands that the unit reads of scratch. -/
def MReq.reads (m : MReq) : List (Word × Nat) :=
  match m.form with
  | .accZero | .accAdd | .accRed | .accSt => []
  | .accLd => [(m.addr, m.n * rowBytes m.ty)]
  | _ => m.tiles
/-- Carry out a request: the next state, or the address of the failing record of a matrix fault. Of several failing records
R210 does not say which is reported: it is the first by chunk, A before B, the tiles of `mmag` in the order of first use
(log 65). -/
def mRun (s : State) (c : Nat) (m : MReq) : Except Word State :=
  let x := s.core c
  let put := fun (wide : Bool) (es : List Nat) => s.setCore c (x.setAcc m.d wide es)
  match m.form with
  | .accZero => .ok (put false (List.replicate 1024 0))
  | .mmaF64 => .ok (put true ((List.range m.chunks).foldl (fun acc k =>
      f64Step (tileBytes s c (m.a.tile 0 k) 4096) (tileBytes s c (m.b.tile k 0) 8192) acc) (x.accElems m.d true).toList))
  | .mscan => do
    let a ← tileVals s c m.a.fmt (m.a.tile 0 0)
    let b ← tileVals s c m.b.fmt (m.b.tile 0 0)
    let t := bits m.t 36 32 + 1
    let old := x.accElems m.d false
    let cols := (List.range 32).map fun j => (scanChannel ((List.range t).map fun i =>
      (if bitOf m.t i then 0 else (toF32 (valAt a (32 * i + j))).1, (toF32 (valAt b (32 * i + j))).1)) (elem old j)).toArray
    return put false (old.toList.zipIdx.map fun q =>
      let i := q.2 / 32
      if i < t then elem (cols.getD (q.2 % 32) #[]) ((i + t - 1) % t) else q.1)
  | .accLd =>
    let n := m.n * rowBytes m.ty
    .ok (s.setCore c { x with acc := mputRange x.acc (4096 * m.d) (tileBytes s c m.addr n) })
  | .accSt =>
    match s.localAddr c m.addr with
    | none => .ok s
    | some (t, o) =>
      let bs := readMap x.acc (4096 * m.d) (m.n * (if m.ty = .f64 then 256 else 128))
      let out := if m.ty = .bf16 then ((unpack 32 (32 * m.n) bs).map fun v => natLe 2 (fpToFp fmtF32 fmtBf16 .rne v).1).flatten else bs
      .ok (s.scrWrite t o (whole out) false)
  | .accAdd =>
    let wide := wideT m.ty
    let f := if wide then fmtF64 else fmtF32
    .ok (put wide (((x.accElems m.d wide).toList.zip (x.accElems m.s wide).toList).map fun q => (f.add .rne q.1 q.2).1))
  | .accRed =>
    let wide := wideT m.ty
    let f := if wide then fmtF64 else fmtF32
    let src := (x.accElems m.s wide).toList
    let rows := if wide then 16 else 32
    .ok (put wide ((x.accElems m.d wide).toList.zipIdx.map fun q =>
      if q.2 < rows then rowSum f ((src.drop (32 * q.2)).take 32) else q.1))
  | form => do
    let ts ← (List.range m.chunks).mapM fun k => do
      let a ← aVals s c m k
      let b ← tileVals s c m.b.fmt (m.b.tile k 0)
      return (a, b)
    return put false (ts.foldl (fun acc p => mulTile form p.1 p.2 acc) (x.accElems m.d false).toList)

/-- Escaped positions of a tile record, row by row. -/
def escapes (s : State) (c : Nat) (fmt a : Word) : List Bool :=
  let f := fmtRead fmt
  if f.plain || !f.esc then [] else (f.codes (tileBytes s c a f.size)).map fun k => k = f.escape
/-- Outliers that the sparse path carries for a chunk (R203, R341): those of the A and B tiles it multiplies. -/
def outliers (s : State) (c : Nat) (m : MReq) (k : Nat) : Nat :=
  let n := fun (l : List Bool) => (l.filter id).length
  let a := match m.form with
    | .mmag => (m.rows.map fun g =>
        if g = 0xffff then 0 else n (((escapes s c m.a.fmt (m.a.tile (g / 32) k)).drop (32 * (g % 32))).take 32)).sum
    | .mmas => 0
    | _ => n (escapes s c m.a.fmt (m.a.tile 0 k))
  a + n (escapes s c m.b.fmt (m.b.tile k 0))
/-- The counts of a multiply (R341): its chunks (event 11) and the outliers of its sparse path (event 12). -/
def State.mCount (s : State) (c : Nat) (m : MReq) : State :=
  match m.form with
  | .mmaF32 => s.event c m.sid 11 (4 * m.chunks)
  | .mmaF64 => s.event c m.sid 11 m.chunks
  | .mma | .mmag | .mmas =>
    (s.event c m.sid 11 m.chunks).event c m.sid 12 ((List.range m.chunks).map (outliers s c m)).sum
  | _ => s
/-- The header of a request's completion signal (R212). -/
def MReq.packet (m : MReq) (s : State) (c : Nat) : Packet :=
  { src := coreNode s c, sid := m.sid, lid := m.lid, thr := m.thr, slack := slackOf (s.env c) m.p.urg, fault := m.fault }
/-- The unit carries out the oldest accepted request; a failing record is a matrix fault (R210). It reads every 64-byte piece of
its operands in this one event: when each is read R211 leaves open, and so no mix of older and newer pieces arises here (log
69). -/
def State.unitStep (s : State) (core : Nat) : State :=
  match (s.core core).mq with
  | [] => s
  | m :: rest =>
    let s := (s.modCore core fun x => { x with mq := rest }).touchLocal core m.reads
    let done := fun (s : State) (m : MReq) => s.modCore core fun x => { x with mdone := x.mdone ++ [m] }
    match mRun s core m with
    | .ok s' => done (s'.mCount core m) m
    | .error a =>
      done ((s.packetRecord (m.packet s core) (mkRec 17 0 m.sid m.lid (coreNode s core) a (wd m.pos.toNat))).failLaunch m.lid)
        { m with fault := true }
/-- MATRIX_REQUEST (R203). -/
def execMatrixRequest (core : Nat) (s : State) : Out := needCore core <| .next (s.unitStep core)
/-- The oldest request carried out completes and signals its slot, if one is named, at its urgency (R203, R212), behind what its
threadlet's earlier fences wait for (R232). -/
def State.unitDone (s : State) (core : Nat) : State :=
  match (s.core core).mdone with
  | [] => s
  | m :: rest =>
    let s := (s.modCore core fun x => { x with mdone := rest }).settle core m.id
    match m.slot with
    | some w => s.signal core m.fp w (m.packet s core) m.wait
    | none => s
/-- MATRIX_REQUEST_COMPLETE (R203, R212). -/
def execMatrixRequestComplete (core : Nat) (s : State) : Out := needCore core <| .next (s.unitDone core)
/-- A core's unit carries its accepted requests through, in their order, as far as the last of a launch that ends: a request
once accepted completes, and so do those before it (R203, R325). -/
def State.unitThrough (s : State) (core : Nat) (lid : BitVec 32) : State :=
  let n := (s.core core).mq.length - ((s.core core).mq.reverse.takeWhile fun m => m.lid ≠ lid).length
  let s := s.each (List.range n) fun s _ => s.unitStep core
  let k := (s.core core).mdone.length - ((s.core core).mdone.reverse.takeWhile fun m => m.lid ≠ lid).length
  s.each (List.range k) fun s _ => s.unitDone core

end Sys2Proof.Machine
end

