-- ==== Sys2Proof/Machine/Distributor.lean ====
section
/-! DEFINITION. Distributor.lean: the distributor: submissions and the pool (R299-R301), descriptors and images (R251, R252),
placement decisions (R302-R305), wakes and zeroisation (R311, R353), placing a launch on its cores (R253), power levels
(R309-R311). -/

namespace Sys2Proof.Machine

/-! Power (R309-R311). Watts are doubled, so that 3.5 W is 7. -/

def sgpCores (g : Nat) : List Nat := rectCores (8 * (g % 8)) (8 * (g / 8)) 8 8
def State.sgpOff (s : State) (g : Nat) : Bool := mget false s.dist.off g
/-- The four supergroups of a die. -/
def dieSgps (d : Nat) : List Nat := rectCores (2 * (d % 4)) (2 * (d / 4)) 2 2 |>.map fun c => cyOf c * 8 + cxOf c
def State.dieOff (s : State) (d : Nat) : Bool := (dieSgps d).all s.sgpOff
def dieOfSgp (g : Nat) : Nat := g / 8 / 2 * 4 + g % 8 / 2
/-- The class of a supergroup plus 1: 0 where it has no resident launch (R310). -/
def State.powerClass (s : State) (g : Nat) : Nat :=
  ((sgpCores g).map fun c => ((s.core c).lids.map fun l => bits ((s.launch l).w 14) 43 42 + 1).foldl max 0).foldl max 0
/-- The supergroup that loses a level next (R310). -/
def lowers (cls : Nat → Nat) (lvl : Map Nat) (a b : Nat) : Bool :=
  let la := mget 15 lvl a
  let lb := mget 15 lvl b
  cls a < cls b || (cls a = cls b && (lb < la || (lb = la && b < a)))
def powerLoop (cls : Nat → Nat) (on : List Nat) (avail2 : Nat) : Nat → Map Nat → Map Nat
  | 0, lvl => lvl
  | n + 1, lvl =>
    if (on.map fun g => 12 + 7 * (mget 15 lvl g + 1)).sum ≤ avail2 then lvl
    else match (on.filter fun g => 0 < mget 15 lvl g).foldl (fun (b : Option Nat) g => match b with
        | none => some g
        | some b => if lowers cls lvl g b then some g else some b) none with
      | none => lvl
      | some g => powerLoop cls on avail2 n (mput g (mget 15 lvl g - 1) lvl)
/-- The levels R310 computes. -/
def State.powerLevels (s : State) : Map Nat :=
  let on := (List.range 32).filter fun g => !s.sgpOff g
  powerLoop s.powerClass on (2 * (s.dist.budget - 400)) 480 (on.map fun g => (g, 15))
/-- POWER_RECOMPUTE (R310): levels are computed now and take effect within 64 A-cycles; one that comes meanwhile waits. -/
def State.powerRecompute (s : State) : State :=
  if s.dist.newLevels.isSome then s.modDist fun d => { d with recompute := true }
  else
    let lv := s.powerLevels
    s.modDist fun d => { d with newLevels := some (lv, s.acyc) }
/-- POWER_LEVEL_APPLY (R310). -/
def execPowerLevelApply (s : State) : Out :=
  match s.dist.newLevels with
  | none => .next s
  | some (lv, _) =>
    let again := s.dist.recompute
    let s := s.modDist fun d => { d with levels := lv, newLevels := none, recompute := false }
    .next (if again then s.powerRecompute else s)

/-! The pool (R301). -/

/-- Does a launch hold a pool entry? -/
def Launch.pooled (l : Launch) : Bool := match l.phase with
  | .submitted | .queued | .placing | .waking | .zeroing => true
  | _ => false
/-- Is a placement of the launch under way? -/
def Launch.awaits (l : Launch) : Bool := l.phase = .placing || l.phase = .waking || l.phase = .zeroing
/-- A free entry for a depth: one reserved to it, else a shared one; none. -/
def State.poolEntry (s : State) (d : Nat) : Option Bool :=
  let mine := (s.launches.filter fun l => l.pooled && l.poolRes && l.poolDepth = d).length +
    (s.dist.held.filter fun h => h.depth = d && h.own).length
  let shared := (s.launches.filter fun l => l.pooled && !l.poolRes).length + (s.dist.held.filter fun h => !h.own).length
  if mine < 16 then some true else if shared < 384 then some false else none
/-- POOL_RESERVATION_REQUEST (R301): a core that holds fewer than two reservations for the next depth is granted one. -/
def execPoolReservationRequest (core : Nat) (lid : BitVec 32) (s : State) : Out :=
  needCore core <|
  let l := s.launch lid
  let n := mget 0 (s.core core).ni.resv lid.toNat
  if !(s.core core).lids.contains lid || l.phase ≠ .resident || 7 ≤ l.depth || 2 ≤ n then .next s
  else match s.poolEntry (l.depth + 1) with
    | none => .next s
    | some r => .next ((s.modDist fun d => { d with held := d.held ++ [⟨l.depth + 1, r, core, lid⟩] }).modNi core fun ni =>
        { ni with resv := mput lid.toNat (n + 1) ni.resv })
/-! Reads of the distributor (R252, R300). Image number 16 is the descriptor itself; others are words of it. -/

def descImg : Nat := 16
/-- Ask for n bytes of an image from an offset in it, the descriptor's 128 bytes at once (R300), an image's in pieces of up to
64; refused under R49 they are lost at once, as a fetch declared fatal is. -/
def State.askImage (s : State) (lid : BitVec 32) (img : Nat) (a : Word) (off n : Nat) : State :=
  let sid := (s.launch lid).sid
  s.each (cutAt (if img = descImg then 128 else 64) (n + 1) (a.toNat + off) n) fun s q =>
    if s.badAddr (wd q.1) then
      (s.record (mkRec 8 0 sid lid (ioNode s.pkg) (wd q.1) 0)).modLaunch lid fun l => { l with lost := l.lost ++ [img % 16] }
    else
      let k := Cont.desc lid img (q.1 - a.toNat)
      let (id, s) := s.fresh
      (s.inject (mkPkt (ioNode s.pkg) (addrNode (s.ioArt sid) (wd q.1)) sid lid 0 id 0 (.read (wd q.1) q.2 .data k))).modLaunch lid
        fun l => { l with need := l.need + 1 }
/-- A reply to such a read. -/
def descReply (p : Packet) : Option (BitVec 32 × Nat × Nat × Option (List Byte)) :=
  match p.body with
  | .data bs (.desc l i o) => some (l, i, o, if p.fault then none else some bs)
  | .ack (.desc l i o) _ => some (l, i, o, none)
  | _ => none
/-- Take the replies for a launch from the distributor's deliveries. -/
def State.takeImages (s : State) (lid : BitVec 32) : State :=
  let mine := s.dist.inq.filter fun p => ((descReply p).map (·.1)) = some lid
  (s.modDist fun d => { d with inq := d.inq.filter fun p => ((descReply p).map (·.1)) ≠ some lid }).each mine fun s p =>
    match descReply p with
    | some (_, i, o, some bs) => s.modLaunch lid fun l =>
        { l with need := l.need - 1, imgs := mput i (writeMap (mget [] l.imgs i) o (whole bs)) l.imgs }
    | some (_, i, _, none) => s.modLaunch lid fun l => { l with need := l.need - 1, lost := l.lost ++ [i % 16] }
    | none => s

/-! The descriptor's own fields (R252, R254). -/

/-- The first failing field, by word and lowest bit: pairs of a failure and its field. -/
def firstBad : List (Bool × Nat × Nat) → Option (Nat × Nat)
  | [] => none
  | (b, f) :: t => if b then some f else firstBad t
def Launch.frameBytes (l : Launch) : Nat :=
  ((List.range 4).map fun k => l.counts.getD k 0 * frameSize k).sum
/-- Does a division of a tensor axis need more than 32 bits (R254)? -/
def shareBad (total lq n : Nat) : Bool :=
  let p := (share total lq n 1).1
  2 ^ 32 ≤ p || 2 ^ 32 ≤ (n - 1) * p
/-- The checks of R252 on the descriptor's own fields, in their order. -/
def Launch.fieldBad (l : Launch) : Option (Nat × Nat) :=
  let w := l.w
  let words := frameWords l.iclass
  let n := bits (w 12) 63 12
  firstBad
    [(bits (w 0) 5 0 ≠ 0, 0, 0), (bits (w 1) 31 27 ≠ 0, 1, 27), (bits (w 2) 18 0 ≠ 0, 2, 0), (bits (w 6) 5 0 ≠ 0, 6, 0),
     (bits (w 12) 11 0 ≠ 0, 12, 0), (bits (w 14) 8 0 ≠ 0, 14, 0), (bits (w 15) 55 0 ≠ 0, 15, 0),
     (l.clen = 0, 1, 0), (l.clen ≤ lineOf l.entry, 1, 32), (l.clen ≤ lineOf l.trapPos, 2, 32),
     (words < l.argn, 2, 19), (if l.argn = 0 then w 3 ≠ 0 else bits (w 3) 2 0 ≠ 0, 3, 0),
     (bits (w 12) 63 56 = 0 && n ≠ 0, 12, 56), (128 < bits (w 12) 63 56 || l.frs < l.frameBytes, 12, 56),
     (bits (w 11) 19 0 ≠ 0 || bitOf (w 11) 63, 11, 0), (0x100000 < l.frs + 1024 * l.tqa, 15, 56),
     (l.counts.getD l.iclass 0 = 0, 2, 28),
     (if bitOf (w 14) 39 then words ≤ bits (w 14) 38 30 else bits (w 14) 38 30 ≠ 0, 14, 30),
     (16 < bits (w 14) 63 59, 14, 59), (16 < bits (w 14) 58 54, 14, 54), (6 < l.lw, 14, 51), (5 < l.lh, 14, 48),
     (1 ≤ bits (w 14) 29 25 && bits (w 14) 29 25 ≤ 15, 14, 25), (64 < bits (w 14) 24 18, 14, 18),
     (!bitOf (w 14) 17 && bits (w 14) 16 9 ≠ 0, 14, 9),
     (shareBad (bits (w 13) 63 32) (bits (w 14) 63 59) l.height, 13, 32),
     (shareBad (bits (w 13) 31 0) (bits (w 14) 58 54) l.width, 13, 0)]

/-! Submission (R273, R299-R301). -/

/-- A launch enters the pool, and its descriptor is read once. -/
def State.accept (s : State) (sid : Half) (desc : Word) (depth : Nat) (res : Bool) (f : Launch → Launch) : State :=
  let lid := s.dist.nextLid
  let l : Launch := { lid := lid, sid := sid, depth := depth, desc := desc, seq := s.dist.nextSeq, bornAt := s.acyc,
                      poolRes := res, poolDepth := depth, root := lid, busyAt := s.acyc }
  (s.modDist fun d => { d with nextLid := if d.nextLid + 1 = 0 then 1 else d.nextLid + 1, nextSeq := d.nextSeq + 1,
                               launches := mput lid.toNat (f l) d.launches }).askImage lid descImg desc 0 128
/-- Has a space a valid directory entry, at the slice that serves its descriptor (R67, R300)? -/
def State.hasSpace (s : State) (sid : Half) (desc : Word) : Bool :=
  bitOf (s.pword (bits (s.slice (sliceOf (s.ioArt sid) desc)).sdir 42 20 * 2 ^ 20 + 8 * sid.toNat)) 63
def State.subStatus (s : State) (v : BitVec 2) : State := s.modDist fun d => { d with status := v }
/-- LAUNCH_SUBMIT (R300): a write of `dst_sub` w1; with GO it submits DESC at depth 0 in space SID. -/
def execLaunchSubmit (p : Party) (w1 : Word) (s : State) : Out :=
  .next <| s.ownerWrite p fun s =>
    let sid := w1.extractLsb' 0 16
    let s := s.modDist fun d => { d with subSid := sid }
    let a := s.dist.sub0
    if !bitOf w1 63 then s
    else if bits a 6 0 ≠ 0 || !s.hasSpace sid a then s.subStatus 3
    else match s.poolEntry 0 with
      | none => (s.subStatus 2).statusBusy
      | some r =>
        let lid := s.dist.nextLid
        (s.modDist fun d => { d with status := 1, subLid := lid }).accept sid a 0 r fun l => l
/-- LAUNCH_SUBMISSION (R273, R301): a `launch` packet; a reservation its core holds becomes the child's pool entry. With SV = 0 the
parent counts it no more (R318). -/
def execLaunchSubmission (s : State) : Out :=
  match takeFirst (fun p => match p.body with | .launch _ _ _ _ _ _ => true | _ => false) s.dist.inq with
  | none => .next s
  | some (p, rest) =>
    let s := s.modDist fun d => { d with inq := rest }
    match p.body with
    | .launch desc depth core fp slot parent =>
      match (s.dist.held.find? fun h => h.core = core && h.lid = parent).or (s.dist.held.find? fun h => h.lid = parent) with
      | none => .next s
      | some h =>
        let s := s.modDist fun d => { d with held := d.held.erase h }
        let s := if slot.isNone then s.modNi core fun ni => { ni with children := mmod 0 parent.toNat (· - 1) ni.children } else s
        .next (s.accept p.sid desc depth h.own fun l => { l with parent := some parent, pcore := core, pfp := fp, pslot := slot })
    | _ => .next s
/-- A DESCRIPTOR record (R327), and the launch ends faulted. -/
def State.descRecord (s : State) (lid : BitVec 32) (fatal : Bool) (w b : Nat) : State :=
  let l := s.launch lid
  (s.record (mkRec 22 0 l.sid lid (ioNode s.pkg) l.desc (wd (b2n fatal * 2 ^ 12 + w * 2 ^ 8 + b)))).failLaunch lid
/-- DESCRIPTOR_READ_COMPLETE (R252): the descriptor's copy is complete; its own fields are checked and it enters its queue. -/
def execDescriptorReadComplete (lid : BitVec 32) (s : State) : Out :=
  if (s.launch lid).phase ≠ .submitted || !s.hasLaunch lid then .next s
  else
    let s := s.takeImages lid
    let l := s.launch lid
    if l.need ≠ 0 || !l.ws.isEmpty then .next s
    else if !l.lost.isEmpty then .next ((s.modLaunch lid fun l => { l with ws := List.replicate 16 0 }).descRecord lid true 0 0)
    else
      let ws := bytesWords (l.img descImg 0 128)
      let s := s.modLaunch lid fun l =>
        { l with ws := ws, priv := bitOf (ws.getD 14 0) 40 && l.parent.isNone,
                 lhang := if bits (ws.getD 14 0) 29 25 = 0 then 24 else bits (ws.getD 14 0) 29 25 }
      match (s.launch lid).fieldBad with
      | some (w, b) => .next (s.descRecord lid false w b)
      | none => .next (s.modLaunch lid fun l => { l with phase := if l.faulted then .submitted else .queued })

/-! The images (R55, R85, R103, R134, R289, R344). -/

def artBad (e : Word × Word) : Bool :=
  bitOf e.1 63 && (bits e.1 49 25 < bits e.1 24 0 || bits e.2 17 13 < 8 || 20 < bits e.2 17 13 || 6 ≤ bits e.2 20 18 ||
    bits e.1 62 50 ≠ 0 || bits e.2 63 24 ≠ 0 || bits e.2 9 7 ≠ 0)
/-- The header of a loader or storer image breaks R85's limits. -/
def lsImgBad (l : Launch) (w : Nat) : Bool :=
  let h0 := l.imgWord w 0
  let h1 := l.imgWord w 8
  bits h0 63 32 ≠ 0 || 8192 < bits h0 31 16 || bits h0 31 16 % 8 ≠ 0 || bits h0 15 0 < 2 || 16384 < bits h0 15 0 ||
    bits h0 15 0 % 2 ≠ 0 || bits h1 63 14 ≠ 0 || bits h1 13 0 % 2 ≠ 0 || bits h0 15 0 ≤ bits h1 13 0
/-- Where the data of such an image begins, and its whole length. -/
def lsImgData (l : Launch) (w : Nat) : Nat := (16 + bits (l.imgWord w 0) 15 0 + 7) / 8 * 8
def lsImgLen (l : Launch) (w : Nat) : Nat := lsImgData l w + bits (l.imgWord w 0) 31 16
/-- A record of the endpoint table breaks R103 or R344. -/
def epRecBad (l : Launch) (e : Nat) : Bool :=
  let w := fun k => l.imgWord 10 (32 * e + 8 * k)
  let i := w 2
  bits (w 1) 60 48 ≠ 0 || w 3 ≠ 0 || (!bitOf (w 1) 63 && (w 0 ≠ 0 || w 1 ≠ 0 || i ≠ 0)) || bits i 62 58 ≠ 0 || bits i 33 0 ≠ 0 ||
    (bitOf i 63 && (l.width * l.height ≤ bits i 57 47 || frameWords l.iclass ≤ bits i 46 38))
/-- The words whose pointers name something to read at placement; a nested child's environment is its parent's (R305). -/
def Launch.pointers (l : Launch) : List (Nat × Nat) :=
  let own := fun (w n : Nat) => if l.nested || l.w w = 0 then [] else [(w, n)]
  (if l.argn = 0 then [] else [(3, 8 * l.argn)]) ++ own 4 128 ++ own 5 32 ++
    (if l.nested || bits (l.w 14) 24 18 = 0 then [] else [(6, 16 * bits (l.w 14) 24 18)]) ++
    (if l.w 7 = 0 then [] else [(7, 1024)]) ++ own 8 16 ++ own 9 16 ++ own 10 8192
/-- The first image that fails, in the word order of the pointers: kind, address and DETAIL of its record. One of which a fetch
was declared fatal is not looked at. -/
def Launch.imageBad (l : Launch) : Option (Nat × Word × Word) :=
  let has := fun w => (l.pointers.any fun p => p.1 = w) && !l.lost.contains w
  let fmt := (List.range 16).find? fun n => fmtMalformed (l.imgWord 4 (8 * n))
  let slk := (List.range 16).any fun k => bits (bytesWord (l.img 5 (2 * k) 2)) 15 10 ≠ 0
  let art := (List.range (bits (l.w 14) 24 18)).find? fun n => artBad (l.imgWord 6 (16 * n), l.imgWord 6 (16 * n + 8))
  let ls := fun (w : Nat) => wd ((w - 8) * 2 ^ 63 + 2 ^ 62 + 0xf * 2 ^ 56)
  let own := fun (w : Nat) => wd (w * 2 ^ 8)
  if has 4 && fmt.isSome then some (14, l.w 4, wd (fmt.getD 0))
  else if has 5 && slk then some (22, l.desc, own 5)
  else if has 6 && art.isSome then some (13, l.w 6, wd (art.getD 0))
  else if has 8 && lsImgBad l 8 then some (16, l.w 8, ls 8)
  else if has 9 && lsImgBad l 9 then some (16, l.w 9, ls 9)
  else if has 10 && (bits (l.w 10) 4 0 ≠ 0 || (List.range 256).any (epRecBad l)) then some (22, l.desc, own 10)
  else Option.none

/-! Free rectangles (R250, R303, R304). -/

/-- The aligned origins of a size. -/
def origins (w h : Nat) : List (Nat × Nat) :=
  (List.range ((64 / w) * (32 / h))).map fun k => (k % (64 / w) * w, k / (64 / w) * h)
/-- Where a restore goes (R335): its target, once it has one. -/
def Launch.goal (l : Launch) : List Nat := match l.reserved with
  | some o => rectCores o.1 o.2 l.width l.height
  | .none => l.cores
/-- Does a core hold a launch but for the one given: a resident one, one that is being placed or restored, or one whose old
rectangle is not released? -/
def State.takenBut (s : State) (but : BitVec 32) (c : Nat) : Bool :=
  !(s.core c).lids.isEmpty || (s.core c).fwdTo.isSome || s.launches.any fun l =>
    l.lid ≠ but && !l.nested && (match l.phase with
      | .placing | .waking | .zeroing | .resident | .ending => l.inRect c || (l.frozen = .restoring && l.goal.contains c)
      | _ => false)
def State.taken (s : State) (c : Nat) : Bool := s.takenBut 0 c
/-- Two rectangles of cores meet. -/
def meets (a b : Nat × Nat × Nat × Nat) : Bool :=
  a.1 < b.1 + b.2.2.1 && b.1 < a.1 + a.2.2.1 && a.2.1 < b.2.1 + b.2.2.2 && b.2.1 < a.2.1 + a.2.2.2
def State.reservedBy (s : State) (l : Launch) : List (Nat × Nat × Nat × Nat) :=
  s.launches.filterMap fun m => if m.lid ≠ l.lid && m.phase = .queued then m.reserved.map fun o => (o.1, o.2, m.width, m.height) else none
/-- The wake cost of a rectangle in A-cycles (R303). -/
def State.wakeCost (s : State) (o : Nat × Nat) (w h : Nat) : Nat :=
  let gs := (rectCores o.1 o.2 w h).map sgpOf
  if gs.any fun g => s.dieOff (dieOfSgp g) then 17000 else if gs.any s.sgpOff then 1275 else 0
/-- The cores of the enclosing unit that hold launches (R303); 0 where no unit holds twice the cores. -/
def State.unitUse (s : State) (o : Nat × Nat) (w h : Nat) : Nat :=
  match [(2, 2), (4, 4), (8, 8), (16, 16), (64, 32)].find? fun u => w ≤ u.1 && h ≤ u.2 && 2 * (w * h) ≤ u.1 * u.2 with
  | none => 0
  | some u => ((rectCores (o.1 / u.1 * u.1) (o.2 / u.2 * u.2) u.1 u.2).filter s.taken).length
/-- Is the first rectangle preferred to the second by R303's keys? -/
def State.prefers (s : State) (w h : Nat) (a b : Nat × Nat) : Bool :=
  let ca := s.wakeCost a w h
  let cb := s.wakeCost b w h
  let ua := s.unitUse a w h
  let ub := s.unitUse b w h
  ca < cb || (ca = cb && (ub < ua || (ua = ub && a.2 * 64 + a.1 < b.2 * 64 + b.1)))
def bestRect (better : Nat × Nat → Nat × Nat → Bool) (l : List (Nat × Nat)) : Option (Nat × Nat) :=
  l.foldl (fun b o => match b with
    | none => some o
    | some b => if better o b then some o else some b) none
/-- The free rectangle a launch would be placed on (R303); its reserved one where it has one (R304). -/
def State.freeRect (s : State) (l : Launch) : Option (Nat × Nat) :=
  let w := l.width
  let h := l.height
  let free := fun (o : Nat × Nat) => (rectCores o.1 o.2 w h).all (fun c => !s.taken c) &&
    !((s.reservedBy l).any fun r => meets (o.1, o.2, w, h) r)
  match l.reserved with
  | some o => if (rectCores o.1 o.2 w h).all fun c => !s.taken c then some o else none
  | none => bestRect (s.prefers w h) ((origins w h).filter free)
/-- May a child be nested in its parent: the first two conditions of R305, its parent being on its cores? -/
def State.nestable (s : State) (l : Launch) : Bool :=
  match l.parent with
  | none => false
  | some p => (s.launch p).phase = .resident && l.lw ≤ (s.launch p).lw && l.lh ≤ (s.launch p).lh &&
      l.w 8 = 0 && l.w 9 = 0
/-- The aligned sub-rectangle of a nested child that holds the issuing core (R305). -/
def Launch.subRect (l : Launch) : Nat × Nat := (cxOf l.pcore / l.width * l.width, cyOf l.pcore / l.height * l.height)

/-! Placing a launch on its cores (R253, R305). -/

/-- A class's locations from an offset on. -/
def locations (cls base n : Nat) : List (Nat × Nat) := (List.range n).map fun k => (base + k * 4 ^ cls, cls)
/-- Carve the frame region (R118): directory, free lists, and the generations kept. -/
def carve (f : Frames) (l : Launch) : Frames :=
  let gens := f.dir.foldl (fun m p => mput p.1 (p.2.gen, p.2.sgen) m) f.gens
  let n := fun k => l.counts.getD k 0
  let b3 := (0x100000 - l.frs) / 64
  let b2 := b3 + 64 * n 3
  let b1 := b2 + 16 * n 2
  let b0 := b1 + 4 * n 1
  let locs := locations 3 b3 (n 3) ++ locations 2 b2 (n 2) ++ locations 1 b1 (n 1) ++ locations 0 b0 (n 0)
  { dir := locs.map fun p => (p.1, ({ cls := BitVec.ofNat 2 p.2, gen := (mget (0, 0) gens p.1).1, sgen := (mget (0, 0) gens p.1).2 } : FDir)),
    gens := gens, frs := l.frs,
    free := [0, 1, 2, 3].map fun k => (k, (locs.filter fun p => p.2 = k).map (·.1)) }
/-- A loader or storer core at the start of a launch (R85, R107). -/
def lsStart (l : Launch) (w : Nat) : LsCore :=
  if l.w w = 0 then {}
  else
    let h := l.imgWord w 0
    { imem := writeMap [] 0 (whole (l.img w 16 (bits h 15 0))), dmem := writeMap [] 0 (whole (l.img w (lsImgData l w) (bits h 31 16))),
      pc := wd (bits (l.imgWord w 8) 13 0), present := true }
/-- Step 1 and 2 of R253 on a core: a launch's environment, and nothing of an earlier one. -/
def Core.load (x : Core) (l : Launch) : Core :=
  { x with lids := [l.lid], sid := l.sid, lastSid := some l.sid,
           fmt := (List.range 16).foldl (fun m n => mset 0 n (if l.w 4 = 0 then 0 else l.imgWord 4 (8 * n)) m) [],
           win := [(0, wd (7 * 2 ^ 61 + l.sid.toNat)), (2, 0x001080bf)],
           fr := carve x.fr l, loader := lsStart l 8, storer := lsStart l 9, chans := [], slotCnts := [], copyQ := [],
           mq := [], mdone := [], ready := [], hold := [], tfps := [], ctxs := [], owner := [], lines := [], lineReq := [],
           ni := { exhAt := x.ni.exhAt }, inbox := [], frozen := false, stopped := false, park := false, ifps := [], touched := [], replays := [], replayedAt := [] }
/-- Steps 3 and 4 of R253: the initial frame with its argument words, and the initial token; none at a frame trap. -/
def State.startOn (s : State) (l : Launch) (c : Nat) : Option State :=
  match s.falloc c l.iclass l.lid with
  | none => none
  | some (f, s) =>
    let args := (List.range l.argn).map fun i => (i, l.imgWord 3 (8 * i), false)
    let s := s.fillFrame c (fpUnit f) args
    let s := s.modCore c fun x => { x with ifps := mput l.lid.toNat f x.ifps, ni := { x.ni with counts := mput l.lid.toNat {} x.ni.counts } }
    some (s.queueToken c l.iprio { fp := f, pos := l.entry })
/-- Step 5 of R253: the loader and storer cores that have programs start. -/
def Core.startLs (x : Core) : Core :=
  { x with loader := { x.loader with running := x.loader.present }, storer := { x.storer with running := x.storer.present } }
/-- Every core of a list, or none where one cannot. -/
def State.eachCore (s : State) (f : State → Nat → Option State) : List Nat → Option State
  | [] => some s
  | c :: t => match f s c with
    | some s => s.eachCore f t
    | none => none
/-- The launch is on its cores: its pool entry is free, the levels are computed anew. -/
def State.becomeResident (s : State) (lid : BitVec 32) : State :=
  (s.modLaunch lid fun l => { l with phase := .resident, reserved := none, busyAt := s.acyc, lastS := none, lastIdle := false }).powerRecompute
/-- LAUNCH_PLACEMENT (R253, R305): on every core of the rectangle at once. -/
def State.loadLaunch (s : State) (lid : BitVec 32) : State :=
  let l := s.launch lid
  if l.nested then
    match s.eachCore (fun s c => (s.modCore c fun x => { x with lids := x.lids ++ [lid] }).startOn l c) l.cores with
    | some s => s.becomeResident lid
    | none => ((s.record (mkRec 23 0 l.sid lid (ioNode s.pkg) l.desc (wd l.iclass))).failLaunch lid).modLaunch lid fun l => { l with phase := .queued }
  else
    let s := s.each l.cores fun s c => s.modCore c fun x => x.load l
    match s.eachCore (fun s c => s.startOn l c) l.cores with
    | some s => (s.each l.cores fun s c => s.modCore c Core.startLs).becomeResident lid
    | none => s.failLaunch lid

/-! Wakes and zeroisation (R303, R311, R353). -/

/-- Zeroise a core (R351 step 4, R353); generations stay (R118). -/
def Core.zeroise (x : Core) : Core :=
  { x with scr := [], empty := [], ptr := [], acc := [], owner := [], fmt := [], loader := {}, storer := {}, rings := [], ctr := [], ctrCfg := [], woken := false }
/-- Does a core have to be zeroised before a launch of a space (R353)? -/
def Core.unclean (x : Core) (sid : Half) : Bool := x.woken || (match x.lastSid with
  | some y => y ≠ sid
  | none => false)
/-- Power up the supergroups of cores; a die wakes with its supergroups. -/
def State.powerUp (s : State) (cs : List Nat) : State :=
  let gs := nub (cs.map sgpOf)
  let all := (List.range 32).filter fun g => s.sgpOff g && gs.any fun t => t = g || (s.dieOff (dieOfSgp t) && dieOfSgp t = dieOfSgp g)
  if all.isEmpty then s
  else
    let s := s.modDist fun d => { d with off := all.foldl (fun m g => merase g m) d.off,
                                         idleSince := all.foldl (fun m g => mput g s.acyc m) d.idleSince }
    (s.each (all.map sgpCores).flatten fun s c => s.modCore c fun x => { x with upAt := s.acyc, woken := true }).powerRecompute
/-- Is the parent of a nested child frozen, on its cores or in an image? The child waits until it runs again (R305, log 39). -/
def State.parentFrozen (s : State) (l : Launch) : Bool := l.parent.any fun p => (s.launch p).frozen ≠ .no
/-- A placement goes on as far as it can: the reads, the wake, zeroisation, the cores (R252, R253, R353). -/
def State.advance (s : State) (lid : BitVec 32) : State :=
  let l := s.launch lid
  let awake := !(l.cores.any fun c => s.sgpOff (sgpOf c))
  if l.need ≠ 0 || l.faulted || (l.nested && s.parentFrozen l) then s
  else if !awake then s.modLaunch lid fun l => { l with phase := .waking }
  else if !l.nested && l.phase ≠ .zeroing && l.cores.any fun c => (s.core c).unclean l.sid then
    s.modLaunch lid fun l => { l with phase := .zeroing, zeroAt := s.acyc + 2048 }
  else if l.phase = .zeroing then s
  else s.loadLaunch lid
/-- A launch that fails before it is placed leaves no ART copy at the I/O die. -/
def State.noImages (s : State) (lid : BitVec 32) : State := s.modLaunch lid fun l => { l with bodies := false }
/-- All that a placement reads has come (R252): the bodies of the stream images are asked for once their headers are there; the
images are checked; a launch that fails is not placed. No cause of R104 covers a malformed image: that code is a free
value (log 5). -/
def State.checkImages (s : State) (lid : BitVec 32) : State :=
  let l := s.launch lid
  if l.need ≠ 0 || l.faulted then s
  else
    let body := fun (w : Nat) => l.pointers.any (fun p => p.1 = w) && !l.lost.contains w && !lsImgBad l w
    let s := if l.bodies then s
      else ([8, 9].filter body).foldl (fun s w => s.askImage lid w (l.w w) 16 (lsImgLen l w - 16)) (s.modLaunch lid fun l => { l with bodies := true })
    if (s.launch lid).need ≠ 0 then s
    else match (s.launch lid).imageBad, (s.launch lid).lost with
      | some (16, a, d), _ =>
        let (f, s) := s.freeVal
        ((s.record (mkRec 16 (f.toNat % 256) l.sid lid (ioNode s.pkg) a d)).failLaunch lid).noImages lid
      | some (k, a, d), _ => ((s.record (mkRec k 0 l.sid lid (ioNode s.pkg) a d)).failLaunch lid).noImages lid
      | none, w :: ws => (s.descRecord lid true (ws.foldl min w) 0).noImages lid
      | none, [] => s.advance lid
/-- Place a launch (R253): it holds its rectangle from now on, what it names is read, supergroups are woken. -/
def State.place (s : State) (lid : BitVec 32) (o : Nat × Nat) (nested : Bool) : State :=
  let l := s.launch lid
  let cost := s.wakeCost o l.width l.height
  let s := s.modLaunch lid fun l =>
    { l with phase := .placing, ox := o.1, oy := o.2, nested := nested, reserved := none, wakeAt := s.acyc + cost,
             root := if nested then (match l.parent with
               | some p => (s.launch p).root
               | none => l.root) else l.root,
             prio := bits (mget 1 s.dist.q (bits (l.w 14) 47 44)) 10 8 }
  ((s.launch lid).pointers.foldl (fun s p => s.askImage lid p.1 (l.w p.1) 0 p.2) s).checkImages lid
/-- PLACEMENT_READ_COMPLETE (R252). -/
def execPlacementReadComplete (lid : BitVec 32) (s : State) : Out :=
  if (s.launch lid).phase ≠ .placing || !s.hasLaunch lid then .next s
  else .next ((s.takeImages lid).checkImages lid)
/-- The supergroups of cores were in use until now. -/
def State.noteUse (s : State) (cs : List Nat) : State :=
  s.modDist fun d => { d with idleSince := (nub (cs.map sgpOf)).foldl (fun m g => mput g s.acyc m) d.idleSince }
/-- SUPERGROUP_POWER_OFF (R311): no resident launch on it, outside every reserved rectangle, for 2^20 A-cycles. -/
def State.sgpIdle (s : State) (g : Nat) : Bool :=
  (sgpCores g).all fun c => !s.taken c && !(s.launches.any fun l => l.phase = .queued && match l.reserved with
    | some o => o.1 ≤ cxOf c && cxOf c < o.1 + l.width && o.2 ≤ cyOf c && cyOf c < o.2 + l.height
    | none => false)
def execSupergroupPowerOff (g : Nat) (s : State) : Out :=
  if 32 ≤ g then .fault .noSuchAgent
  else if s.sgpOff g then .next s
  else if !s.sgpIdle g then .next (s.noteUse (sgpCores g))
  else if mget 0 s.dist.idleSince g + 2 ^ 20 ≤ s.acyc then
    .next (s.modDist fun d => { d with off := mput g true d.off }).powerRecompute
  else .next s

/-! Decisions (R302, R304). -/

/-- The first launch of a queue (R299): the one submitted first. -/
def State.headOf (s : State) (q : Nat) : Option Launch :=
  (s.launches.filter fun l => l.phase = .queued && !l.faulted && bits (l.w 14) 47 44 = q).foldl (fun b l => match b with
    | none => some l
    | some b => if l.seq < b.seq then some l else some b) none
/-- The launches that a core holds, with the nested children being placed on it (R305). -/
def State.holding (s : State) (c : Nat) : Nat :=
  (s.core c).lids.length + (s.launches.filter fun m => m.nested && m.inRect c && m.awaits).length
/-- Where a launch can be placed now (R303-R305), and whether nested; a child to be nested waits while its parent is frozen, be
it on its cores or in an image (log 39). -/
def State.canPlace (s : State) (l : Launch) : Option ((Nat × Nat) × Bool) :=
  if s.nestable l then
    let o := l.subRect
    if (rectCores o.1 o.2 l.width l.height).all (fun c => s.holding c < 8) && !s.parentFrozen l then some (o, true) else none
  else (s.freeRect l).map fun o => (o, false)
def State.weight (s : State) (q : Nat) : Nat := bits (mget 1 s.dist.q q) 7 0
def State.queuePrio (s : State) (q : Nat) : Nat := bits (mget 1 s.dist.q q) 10 8
/-- The queues of a priority in round-robin order, each with its head that can be placed. -/
def State.scan (s : State) (p : Nat) : Option (Nat × BitVec 32 × (Nat × Nat) × Bool) :=
  ((List.range 16).map fun k => (mget 0 s.dist.ptr p + k) % 16).findSome? fun q =>
    if s.queuePrio q ≠ p || s.weight q = 0 then none
    else match s.headOf q with
      | none => none
      | some l => (s.canPlace l).map fun r => (q, l.lid, r.1, r.2)
/-- A placement from a queue counts toward its turn (R302). -/
def State.useTurn (s : State) (p q : Nat) : State :=
  let n := mget 0 s.dist.used q + 1
  s.modDist fun d => if s.weight q ≤ n then { d with used := mput q 0 d.used, ptr := mput p ((q + 1) % 16) d.ptr } else { d with used := mput q n d.used }
/-- Is a request older than another (R304)? -/
def Launch.olderThan (a b : Launch) : Bool := a.bornAt < b.bornAt || (a.bornAt = b.bornAt && a.seq < b.seq)
/-- The reserving request, oldest first, whose reserved rectangle is free (R304); a queue of WEIGHT 0 is held (R299). -/
def State.reservedReady (s : State) : Option (BitVec 32 × (Nat × Nat)) :=
  (sortBy (fun (a b : Launch) => !b.olderThan a)
    (s.launches.filter fun l => l.phase = .queued && !l.faulted && l.reserved.isSome && s.weight (bits (l.w 14) 47 44) ≠ 0)).findSome? fun l =>
      (s.freeRect l).map fun o => (l.lid, o)
/-- Is a request to become reserving (R304)? -/
def State.reserves (s : State) (l : Launch) : Bool :=
  l.phase = .queued && !l.faulted && l.reserved.isNone && l.bornAt + 850000 < s.acyc && !s.nestable l
/-- The rectangles of its size that overlap no earlier request's reserved rectangle (R304). -/
def State.reservable (s : State) (l : Launch) : List (Nat × Nat) :=
  let earlier := s.launches.filterMap fun m =>
    if m.phase = .queued && m.olderThan l then m.reserved.map fun o => (o.1, o.2, m.width, m.height) else none
  (origins l.width l.height).filter fun o => !(earlier.any fun r => meets (o.1, o.2, l.width, l.height) r)
/-- The one of them with the fewest cores that hold launches, ties broken by R303's keys. -/
def State.reserveRect (s : State) (l : Launch) : Option (Nat × Nat) :=
  let use := fun (o : Nat × Nat) => ((rectCores o.1 o.2 l.width l.height).filter s.taken).length
  bestRect (fun a b => use a < use b || (use a = use b && s.prefers l.width l.height a b)) (s.reservable l)
/-- RESERVING_TIMEOUT (R304): a request older than 850,000 A-cycles gets a reserved rectangle, the oldest first, so that it
avoids those of earlier requests alone; an older one that has none to take holds up no younger one. -/
def execReservingTimeout (lid : BitVec 32) (s : State) : Out :=
  let l := s.launch lid
  if !s.hasLaunch lid || !s.reserves l || s.launches.any (fun m => s.reserves m && m.olderThan l && !(s.reservable m).isEmpty) then .next s
  else .next (s.modLaunch lid fun l => { l with reserved := s.reserveRect l })

end Sys2Proof.Machine
end

