-- ==== Sys2Proof/Machine/Engine.lean ====
section
/-! DEFINITION. Engine.lean: the copy engine (R86-R94): transfer descriptors and their checks, beats, completion, ring slot
counts, and the stream faults of transfers (R90, R104). Units 0 to 7 are the channels; unit 8 + id is a compute copy. -/

namespace Sys2Proof.Machine

def Core.chan (x : Core) (u : Nat) : Chan := mget {} x.chans u
def Core.setChan (x : Core) (u : Nat) (f : Chan → Chan) : Core := { x with chans := mput u (f (x.chan u)) x.chans }
def Core.xfer (x : Core) (u : Nat) : Option Xfer :=
  if u < 8 then some (x.chan u).x else x.copyQ.find? fun t => t.id + 8 = u
def Core.setXfer (x : Core) (u : Nat) (t : Xfer) : Core :=
  if u < 8 then x.setChan u fun ch => { ch with x := t }
  else { x with copyQ := x.copyQ.map fun y => if y.id + 8 = u then t else y }
def State.modXfer (s : State) (c u : Nat) (f : Xfer → Xfer) : State :=
  match (s.core c).xfer u with
  | some t => s.modCore c fun x => x.setXfer u (f t)
  | none => s
/-- A channel's status word (R86). -/
def Chan.status (ch : Chan) : Word :=
  wd (b2n ch.busy * 2 ^ 63 + b2n ch.fault * 2 ^ 62 + ch.cause.toNat * 2 ^ 56 + ch.count.toNat)
/-- The channels of a loader or storer core (R86). -/
def lsChans (storer : Bool) : List Nat := if storer then [4, 5, 6, 7] else [0, 1, 2, 3]

/-! Endpoints (R102, R103). -/

/-- May a stream reach n bytes of an endpoint at an offset, in the direction given (R88, R102)? -/
def Launch.epOk (l : Launch) (a : Word) (n : Nat) (wr : Bool) : Bool :=
  let f := l.endpoint (bits a 63 56) 1
  bitOf f 63 && bitOf f (if wr then 61 else 62) && bits a 55 0 + n ≤ bits f 47 0
/-- The host address an endpoint address names. -/
def Launch.epHost (l : Launch) (a : Word) : Nat := (l.endpoint (bits a 63 56) 0).toNat + bits a 55 0

/-! Stream faults (R104). -/

/-- DETAIL of a STREAM record (R327). -/
def streamDetail (storer : Bool) (chan pc : Nat) : Word := wd (b2n storer * 2 ^ 63 + chan * 2 ^ 56 + pc % 2 ^ 14)
def State.streamRecord (s : State) (c : Nat) (storer : Bool) (cause : Nat) (addr : Word) (chan pc : Nat) : State :=
  let l := s.env c
  (s.record (mkRec 16 cause l.sid l.lid (coreNode s c) addr (streamDetail storer chan pc))).failLaunch l.lid
def Core.lsCore (x : Core) (storer : Bool) : LsCore := if storer then x.storer else x.loader
def State.ls (s : State) (c : Nat) (storer : Bool) : LsCore := (s.core c).lsCore storer
def State.setLs (s : State) (c : Nat) (storer : Bool) (l : LsCore) : State :=
  s.modCore c fun x => if storer then { x with storer := l } else { x with loader := l }
def LsCore.stop (l : LsCore) : LsCore := { l with running := false, faulted := true, waiting := none }
def LsCore.rx (l : LsCore) (n : XReg) : Word := if n = 0 then 0 else mget 0 l.x n.toNat
def LsCore.wx (l : LsCore) (n : XReg) (v : Word) : LsCore := if n = 0 then l else { l with x := mset 0 n.toNat v l.x }
/-- A fault raised by an instruction: recorded, the launch fails, the core stops before it takes effect. -/
def State.streamFault (s : State) (c : Nat) (storer : Bool) (cause : Nat) (addr : Word) : State :=
  let l := s.ls c storer
  (s.streamRecord c storer cause addr 0xf l.pc.toNat).setLs c storer l.stop
/-- A fault of a transfer stops its core's waiting form at once; a `cp.wait` on the faulting channel completes first, with the
status word as it stands: BUSY falls when the beats under way have ended (log 62). -/
def State.stopWaiting (s : State) (c u : Nat) : State :=
  let storer := decide (4 ≤ u)
  let l := s.ls c storer
  match l.waiting with
  | none => s
  | some w =>
    match decodeRv32 w with
    | .ok (.cpWait d a _) =>
      if (l.rx a).toNat = u then s.setLs c storer { (l.wx d ((s.core c).chan u).status).stop with pc := l.pc + 4 }
      else s.setLs c storer l.stop
    | _ => s.setLs c storer l.stop
/-- A transfer with nothing left to do goes idle: a channel's BUSY falls; a compute copy leaves its queue, completes and
signals its slot (R89, R156). -/
def State.settleXfer (s : State) (c u : Nat) : State :=
  match (s.core c).xfer u with
  | none => s
  | some t =>
    if !t.pieces.isEmpty || !(t.stopped || t.len ≤ t.issued) then s
    else if u < 8 then s.modCore c fun x => x.setChan u fun ch => { ch with busy := false }
    else
      let s := (s.settle c t.id).modCore c fun x => { x with copyQ := x.copyQ.filter fun y => y.id ≠ t.id }
      match t.slot with
      | some w => (s.noteCheck c).frameArrive c t.fp w 1 .none
          { src := coreNode s c, sid := t.sid, lid := t.lid, thr := t.thr, slack := slackOf (s.env c) t.urg, fault := t.fault }
      | none => s
/-- Beats of a piece are outstanding no more (R98): those a test picks by their number. -/
def State.beatsDone (s : State) (c u piece : Nat) (f : Nat → Bool) : State :=
  match ((s.core c).xfer u).bind fun t => t.pieces.find? fun p => p.id = piece with
  | none => s
  | some p =>
    let ids := (p.beats.filter fun b => f b.1).map (·.2)
    s.modNi c fun ni => { ni with outs := ni.outs.filter fun o => !ids.contains o.id }
/-- A piece is given up. -/
def State.dropPiece (s : State) (c u piece : Nat) : State :=
  ((s.beatsDone c u piece fun _ => true).modXfer c u fun t =>
    { t with pieces := t.pieces.filter fun p => p.id ≠ piece }).settleXfer c u
/-- A transfer meets a fault (R90, R104): it issues no further beat, and a tile that its beats had not wholly covered is given
up; a channel shows FAULT and CAUSE and the fault is a stream fault; a compute copy completes fatal. -/
def State.engFault (s : State) (c u cause : Nat) (addr : Word) : State :=
  match (s.core c).xfer u with
  | none => s
  | some t =>
    if t.stopped then s
    else
      let s := s.modXfer c u fun t => { t with stopped := true, fault := true }
      let s := s.each (t.pieces.filter fun p => p.sent < p.dLen) fun s p => s.dropPiece c u p.id
      if u < 8 then
        let s := s.modCore c fun x => x.setChan u fun ch => { ch with fault := true, cause := BitVec.ofNat 6 cause }
        ((s.streamRecord c (decide (4 ≤ u)) cause addr u t.pc.toNat).stopWaiting c u).settleXfer c u
      else s.settleXfer c u

/-! Transfer descriptors (R87, R88). -/

/-- The fields of a descriptor's four words. -/
def descXfer (ws : List Word) : Xfer :=
  let w2 := ws.getD 2 0
  let w3 := ws.getD 3 0
  { src := ws.getD 0 0, dst := ws.getD 1 0, len := bits w2 24 0, srcEp := bitOf w2 33, dstEp := bitOf w2 32,
    conv := bits w2 40 39, elect := bitOf w2 34, urg := w2.extractLsb' 44 4,
    scope := (scopeOfCode (w2.extractLsb' 41 3)).getD .sys,
    ring := if bitOf w2 31 then some (bits w3 19 0, bits w3 31 24) else none, w2 := w2, w3 := w3 }
/-- The on-chip address of a ring slot's bytes (R89), behind those already moved (R107). -/
def State.slotAddr (s : State) (c : Nat) (t : Xfer) (r : Nat × Nat) : Word :=
  let ring := s.ring c r.1
  wd ((baseOf s.pkg c).toNat + ring.base + r.2 * ring.slen + bits t.w3 51 32 + t.moved)
/-- A transfer with its ring side's address put in (R89). -/
def State.ringSide (s : State) (c : Nat) (t : Xfer) : Xfer :=
  match t.ring with
  | none => t
  | some r => if (s.ring c r.1).outbound then { t with src := s.slotAddr c t r } else { t with dst := s.slotAddr c t r }
/-- Source and destination bytes of one unit of a transfer: one record and one plain tile where it converts. -/
def Xfer.unitLens (t : Xfer) : Nat × Nat :=
  let f := fmtRead t.fmt
  if t.conv = 1 then (f.size, 4096) else if t.conv = 2 then (4096, f.size) else (1, 1)
/-- Bytes the transfer reads. -/
def Xfer.srcLen (t : Xfer) : Nat := t.len / t.unitLens.2 * t.unitLens.1
/-- The zero fields and field codes of R87; SCOPE codes are those of R24, so 6 and 7 are malformed (log 60). -/
def descZero (ws : List Word) : Bool :=
  let w2 := ws.getD 2 0
  let w3 := ws.getD 3 0
  bits w2 63 48 = 0 && bits w2 30 25 = 0 && bits w3 63 52 = 0 && bits w3 23 20 = 0 && bits w2 43 41 ≤ 5 &&
    (bitOf w2 31 || w3 = 0)
/-- Check 1 of R88: is the descriptor malformed (cause DESC)? `t` has its ring side's address put in. A malformed format gives no
record size to hold LEN to: that is the check of R134. -/
def State.descBad (s : State) (c : Nat) (ws : List Word) (t : Xfer) : Bool :=
  let raw := descXfer ws
  !descZero ws || t.conv = 3 || (t.srcEp && t.dstEp) || t.len = 0 || 2 ^ 24 < t.len ||
  (match t.ring with
   | none => false
   | some r =>
     let ring := s.ring c r.1
     !ring.ok r.1 || ring.nslot < r.2 || ring.slen < bits t.w3 51 32 + t.len ||
       (if ring.outbound then t.srcEp || raw.src ≠ 0 else t.dstEp || raw.dst ≠ 0)) ||
  (t.conv = 0 && !(aligned t.src 8 && aligned t.dst 8 && t.len % 8 = 0)) ||
  (t.conv ≠ 0 && !(aligned t.src 64 && aligned t.dst 64 &&
    (t.len % t.unitLens.2 = 0 || (t.conv = 2 && fmtMalformed t.fmt))))
/-- The SRC or DST that a malformed descriptor's alignment or ring side concerns, 0 where another item is at fault (R327). -/
def State.descAddr (s : State) (c : Nat) (ws : List Word) (t : Xfer) : Word :=
  let raw := descXfer ws
  let out := t.ring.map fun r => (s.ring c r.1).outbound
  let al := if t.conv = 0 then 8 else 64
  if out = some true && raw.src ≠ 0 then raw.src
  else if out = some false && raw.dst ≠ 0 then raw.dst
  else if !aligned t.src al then t.src
  else if !aligned t.dst al then t.dst else 0
/-- Does a transfer name a format it cannot convert by (cause FORMAT, R134, R90)? -/
def Xfer.fmtBad (t : Xfer) : Bool := t.conv ≠ 0 && (fmtMalformed t.fmt || (fmtRead t.fmt).kind = .f64)
/-- Check 3 of R88: an endpoint not valid, without the direction, or exceeded. -/
def State.epBad (s : State) (c : Nat) (t : Xfer) : Option (Nat × Word) :=
  if t.srcEp && !(s.env c).epOk t.src t.srcLen false then some (5, t.src)
  else if t.dstEp && !(s.env c).epOk t.dst t.len true then some (5, t.dst) else none
/-- The checks of R88 in their order: the cause and the address concerned of the first that fails. -/
def State.xferBad (s : State) (c : Nat) (ws : List Word) (fmt : Word) : Option (Nat × Word) :=
  let t := s.ringSide c { descXfer ws with fmt := fmt }
  if s.descBad c ws t then some (3, s.descAddr c ws t)
  else if t.fmtBad then some (7, 0)
  else match t.ring with
    | some r =>
      if s.slotTag c r.1 r.2 ≠ (s.ring c r.1).engTag then some (4, if (s.ring c r.1).outbound then t.src else t.dst)
      else s.epBad c t
    | none => s.epBad c t

/-- Destination bytes issued, in whole units: a tile whose beats are not all issued has written nothing yet. -/
def Xfer.dstDone (t : Xfer) : Nat := t.issued / t.unitLens.2 * t.unitLens.2
/-- Source bytes already issued, in whole units. -/
def Xfer.srcDone (t : Xfer) : Nat := t.issued / t.unitLens.2 * t.unitLens.1
/-- A channel's descriptor with SRC, DST and LEN advanced to the range not yet issued (R107); the ring side's address word
is not an address and is not advanced. -/
def State.xferWords (s : State) (c : Nat) (t : Xfer) : List Word :=
  let out := t.ring.map fun r => (s.ring c r.1).outbound
  [if out = some true then t.stray else t.src + wd t.srcDone, if out = some false then t.stray else t.dst + wd t.dstDone,
   (t.w2 &&& ~~~0x1ffffff#64) ||| wd (t.len - t.dstDone), t.w3]
/-- Write a word of that descriptor: the range it gives, from its SRC and DST on, is what the channel still has to issue (R107).
A unit that has not issued all its beats is in that range and starts anew; those that have, go on. A ring side goes on where it
stood, but a write of w3 names its place in the slot anew. A write of w2 takes the value of its format register anew, and the channel's packets are those of the launch on the core, as a `cp.go` has them (log 54). -/
def State.setXferWord (s : State) (c : Nat) (t : Xfer) (j : Nat) (v : Word) : Xfer :=
  let ws := (s.xferWords c t).set j v
  let d := descXfer ws
  let out := d.ring.map fun r => (s.ring c r.1).outbound
  let was := (t.ring.map fun r => (s.ring c r.1).outbound)
  s.ringSide c { d with
    moved := if j = 3 then 0 else t.moved + (if was = some true then t.srcDone else t.dstDone),
    id := t.id, fmt := if j = 2 then mget 0 (s.core c).fmt (bits v 38 35) else t.fmt,
    stray := if out = some true then d.src else if out = some false then d.dst else 0,
    count := t.count, pieces := t.pieces.filter (fun p => p.dLen ≤ p.sent), stopped := t.stopped, fault := t.fault, pc := t.pc,
    lid := (s.env c).lid, sid := (s.env c).sid }
/-- Write the status word of a channel (R107): COUNT goes on from there, and FAULT decides whether it issues beats. -/
def State.setStatus (s : State) (c : Nat) (ch : Chan) (v : Word) : Chan :=
  { busy := bitOf v 63, fault := bitOf v 62, cause := v.extractLsb' 56 6, count := v.extractLsb' 0 25,
    x := { ch.x with count := bits v 24 0, stopped := bitOf v 62, fault := bitOf v 62, lid := (s.env c).lid, sid := (s.env c).sid } }

/-! Beats (R86, R89). -/

/-- Add to a ring slot's count; a count starts at zero when its slot is first named, in the lowest free place (R93). -/
def addSlot (r : Nat × Nat) (n : Nat) (l : Map SlotCnt) : Map SlotCnt :=
  if l.any fun p => p.2.isOf r then l.map fun p => (p.1, if p.2.isOf r then { p.2 with bytes := p.2.bytes + n } else p.2)
  else mput (((List.range 16).find? fun k => !mhas l k).getD 16) ⟨r.1, r.2, n⟩ l
def slotBytes (r : Nat × Nat) (l : Map SlotCnt) : Nat :=
  match l.find? fun p => p.2.isOf r with
  | some p => p.2.bytes
  | none => 0
/-- The side of a transfer that its ring slot is. -/
def State.slotSide (s : State) (c : Nat) (t : Xfer) : Word :=
  if (t.ring.map fun r => (s.ring c r.1).outbound) = some true then t.src else t.dst
/-- Is the ring slot of a transfer not in the state in which the engine fills or drains it (R92)? -/
def State.wrongTag (s : State) (c : Nat) (t : Xfer) : Bool := match t.ring with
  | none => false
  | some r => s.slotTag c r.1 r.2 ≠ (s.ring c r.1).engTag
/-- RING_SLOT_TRANSITION (R93): at SLEN the engine changes the tag, releases the bytes and sends the notify. -/
def State.ringFull (s : State) (c u : Nat) (t : Xfer) (r : Nat × Nat) : State :=
  let ring := s.ring c r.1
  if slotBytes r (s.core c).slotCnts < ring.slen then s
  else if s.wrongTag c t then s.engFault c u 4 (s.slotSide c t)
  else
    let s := s.setSlotTag c r.1 r.2 (if ring.outbound then 0 else 2)
    if ring.nfp = 0 then s
    else s.post ⟨c, t.lid, t.sid, 0⟩ (fpNode ring.nfp) (slackOf (s.env c) ring.nurg)
      (s.unacked c ((scopeOfCode (BitVec.ofNat 3 ring.nscope)).getD .sys)) (.sig ring.nfp ring.nword 1 .none)
/-- The bytes that n acknowledged destination bytes complete for a ring slot (R93): the same number, but of a converting drain its
source bytes, once their tile is done (log 61). -/
def ringBytes (t : Xfer) (outbound : Bool) (done : Option Piece) (n : Nat) : Nat :=
  if t.conv ≠ 0 && outbound then (done.map Piece.sLen).getD 0 else n
/-- Does a transfer have a piece under way? The replies to a piece that is given up, or that a launch's end has overtaken, are
stale: nothing of them is applied (R325). -/
def Core.hasPiece (x : Core) (u piece : Nat) : Bool := ((x.xfer u).map fun t => t.pieces.any fun p => p.id = piece).getD false
/-- Bytes of a piece are answered, those of one of its beats or of all; a piece of which all is answered is over. -/
def State.engEnded (s : State) (c u piece : Nat) (beat : Option Nat) (n : Nat) : State :=
  (s.beatsDone c u piece fun k => beat.all (· = k)).modXfer c u fun t =>
    { t with pieces := (t.pieces.map fun p => if p.id = piece then { p with left := p.left - n } else p).filter fun p =>
        !(p.id = piece && p.left = 0) }
/-- Bytes of a piece are written and acknowledged, those of one of its beats or of all: COUNT and the slot count advance (R89,
R93), but not the count of a slot that is not being filled or drained: that is a stage fault (R92). -/
def State.engAcked (s : State) (c u piece : Nat) (beat : Option Nat) (n : Nat) : State :=
  match ((s.core c).xfer u).filter fun _ => (s.core c).hasPiece u piece with
  | none => s
  | some t =>
    let done : Option Piece := t.pieces.find? fun p => p.id = piece && p.left - n = 0
    let s := (s.engEnded c u piece beat n).modXfer c u fun t => { t with count := t.count + n }
    let s := if u < 8 then s.modCore c fun x => x.setChan u fun ch => { ch with count := BitVec.ofNat 25 (t.count + n) } else s
    let s := match t.ring with
      | some r =>
        let s := s.touchRing c r.1 r.2
        if s.wrongTag c t then s.engFault c u 4 (s.slotSide c t)
        else (s.modCore c fun x => { x with slotCnts := addSlot r (ringBytes t (s.ring c r.1).outbound done n) x.slotCnts }).ringFull c u t r
      | none => s
    s.settleXfer c u
/-- A request of a transfer; refused under R49 it is a fault of cause REMOTE (R90). A compute copy's goes behind what the
fences of its threadlet had it wait for (R165, R166), and asks for a fresh slack where its head did (R149). -/
def State.engRequest (s : State) (c u piece : Nat) (t : Xfer) (a : Word) (wr : Bool) (b : Body) : State :=
  if (((s.core c).xfer u).map (·.stopped)).getD true && !wr then s
  else if s.badAddr a then ((s.refuse ⟨c, t.lid, t.sid, t.thr⟩ a).dropPiece c u piece).engFault c u 6 a
  else (s.send ⟨c, t.lid, t.sid, t.thr⟩ a (slackOf (s.env c) t.urg) (t.fresh, t.urg) false none t.wait b).2
/-- The bytes a piece writes, from those it read, or none: a format fault (R89, R90). FP32 passes through unchanged (R125). -/
def pieceOut (t : Xfer) (bs : List Byte) : Option (List Byte) :=
  let f := fmtRead t.fmt
  match t.conv with
  | 1 => if f.plain then some bs else if f.recordOk bs then some (pack 32 ((f.widen bs).map fun v => (toF32 v).1) 4096) else none
  | 2 => if f.plain then some bs else (f.quantise t.elect (unpack 32 1024 bs)).map (·.1)
  | _ => some bs
/-- All of a piece is read: write it. -/
def State.engWritePiece (s : State) (c u : Nat) (t : Xfer) (p : Piece) : State :=
  match pieceOut t (readMap p.data 0 p.sLen) with
  | none => (s.dropPiece c u p.id).engFault c u 7 t.src
  | some out =>
    let s := s.modXfer c u fun t => { t with pieces := t.pieces.map fun q => if q.id = p.id then { q with left := out.length } else q }
    let a := p.dst
    if t.dstEp then
      (s.modHost fun h => { h with mem := writeMap h.mem ((s.env c).epHost a) (whole out) }).engAcked c u p.id none out.length
    else s.each (cutLines a.toNat (whole out) (out.length / 64 + 2)) fun s q =>
      s.engRequest c u p.id t (wd q.1) true (.write (wd q.1) q.2 (.engWrite u p.id (q.1 - a.toNat) q.2.length))
/-- Bytes of a piece arrive at an offset in it. -/
def State.engGot (s : State) (c u piece off : Nat) (bs : List Byte) : State :=
  match (s.core c).xfer u with
  | none => s
  | some t =>
    match t.pieces.find? fun p => p.id = piece with
    | none => s
    | some p =>
      let p := { p with data := writeMap p.data off (whole bs), need := p.need - bs.length }
      let s := s.modXfer c u fun t => { t with pieces := t.pieces.map fun q => if q.id = piece then p else q }
      if p.need = 0 then s.engWritePiece c u t p else s
/-- Would a unit of d destination and n source bytes carry a ring slot's count beyond SLEN (R92)? The pieces under way
count. -/
def State.overSlot (s : State) (c : Nat) (t : Xfer) (d n : Nat) : Bool :=
  match t.ring with
  | none => false
  | some r =>
    let x := s.core c
    let out := (s.ring c r.1).outbound
    let under := ((List.range 8).map fun u => if (x.chan u).x.ring = some r && (x.chan u).busy then
      ((x.chan u).x.pieces.map fun p => if out then p.sLen else p.left).sum else 0).sum
    (s.ring c r.1).slen < slotBytes r x.slotCnts + under + (if out then n else d)
/-- The source bytes that one beat of a piece reads, as offset and length in the piece (R86, R89): all of a raw one; of a
converting one, its share of the record's or the tile's 64-byte lines, k being the number of the destination piece. -/
def Piece.share (p : Piece) (conv k : Nat) : Nat × Nat :=
  if conv = 0 then (0, p.sLen)
  else
    let d := (p.dLen + 63) / 64
    let n := (p.sLen + 63) / 64
    (64 * (k * n / d), min p.sLen (64 * ((k + 1) * n / d)) - 64 * (k * n / d))
/-- One beat of a piece is issued: it is listed as outstanding (R98), and its source side reads memory, or host memory through an
endpoint. -/
def State.engBeat (s : State) (c u : Nat) (t : Xfer) (p : Piece) : State :=
  let k := p.sent / 64
  let r := p.share t.conv k
  let n := if t.conv = 0 then p.dLen else min 64 (p.dLen - p.sent)
  let d := p.dst + wd p.sent
  let (id, s) := s.fresh
  let out : Outst := { id := id, thr := 0, lid := t.lid, addr := d, isWrite := true, beat := true, len := n, host := t.dstEp,
                       slice := if onChip d || t.dstEp then none else some (sliceOf (s.env c) d) }
  let sentOf := fun (q : Piece) => if q.id = p.id then { q with sent := q.sent + n, beats := q.beats ++ [(k, id)] } else q
  let s := (s.modNi c fun ni => { ni with outs := ni.outs ++ [out] }).modXfer c u fun t =>
    { t with issued := t.issued + n, pieces := t.pieces.map sentOf }
  let a := p.src + wd r.1
  if r.2 = 0 then s
  else if t.srcEp then s.engGot c u p.id r.1 (readMap s.host.mem ((s.env c).epHost a) r.2)
  else s.each (cutLines a.toNat (List.replicate r.2 none) (r.2 / 64 + 2)) fun s q =>
    s.engRequest c u p.id t (wd q.1) false (.read (wd q.1) q.2.length .data (.engRead u p.id (r.1 + (q.1 - a.toNat))))
/-- Issue the next beat of a transfer: at most 64 bytes of the destination (R86). The first beat of a piece checks its
format, which only a write of the descriptor can have left malformed, the state of its slot, the piece's bytes against the slot,
and its endpoint. A channel that has nothing left to issue or under way, which only
a write of its words leaves BUSY, goes idle (R107). -/
def State.engIssue (s : State) (c u : Nat) (t : Xfer) : State :=
  match t.pieces.find? fun p => p.sent < p.dLen with
  | some p => s.engBeat c u t p
  | none =>
    let ul := t.unitLens
    let dLen := if t.conv = 0 then min (64 - (t.dst.toNat + t.issued) % 64) (t.len - t.issued) else ul.2
    let sLen := if t.conv = 0 then dLen else ul.1
    let a := t.src + wd t.srcDone
    let d := t.dst + wd t.issued
    if t.len ≤ t.issued then s.settleXfer c u
    else if t.fmtBad then s.engFault c u 7 t.src
    else if s.wrongTag c t || s.overSlot c t dLen sLen then s.engFault c u 4 (s.slotSide c t)
    else if (t.srcEp && !(s.env c).epOk a sLen false) || (t.dstEp && !(s.env c).epOk d dLen true) then
      s.engFault c u 5 (if t.srcEp then t.src else t.dst)
    else
      let (id, s) := s.fresh
      let p : Piece := { id := id, src := a, dst := d, dLen := dLen, need := sLen, sLen := sLen, left := dLen }
      (s.modXfer c u fun t => { t with pieces := t.pieces ++ [p] }).engBeat c u t p
/-- Does a unit of the engine have a beat to issue: a busy channel, or, as unit 8, the compute queue? -/
def Core.beatOf (x : Core) (k : Nat) : Option (Nat × Xfer) :=
  let open_ := fun (t : Xfer) => !t.stopped && t.issued < t.len
  if k < 8 then if (x.chan k).busy && (open_ (x.chan k).x || (!(x.chan k).x.stopped && (x.chan k).x.pieces.isEmpty)) then some (k, (x.chan k).x) else none
  else (x.copyQ.find? open_).map fun t => (t.id + 8, t)
/-- COPY_BEAT_ISSUE (R86, R89): the next unit in turn issues one beat. A stopped core issues none (R106). -/
def execCopyBeatIssue (core : Nat) (s : State) : Out :=
  needCore core <|
  let x := s.core core
  let order := (List.range 9).map fun k => (x.engPtr + k) % 9
  if x.stopped then .next s
  else match order.findSome? fun k => (x.beatOf k).map fun b => (k, b) with
    | none => .next s
    | some (k, u, t) => .next ((s.modCore core fun x => { x with engPtr := (k + 1) % 9 }).engIssue core u t)
/-- A packet for the copy engine. -/
def isEngReply (p : Packet) : Bool :=
  match p.body with
  | .data _ (.engRead _ _ _) | .ack (.engRead _ _ _) _ | .ack (.engWrite _ _ _ _) _ => true
  | _ => false
/-- COPY_BEAT_COMPLETE (R89, R90): a beat's bytes arrive or are acknowledged, or the beat was declared fatal: a fault of its
transfer, whose other writes under way still count. A reply to a piece that is no more is stale (R325). -/
def execCopyBeatComplete (core : Nat) (s : State) : Out :=
  needCore core <|
  match (s.core core).first isEngReply with
  | none => .next s
  | some (p, rest) =>
    let s := (s.modCore core fun x => x.took rest).modNi core fun ni =>
      { ni with outs := ni.outs.filter fun o => o.id ≠ p.id }
    let side := fun (u : Nat) (w : Bool) => match (s.core core).xfer u with
      | some t => if w then t.dst else t.src
      | none => 0
    match p.body with
    | .data bs (.engRead u q off) => .next (s.engGot core u q off bs)
    | .ack (.engRead u q _) _ =>
      if !(s.core core).hasPiece u q then .next s else .next ((s.engFault core u 6 (side u false)).dropPiece core u q)
    | .ack (.engWrite u q off n) _ =>
      if !p.fault then .next (s.engAcked core u q (some (off / 64)) n)
      else if !(s.core core).hasPiece u q then .next s
      else .next (((s.engFault core u 6 (side u true)).engEnded core u q (some (off / 64)) n).settleXfer core u)
    | _ => .next s

end Sys2Proof.Machine
end

