-- ==== Sys2Proof/Machine/Terminate.lean ====
section
/-! DEFINITION. Terminate.lean: how launches end: activity and termination sweeps (R317-R320), the end of a launch (R255),
faulted ends (R325), the fault log (R326, R327). -/

namespace Sys2Proof.Machine

/-! Activity (R318). -/

/-- The launch a frame pointer's location is tagged with. -/
def Core.tagOf (x : Core) (f : Word) : BitVec 32 := (x.dir (fpUnit f)).lid
/-- Is a loader or storer core not done (R105)? -/
def Core.lsBusy (x : Core) (st : Bool) : Bool :=
  (x.lsCore st).present && !((x.lsCore st).ended || (x.lsCore st).faulted) || (lsChans st).any fun u => (x.chan u).busy
/-- Is a core active for a launch: A is not 0 (R318)? Every request it has out counts, wherever it goes (R239); an armed slot
does not (log 56). -/
def State.coreActive (s : State) (c : Nat) (lid : BitVec 32) : Bool :=
  let x := s.core c
  let ni := x.ni
  (x.tokens ++ x.hold).any (fun t => x.tagOf t.fp = lid) || x.ctxs.any (fun p => p.2.bound && p.2.lid = lid) ||
    x.defer.any (·.pkt.lid = lid) || ni.outs.any (fun o => o.lid = lid) ||
    ni.held.any (·.pkt.lid = lid) || ni.retry.any (·.pkt.lid = lid) || ni.enqBuf.any (·.pkt.lid = lid) ||
    ni.runs.any (·.1.lid = lid) || x.copyQ.any (·.lid = lid) || (x.mq ++ x.mdone).any (·.lid = lid) ||
    ((s.env c).lid = lid && (x.lsBusy false || x.lsBusy true)) || x.fr.announced.contains lid ||
    x.fr.refills.any (·.lid = lid) || mget 0 ni.children lid.toNat ≠ 0 || x.inq.any (·.lid = lid) || x.inbox.any (·.lid = lid)
/-- Is a donation unit active for a launch? A pop in delivery counts while it brings a TCB. -/
def State.unitActive (s : State) (g : Nat) (lid : BitVec 32) : Bool :=
  let u := s.unit g
  !(u.deque lid).isEmpty || u.pushes.any (·.lid = lid) || u.stealing.any (·.1 = lid) || (u.stealIn ++ u.replies).any (·.lid = lid) ||
    (groupCores g).any fun c => (s.core c).ni.pops.any fun p => p.1 = lid && p.2.1.isSome
/-- The nodes of a launch (R317): cores by number, donation units from 2,048 on. -/
def Launch.nodes (l : Launch) : List Nat := l.cores ++ (nub (l.cores.map groupOf)).map (· + 2048)
/-- What a node answers: its counts and its activity. -/
def State.answer (s : State) (n : Nat) (lid : BitVec 32) : Count × Bool :=
  if n < 2048 then (mget {} (s.core n).ni.counts lid.toNat, !s.coreActive n lid)
  else (mget {} (s.unit (n - 2048)).counts lid.toNat, !s.unitActive (n - 2048) lid)

/-! The end of a launch (R255). -/

/-- The frames of a launch on a core: gone, resident or spilled, with the refills of its own (R255). The locations go back to
their free lists in the order of their offsets (log 52). -/
def Core.dropFrames (x : Core) (lid : BitVec 32) : Core :=
  x.fr.dir.foldl (fun x p =>
    let d := p.2
    let gone := d.spilled && d.slid = lid
    let out := d.alloc && d.lid = lid
    let d' := { d with spilled := d.spilled && !gone, refill := d.refill && !gone, alloc := d.alloc && !out, pin := d.pin && !out }
    let fr := { x.fr with dir := mput p.1 d' x.fr.dir }
    { x with fr := if out || (gone && d.refill && !d.alloc) then fr.push p.1 else fr }) x
/-- What a core drops of one launch; every owner word of the core is cleared (R205). -/
def Core.dropLaunch (x : Core) (lid : BitVec 32) : Core :=
  let mine := fun (t : Token) => x.tagOf t.fp = lid
  let y := { x with
    lids := x.lids.filter (· ≠ lid), lines := x.lines.filter (fun (p : Nat × Line64) => p.1 / 2 ^ 27 ≠ lid.toNat),
    lineReq := x.lineReq.filter (fun k => k / 2 ^ 27 ≠ lid.toNat), ready := x.ready.map (fun (p : Nat × List Token) => (p.1, p.2.filter fun t => !mine t)),
    hold := x.hold.filter (fun t => !mine t), tfps := x.tfps.filter (fun (p : Word × Word) => x.tagOf p.1 ≠ lid),
    defer := x.defer.filter (fun d => d.pkt.lid ≠ lid), ctxs := x.ctxs.filter (fun p => p.2.lid ≠ lid),
    owner := [], ifps := merase lid.toNat x.ifps,
    copyQ := x.copyQ.filter (fun t => t.lid ≠ lid), mq := x.mq.filter (fun m => m.lid ≠ lid), mdone := x.mdone.filter (fun m => m.lid ≠ lid),
    fr := { x.fr with refills := x.fr.refills.filter (fun r => r.lid ≠ lid), announced := x.fr.announced.filter (· ≠ lid), early := x.fr.early.filter (· ≠ lid),
                      heldPkts := x.fr.heldPkts.filter fun h => h.2.lid ≠ lid },
    ni := { x.ni with counts := merase lid.toNat x.ni.counts, resv := merase lid.toNat x.ni.resv, children := merase lid.toNat x.ni.children,
                      bars := x.ni.bars.filter (fun b => b.lid ≠ lid), barCnt := x.ni.barCnt.filter (fun b => b.lid ≠ lid),
                      held := x.ni.held.filter (fun h => h.pkt.lid ≠ lid), retry := x.ni.retry.filter (fun h => h.pkt.lid ≠ lid),
                      enqBuf := x.ni.enqBuf.filter (fun h => h.pkt.lid ≠ lid), runs := x.ni.runs.filter (fun h => h.1.lid ≠ lid),
                      outs := x.ni.outs.filter (fun o => o.lid ≠ lid), pops := x.ni.pops.filter (fun h => h.1 ≠ lid), popAt := merase lid.toNat x.ni.popAt } }
  y.dropFrames lid
/-- What else a core drops when its last launch ends, but for the requests of other launches deferred in its banks (R116): format registers, ART, loader and storer cores, the transfers of their
channels, of which no byte goes anywhere any more (R325), its directory's flags. -/
def Core.unload (x : Core) : Core :=
  if !x.lids.isEmpty then x
  else { x with ready := [], hold := [], tfps := [], ctxs := [], owner := [], fmt := [], lines := [], lineReq := [],
                chans := x.chans.map (fun p => (p.1, { p.2 with busy := false, x := { p.2.x with pieces := [], stopped := true } })), slotCnts := [], copyQ := [], mq := [], mdone := [],
                loader := { x.loader with running := false, waiting := none }, storer := { x.storer with running := false, waiting := none },
                fr := { x.fr with dir := x.fr.dir.map (fun p => (p.1, { p.2 with alloc := false, spilled := false, refill := false, pin := false, reserved := false })),
                                  free := [], refills := [], heldPkts := [], announced := [], early := [], spills := [], fwds := [] },
                inbox := [], frozen := false, stopped := false, park := false }
def DonUnit.dropLaunch (u : DonUnit) (lid : BitVec 32) : DonUnit :=
  { u with deques := u.deques.filter (fun d => d.1 ≠ lid), pushes := u.pushes.filter (fun p => p.lid ≠ lid),
           stealing := u.stealing.filter (fun x => x.1 ≠ lid), waits := u.waits.filter (fun x => x.1 ≠ lid), counts := merase lid.toNat u.counts }
/-- The end reports (R255, R273): to the parent's slot, which also counts the child no more, and to the endpoint. -/
def State.endReport (s : State) (lid : BitVec 32) (fault : Bool) : State :=
  let l := s.launch lid
  let s := if bitOf (l.w 14) 17 then s.modHost fun h => { h with reports := h.reports ++ [(lid, bits (l.w 14) 16 9, fault)] } else s
  match l.parent with
  | none => s
  | some p =>
    if l.pslot.isNone then s
    else
      let (id, s) := s.fresh
      s.inject { mkPkt (ioNode s.pkg) (coreNode s l.pcore) l.sid p 0 id 0 (.ack (.child p l.pfp l.pslot) none) with fault := fault }
/-- The exhaust count of a core goes to its space's counter, of 48 bits (R295). -/
def State.carryExhaust (s : State) (c : Nat) : State :=
  let x := s.core c
  if x.lids.isEmpty then s
  else (s.modNi c fun ni => { ni with exh := 0 }).modIo fun io =>
    { io with exhausted := mmod 0 (s.env c).sid.toNat (fun v => (v + x.ni.exh.toNat) % 2 ^ 48) io.exhausted }
/-- Packets take their place at a core in arrival order, before any that arrives later and before a token binds (R240, R335). -/
def State.applyAll (s : State) (c : Nat) (l : List Packet) : State :=
  (s.each l fun s p => s.toNi c p).modCore c fun x => { x with due := x.inq.length }
/-- The packets of a core's inbox (R335 step 5). -/
def State.applyInbox (s : State) (c : Nat) : State :=
  (s.modCore c fun x => { x with inbox := [] }).applyAll c (s.core c).inbox
/-- The pool entries that a core holds for a launch (R301): its reservations, and those of LAUNCH packets that have not left it. -/
def Ni.entries (ni : Ni) (lid : BitVec 32) : Nat :=
  mget 0 ni.resv lid.toNat + (ni.held.filter fun h => h.pkt.lid = lid && match h.pkt.body with
    | .launch _ _ _ _ _ _ => true
    | _ => false).length
/-- The held pool entries without the first n of a core and launch. -/
def dropHeld (c : Nat) (lid : BitVec 32) : Nat → List PoolRes → List PoolRes
  | 0, l => l
  | _, [] => []
  | n + 1, h :: t => if h.core = c && h.lid = lid then dropHeld c lid n t else h :: dropHeld c lid (n + 1) t
/-- An old rectangle is free again (R335): what the launch of the move had sent to it is stale, other packets take their place. -/
def State.freeOld (s : State) (w : Wave) : State :=
  let olds := w.oldCores.map (·.1)
  let s := s.each olds fun s c => (s.modCore c fun x =>
    { x with fwdTo := none, frozen := false, stopped := false, park := false, inbox := x.inbox.filter fun p => p.lid ≠ w.lid }).applyInbox c
  (s.noteUse olds).modDist fun d => { d with waves := d.waves.erase w }
/-- LAUNCH_END (R255, R320): its matrix requests are carried through, its state is discarded on every core, its deferred requests
wherever they stand (R116), the pool entries its cores hold are returned (R301), a rectangle it has left is free (log 72), the
end is reported. -/
def State.endLaunch (s : State) (lid : BitVec 32) (fault : Bool) : State :=
  let l := s.launch lid
  let s := s.each l.cores fun s c => s.modDist fun d => { d with held := dropHeld c lid ((s.core c).ni.entries lid) d.held }
  let s := s.each l.cores fun s c => s.unitThrough c lid
  let s := s.each l.cores State.carryExhaust
  let s := s.each l.cores fun s c => s.modCore c fun x => (x.dropLaunch lid).unload
  let s := s.each ((s.cores.filter fun p => p.2.defer.any fun d => d.pkt.lid = lid).map (·.1)) fun s c => s.modCore c fun x =>
    { x with defer := x.defer.filter fun d => d.pkt.lid ≠ lid }
  let s := s.each (nub (l.cores.map groupOf)) fun s g => s.modUnit g fun u => u.dropLaunch lid
  let s := s.each (s.dist.waves.filter fun w => w.lid = lid) State.freeOld
  (((s.noteUse l.cores).modLaunch lid fun l => { l with phase := .over, frozen := .no }).powerRecompute).endReport lid fault

/-! Faulted ends (R325). -/

/-- The children nested in a launch end faulted with it, those included that are still being placed. -/
def State.failNested (s : State) (lid : BitVec 32) : State :=
  s.each (s.launches.filter fun m => m.nested && m.parent = some lid && m.phase ≠ .over) fun s m => s.failLaunch m.lid
/-- The launch of a wave and every launch nested in it (R330). -/
def State.waveSet (s : State) (lid : BitVec 32) : List (BitVec 32) := (s.launches.filter fun m => m.root = lid && m.live).map (·.lid)
/-- The operation of `dst_frz` ends: BUSY falls and the owner is notified (R330, R349). -/
def State.waveOver (s : State) (lid : BitVec 32) : State :=
  (s.modDist fun d => { d with frz := d.frz &&& ~~~0x4000000000000000#64, wave := none }).notify 4 (wd lid.toNat)
/-- A frozen launch that ends faulted: its wave or restore fails, what an image holds of its counts and of pool entries comes back,
the inboxes are applied; issue stays stopped. -/
def State.unfreezeFaulted (s : State) (lid : BitVec 32) : State :=
  let l := s.launch lid
  let s := if (s.dist.wave.map (·.lid)) = some lid || l.frozen = .restoring then s.waveOver lid else s
  let s := match s.dist.images.find? fun i => i.lid = lid with
    | none => s
    | some i =>
      let s := s.each l.cores.zipIdx fun s q => 
        let was := (mget ({} : Core) i.cores q.2).ni
        s.modNi q.1 fun ni => { ni with counts := was.counts, resv := (s.waveSet lid).foldl (fun m (k : BitVec 32) => mset 0 k.toNat (was.entries k) m) [] }
      let s := s.each (nub (l.cores.map groupOf)).zipIdx fun s q =>
        s.modUnit q.1 fun u => { u with counts := (mget ({} : DonUnit) i.units q.2).counts.foldl (fun m (p : Nat × Count) => mput p.1 p.2 m) u.counts }
      s.modDist fun d => { d with images := d.images.filter fun i => i.lid ≠ lid }
  let s := s.each l.cores fun s c => (s.modCore c fun x => { x with frozen := false }).applyInbox c
  s.each (s.waveSet lid) fun s m => s.modLaunch m fun x => { x with frozen := .no, reserved := none }
/-- FAULTED_END (R325): a launch that is not on its cores ends at once, once its reads have come; one that is has issue
stopped, and every threadlet between blocks is discarded. -/
def execFaultedEnd (lid : BitVec 32) (s : State) : Out :=
  let l := s.launch lid
  let s := if l.faulted && l.frozen ≠ .no && !l.nested then s.unfreezeFaulted lid else s
  if !s.hasLaunch lid || !l.faulted || (l.nested && l.frozen ≠ .no) then .next s
  else match l.phase with
  | .submitted | .queued | .placing | .waking | .zeroing =>
    let s := if l.phase = .submitted || l.phase = .placing then s.takeImages lid else s
    if (s.launch lid).need ≠ 0 then .next s
    else
      let cs := match l.phase with
        | .queued => match l.reserved with
          | some o => rectCores o.1 o.2 l.width l.height
          | none => []
        | .submitted => []
        | _ => l.cores
      .next (((s.noteUse cs).modLaunch lid fun l => { l with phase := .over, reserved := none }).endReport lid true)
  | .resident | .ending =>
    let s := if l.phase = .resident then
        ((if l.nested then s else s.each l.cores fun s c => s.modCore c fun x => { x with stopped := true, park := false }).modLaunch lid fun l =>
          { l with phase := .ending, lastS := none }).failNested lid
      else s
    .next (s.each l.cores fun s c => s.each (List.range 16) fun s k =>
      if (s.ctx c k).bound && (s.ctx c k).lid = lid && !(s.ctx c k).work.active then s.endThread c k else s)
  | .over => .next s

/-! Sweeps (R319, R320). -/

/-- The endpoints of a launch whose ingress binding is open (R320, R344). -/
def Launch.openEps (l : Launch) : List Nat :=
  if l.nested || l.w 10 = 0 then [] else (List.range 256).filter fun e => bitOf (l.imgWord 10 (32 * e + 16)) 63 && !l.closed.contains e
/-- Does the tree follow the launch? -/
def Launch.swept (l : Launch) : Bool := l.phase = .resident || l.phase = .ending
/-- The root opens a sweep (R319). -/
def State.sweepStart (s : State) : State :=
  if s.dist.sweep.on || s.fcyc < s.dist.sweep.at_ + 512 then s
  else
    let zero := (s.launches.filter Launch.swept).map fun l => (l.lid.toNat, ((0, 0, true, false) : BitVec 32 × BitVec 32 × Bool × Bool))
    s.modDist fun d => { d with sweep := { on := true, at_ := s.fcyc, asked := [], sums := zero } }
/-- A node answers once in a sweep, for every launch of which it is one; it has committed nothing since (R336). -/
def State.sweepNode (s : State) (n : Nat) : State :=
  let w := s.dist.sweep
  if !w.on || w.asked.contains n then s
  else
    let mine := w.sums.filter fun q => (s.launch (BitVec.ofNat 32 q.1)).nodes.contains n
    let s := s.each mine fun s q =>
      let lid := BitVec.ofNat 32 q.1
      let a := s.answer n lid
      let o := mget (0, 0, true, false) s.dist.sweep.sums q.1
      let s := s.modDist fun d => { d with sweep := { d.sweep with
        sums := mput q.1 (o.1 + a.1.s, o.2.1 + a.1.r, o.2.2.1 && a.2, o.2.2.2 || a.1.worked) d.sweep.sums } }
      let rest := { a.1 with worked := false }
      if n < 2048 then s.modNi n fun ni => { ni with counts := mput q.1 rest ni.counts }
      else s.modUnit (n - 2048) fun u => { u with counts := mput q.1 rest u.counts }
    let s := s.modDist fun d => { d with sweep := { d.sweep with asked := n :: d.sweep.asked } }
    if n < 2048 then s.carryExhaust n else s
/-- OLD_RECTANGLE_RELEASE (R335): two successive sweeps balance with nothing forwarded between them, and every request
outstanding at the stop has completed. -/
def State.releaseOld (s : State) (lid : BitVec 32) (sr : BitVec 32 × BitVec 32) : State :=
  s.each (s.dist.waves.filter fun w => w.lid = lid) fun s w =>
    let olds := w.oldCores.map (·.1)
    let moved := olds.any fun c => (s.core c).forwarded || !(s.core c).inbox.isEmpty
    let left := w.outs.any fun o => (s.launch lid).cores.any fun c => (s.core c).ni.outs.any fun q => q.id = o
    let bal := sr.1 = sr.2
    let s := s.each olds fun s c => s.modCore c fun x => { x with forwarded := false }
    if bal && w.balanced = 1 && !moved && !left then s.freeOld w
    else s.modDist fun d => { d with waves := d.waves.map fun y => if y = w then { w with balanced := if bal then 1 else 0 } else y }
/-- The root's verdict on one launch (R319, R320, R325). -/
def State.verdict (s : State) (lid : BitVec 32) (sum : BitVec 32 × BitVec 32 × Bool × Bool) : State :=
  let l := s.launch lid
  let sr := (sum.1, sum.2.1)
  let same := l.lastS = some sr && sum.1 = sum.2.1
  let s := s.releaseOld lid sr
  let note := s.modLaunch lid fun l => { l with lastS := some sr, lastIdle := sum.2.2.1, busyAt := if sum.2.2.2 then s.acyc else l.busyAt }
  let twice := match l.lastS with
    | some q => q.1 = q.2 && sum.1 = sum.2.1
    | none => false
  if l.phase = .ending then if twice && l.frozen = .no then s.endLaunch lid true else note
  else if l.phase = .resident && !l.faulted && l.frozen = .no && sum.2.2.1 && l.lastIdle && same && l.openEps.isEmpty then s.endLaunch lid false
  else note
/-- The root decides once every node of every launch it follows has answered. -/
def State.sweepDecide (s : State) : State :=
  let w := s.dist.sweep
  let lids := w.sums.map fun q => BitVec.ofNat 32 q.1
  if !w.on || !(lids.all fun l => (s.launch l).nodes.all w.asked.contains) then s
  else (s.each w.sums fun s q =>
    if (s.launch (BitVec.ofNat 32 q.1)).swept then s.verdict (BitVec.ofNat 32 q.1) q.2 else s).modDist fun d =>
      { d with sweep := { d.sweep with on := false } }
/-- TERMINATION_SWEEP (R319): a part of it. -/
def execTerminationSweep (part : SweepPart) (s : State) : Out :=
  match part with
  | .start => .next s.sweepStart
  | .node n => if n < 2176 then .next (s.sweepNode n) else .fault .noSuchAgent
  | .decide => .next s.sweepDecide

/-! The fault log (R326, R327). -/

/-- The table entry of a space. -/
def State.logEntry (s : State) (sid : Nat) : Nat := bits s.io.flog 42 20 * 2 ^ 20 + 64 * sid
/-- FAULT_RECORD_APPEND (R326): a record reaches the I/O die: it takes its number and is appended, with a notification, or
dropped and counted. -/
def execFaultRecordAppend (k : Nat) (s : State) : Out :=
  match s.io.recIn[k]? with
  | none => .next s
  | some r =>
    let sid := bits r.w0 47 32
    let seq := mget 0 s.io.seqs sid
    let s := s.modIo fun io => { io with recIn := io.recIn.eraseIdx k, seqs := mput sid ((seq + 1) % 2 ^ 48) io.seqs }
    let e := s.logEntry sid
    let lbase := (s.pword e).toNat
    let cnt := bits (s.pword (e + 8)) 31 0
    let head := s.pword (e + 16)
    if lbase = 0 || (head - s.pword (e + 24)).toNat = cnt then .next (s.pwriteWord (e + 32) (s.pword (e + 32) + 1))
    else
      let a := lbase + 64 * (head.toNat % cnt)
      let s := s.pwrite a (whole ([r.w0, r.w1, r.w2, r.w3, wd seq, r.w5, r.w6, r.w7].map wordBytes).flatten)
      .next ((s.pwriteWord (e + 16) (head + 1)).notify 1 (wd (sid * 2 ^ 48 + seq)))

end Sys2Proof.Machine
end

