-- ==== Sys2Proof/Machine/LoaderStorer.lean ====
section
/-! DEFINITION. LoaderStorer.lean: the loader and storer cores: RV64IMC (R84), the custom forms (R96-R102), and the resuming
of the forms that wait. -/

namespace Sys2Proof.Machine

/-! RV64IM (R84). -/

def sext32 (v : BitVec 32) : Word := v.signExtend 64
def lo32 (v : Word) : BitVec 32 := v.setWidth 32
def rvBranch (o : RvBr) (a b : Word) : Bool :=
  match o with
  | .beq => a = b | .bne => a ≠ b | .blt => a.slt b | .bge => !a.slt b | .bltu => a.ult b | .bgeu => !a.ult b
def rvImm (o : RvImm) (a i : Word) : Word :=
  match o with
  | .addi => a + i | .slti => bool64 (a.slt i) | .sltiu => bool64 (a.ult i) | .xori => a ^^^ i | .ori => a ||| i | .andi => a &&& i
def rvShift (o : RvSh) (a : Word) (n : Nat) : Word :=
  match o with
  | .slli => a <<< n | .srli => a >>> n | .srai => a.sshiftRight n
def rvShiftW (o : RvShW) (a : BitVec 32) (n : Nat) : BitVec 32 :=
  match o with
  | .slliw => a <<< n | .srliw => a >>> n | .sraiw => a.sshiftRight n
/-- Register arithmetic; a division by zero and an overflow give what RISC-V prescribes. -/
def rvOp (o : RvOp) (a b : Word) : Word :=
  match o with
  | .add => a + b | .sub => a - b | .sll => a <<< sh6 b | .slt => bool64 (a.slt b) | .sltu => bool64 (a.ult b)
  | .xor => a ^^^ b | .srl => a >>> sh6 b | .sra => a.sshiftRight (sh6 b) | .or => a ||| b | .and => a &&& b
  | .mul => a * b
  | .mulh => BitVec.ofInt 64 (a.toInt * b.toInt / 2 ^ 64)
  | .mulhsu => BitVec.ofInt 64 (a.toInt * b.toNat / 2 ^ 64)
  | .mulhu => wd (a.toNat * b.toNat / 2 ^ 64)
  | .div => divS a b | .divu => divU a b | .rem => remS a b | .remu => remU a b
def divW (a b : BitVec 32) : BitVec 32 := if b = 0 then BitVec.allOnes 32 else BitVec.ofInt 32 (a.toInt.tdiv b.toInt)
def remW (a b : BitVec 32) : BitVec 32 := if b = 0 then a else BitVec.ofInt 32 (a.toInt.tmod b.toInt)
def rvOpW (o : RvOpW) (a b : BitVec 32) : BitVec 32 :=
  let n := b.toNat % 32
  match o with
  | .addw => a + b | .subw => a - b | .sllw => a <<< n | .srlw => a >>> n | .sraw => a.sshiftRight n | .mulw => a * b
  | .divw => divW a b
  | .divuw => if b = 0 then BitVec.allOnes 32 else a.udiv b
  | .remw => remW a b
  | .remuw => if b = 0 then a else a.umod b
/-- Width of a load in bytes, and whether it extends by sign. -/
def rvLoad : RvLd → Nat × Bool
  | .lb => (1, true) | .lh => (2, true) | .lw => (4, true) | .ld => (8, false) | .lbu => (1, false) | .lhu => (2, false)
  | .lwu => (4, false)
def rvStoreLen : RvSt → Nat
  | .sb => 1 | .sh => 2 | .sw => 4 | .sd => 8
/-- Loads reach both stores of the core (R84). -/
def LsCore.load (l : LsCore) (a n : Nat) : Option Nat :=
  if a % n ≠ 0 then none
  else if a + n ≤ 0x4000 then some (leNat (readMap l.imem a n))
  else if 0x4000 ≤ a && a + n ≤ 0x6000 then some (leNat (readMap l.dmem (a - 0x4000) n)) else none
/-- Stores reach the data store only (R84). -/
def LsCore.store (l : LsCore) (a n : Nat) (v : Word) : Option LsCore :=
  if a % n = 0 && 0x4000 ≤ a && a + n ≤ 0x6000 then
    some { l with dmem := writeMap l.dmem (a - 0x4000) (whole (natLe n v.toNat)) }
  else none
/-- What a base instruction does: the core goes on, a stream fault of a cause, or a stop at an armed `ebreak`. -/
inductive RvRes where
  | go (l : LsCore)
  | fault (cause : Nat) (addr : Word)
  | brk
  deriving DecidableEq, Repr
/-- Execute a base instruction of n bytes on a core. -/
def rvExec (l : LsCore) (n : Nat) (armed : Bool) (i : RvInstr) : RvRes :=
  let next := l.pc + wd n
  let set := fun (d : XReg) (v : Word) => RvRes.go { l.wx d v with pc := next }
  let r := l.rx
  match i with
  | .lui d im => set d ((im ++ 0#12).signExtend 64)
  | .auipc d im => set d (l.pc + (im ++ 0#12).signExtend 64)
  | .jal d im => .go { l.wx d next with pc := l.pc + (im ++ 0#1).signExtend 64 }
  | .jalr d a im => .go { l.wx d next with pc := (r a + im.signExtend 64) &&& ~~~1#64 }
  | .br o a b im => .go { l with pc := if rvBranch o (r a) (r b) then l.pc + (im ++ 0#1).signExtend 64 else next }
  | .load o d a im =>
    let ad := r a + im.signExtend 64
    let k := rvLoad o
    match l.load ad.toNat k.1 with
    | some v => set d (if k.2 && v.testBit (8 * k.1 - 1) then wd (2 ^ 64 - 2 ^ (8 * k.1) + v) else wd v)
    | none => .fault 2 0
  | .store o a b im =>
    let ad := r a + im.signExtend 64
    match l.store ad.toNat (rvStoreLen o) (r b) with
    | some l' => .go { l' with pc := next }
    | none => .fault 2 0
  | .imm o d a im => set d (rvImm o (r a) (im.signExtend 64))
  | .sh o d a k => set d (rvShift o (r a) k.toNat)
  | .addiw d a im => set d (sext32 (lo32 (r a) + im.signExtend 32))
  | .shw o d a k => set d (sext32 (rvShiftW o (lo32 (r a)) k.toNat))
  | .op o d a b => set d (rvOp o (r a) (r b))
  | .opw o d a b => set d (sext32 (rvOpW o (lo32 (r a)) (lo32 (r b))))
  | .fence _ _ _ => .go { l with pc := next }
  | .ecall => .fault 1 0
  | .ebreak => if armed then .brk else .fault 1 0
/-- The loader or storer core whose turn it is. -/
def State.storerTurn (s : State) : Bool := s.cur.unit = 17
def execRv64imcInstruction (w : RvWord) (s : State) : Out :=
  let c := s.cur.core
  let st := s.storerTurn
  let l := s.ls c st
  let armed := s.debugged (s.env c).lid && bitOf s.dist.dbgCtl 59
  let ni : Nat × RvInstr := match w with
    | .full i => (4, i)
    | .comp _ i => (2, i)
  match rvExec l ni.1 armed ni.2 with
  | .go l' => .next (s.setLs c st l')
  | .fault cause a => .next (s.streamFault c st cause a)
  | .brk => .next ((s.setLs c st { l with running := false, halted := true }).stopNote c (mget 0 (s.core c).ifps (s.env c).lid.toNat) false 5)

/-! The custom forms (R96-R102, R104). -/

/-- How a custom form ends: it completes with a result, waits, or is a stream fault. -/
inductive LsRes where
  | done (s : State) (d : XReg) (v : Word)
  | wait (s : State)
  | fault (cause : Nat) (addr : Word)
/-- Has a channel of the core's own set met a fault (R104)? -/
def State.chanFault (s : State) (c : Nat) (st : Bool) : Bool := (lsChans st).any fun u => ((s.core c).chan u).fault
/-- A channel's descriptor that was written while the core was stopped, checked against R87, R91 and R134 at the next custom form
(R107): the stream fault that `cp.go` would give. A range of which nothing is left is not held to LEN's lower bound (log 54). -/
def State.badWritten (s : State) (c : Nat) (st : Bool) : Option (Nat × Word) :=
  (s.ls c st).written.findSome? fun u =>
    let x := ((s.core c).chan u).x
    let ws := s.xferWords c x
    let t := { s.ringSide c (descXfer ws) with fmt := x.fmt }
    let t := if x.len ≤ x.dstDone then { t with len := t.unitLens.2 } else t
    if s.descBad c ws t then some (3, s.descAddr c ws t) else if t.fmtBad then some (7, 0) else none
/-- Run a custom form on a core: a fault of a transfer stops the core at its first custom form; `cp.wait` and `cp.stat`
complete first (R104). -/
def lsForm (s : State) (c : Nat) (st : Bool) (i : Instr) (f : LsCore → LsRes) : Out :=
  let l := s.ls c st
  let reads := match i with
    | .cpWait _ _ _ | .cpStat _ _ => true
    | _ => false
  let faulted := s.chanFault c st
  match s.badWritten c st with
  | some (cause, a) => .next (s.streamFault c st cause a)
  | none =>
    if faulted && !reads then .next (s.setLs c st l.stop)
    else match f l with
      | .done s' d v =>
        let l' := { (s'.ls c st).wx d v with pc := l.pc + 4, waiting := none, written := [] }
        .next (s'.setLs c st (if faulted then l'.stop else l'))
      | .wait s' => .next (s'.setLs c st { l with waiting := rvWordOf i })
      | .fault cause a => .next (s.streamFault c st cause a)
/-- A form in a core's own turn. -/
def lsTurn (s : State) (i : Instr) (f : LsCore → LsRes) : Out := lsForm s s.cur.core s.storerTurn i f
def State.lsWho (s : State) (c : Nat) : Who := ⟨c, (s.env c).lid, (s.env c).sid, 0⟩

/-- `cp.go` (R97): the checks of R88, then the lowest idle channel and a slot count, or a wait for them. -/
def cpGo (s : State) (c : Nat) (st : Bool) (d a : XReg) (l : LsCore) : LsRes :=
  let ad := (l.rx a).toNat
  if ad % 8 ≠ 0 || ad < 0x4000 || 0x5fe0 < ad then .fault 2 0
  else
    let ws := bytesWords (readMap l.dmem (ad - 0x4000) 32)
    let s := match (descXfer ws).ring with
      | some r => s.touchRing c r.1 r.2
      | none => s
    let x := s.core c
    let fmt := mget 0 x.fmt (bits (ws.getD 2 0) 38 35)
    match s.xferBad c ws fmt with
    | some (cause, b) => .fault cause b
    | none =>
      let t0 := descXfer ws
      let e := s.env c
      let t := s.ringSide c { t0 with fmt := fmt, pc := BitVec.ofNat 14 l.pc.toNat, lid := e.lid, sid := e.sid }
      let room := match t.ring with
        | none => true
        | some r => x.slotCnts.length < 16 || x.slotCnts.any fun q => q.2.isOf r
      match (lsChans st).find? fun u => !(x.chan u).busy with
      | some u =>
        if !room then .wait s
        else
          let cnt := match t.ring with
            | some r => addSlot r 0 x.slotCnts
            | none => x.slotCnts
          .done (s.setCore c { (x.setChan u fun _ => { busy := true, x := t }) with slotCnts := cnt }) d (wd u)
      | none => .wait s
def execCpGo (d a : XReg) (s : State) : Out := lsTurn s (.cpGo d a) (cpGo s s.cur.core s.storerTurn d a)
/-- Does a register name a channel of the core's own set? -/
def ownChan (st : Bool) (v : Word) : Option Nat := (lsChans st).find? fun u => u = v.toNat
/-- `cp.wait` (R97): until the channel is not BUSY or its COUNT reaches rs2; at a fault of the set it completes (R104). -/
def cpWait (s : State) (c : Nat) (st : Bool) (d a b : XReg) (l : LsCore) : LsRes :=
  match ownChan st (l.rx a) with
  | none => .fault 3 0
  | some u =>
    let ch := (s.core c).chan u
    if !ch.busy || (l.rx b).toNat ≤ ch.count.toNat || s.chanFault c st then .done s d ch.status else .wait s
def execCpWait (d a b : XReg) (s : State) : Out := lsTurn s (.cpWait d a b) (cpWait s s.cur.core s.storerTurn d a b)
def execCpStat (d a : XReg) (s : State) : Out :=
  lsTurn s (.cpStat d a) fun l =>
    match ownChan s.storerTurn (l.rx a) with
    | none => .fault 3 0
    | some u => .done s d ((s.core s.cur.core).chan u).status
/-- What an `ls.sig` waits for (R98): the compute core's writes and the channels' beats within the scope. -/
def State.lsUnacked (s : State) (c : Nat) (sc : Scope) : List Nat :=
  ((s.core c).ni.outs.filter fun o => o.isWrite && s.within c sc o).map (·.id)
def execLsSig (a b : XReg) (s : State) : Out :=
  lsTurn s (.lsSig a b) fun l =>
    let c := s.cur.core
    let v := l.rx b
    let f := l.rx a
    match scopeOfCode (v.extractLsb' 17 3) with
    | none => .fault 3 0
    | some sc =>
      if bits v 63 24 ≠ 0 || bits v 7 0 = 0 then .fault 3 0
      else .done (s.post (s.lsWho c) (fpNode f) (slackOf (s.env c) (v.extractLsb' 20 4)) (s.lsUnacked c sc)
        (.sig f (bits v 16 8) (bits v 7 0) .none)) 0 0
/-- `ls.rid` (R99). -/
def execLsRid (d : XReg) (i : BitVec 12) (s : State) : Out :=
  lsTurn s (.lsRid d i) fun _ =>
    let c := s.cur.core
    let e := s.env c
    if 18 ≤ i.toNat then .fault 1 0
    else .done s d (identity s e c i.toNat (mget 0 (s.core c).ifps e.lid.toNat) (b2n s.storerTurn) 0)
def execLsEnd (s : State) : Out :=
  let c := s.cur.core
  let st := s.storerTurn
  match lsForm s c st .lsEnd (fun _ => .done s 0 0) with
  | .next s' =>
    let l := s'.ls c st
    .next (if l.faulted then s' else s'.setLs c st { l with running := false, ended := true })
  | o => o
/-- The ring a stage form names, or cause DESC (R100). -/
def lsRing (s : State) (c : Nat) (a b : Word) (k : Ring → LsRes) : LsRes :=
  let r := s.ring c a.toNat
  if a.toNat < 0x100000 && r.ok a.toNat && b.toNat ≤ r.nslot then k r else .fault 3 0
/-- The tag an acquire wants and the tag it leaves (R92). -/
def acqTags (r : Ring) : Nat × Nat := if r.outbound then (2, 3) else (0, 1)
def stgAcq (s : State) (c : Nat) (d a b : XReg) (try_ : Bool) (l : LsCore) : LsRes :=
  lsRing s c (l.rx a) (l.rx b) fun r =>
    let off := (l.rx a).toNat
    let k := (l.rx b).toNat
    let s := s.touchRing c off k
    if s.slotTag c off k = (acqTags r).1 then .done (s.setSlotTag c off k (acqTags r).2) d (wd (r.base + k * r.slen))
    else if try_ then .done s d (BitVec.allOnes 64) else .wait s
def execStgAcq (d a b : XReg) (s : State) : Out := lsTurn s (.stgAcq d a b) (stgAcq s s.cur.core d a b false)
def execStgTry (d a b : XReg) (s : State) : Out := lsTurn s (.stgTry d a b) (stgAcq s s.cur.core d a b true)
def execStgRd (d a b : XReg) (s : State) : Out :=
  lsTurn s (.stgRd d a b) fun l =>
    lsRing s s.cur.core (l.rx a) (l.rx b) fun _ =>
      .done (s.touchRing s.cur.core (l.rx a).toNat (l.rx b).toNat) d (wd (s.slotTag s.cur.core (l.rx a).toNat (l.rx b).toNat))
def execEpRd (d a : XReg) (i : BitVec 12) (s : State) : Out :=
  lsTurn s (.epRd d a i) fun l =>
    if 3 ≤ i.toNat then .fault 1 0 else .done s d ((s.env s.cur.core).endpoint (l.rx a).toNat i.toNat)
/-- A scratch word of the own core, checked by the protection unit (R101). -/
def lsWord (s : State) (c : Nat) (a : Word) (wr : Bool) (k : Nat → LsRes) : LsRes :=
  if a.toNat % 8 = 0 && a.toNat < 0x100000 && (s.core c).permits (s.env c).sid a.toNat 8 wr then k a.toNat else .fault 2 0
/-- rs2 takes no part in `ls.ldw`. -/
def execLsLdw (d a _b : XReg) (s : State) : Out :=
  lsTurn s (.lsLdw d a _b) fun l => lsWord s s.cur.core (l.rx a) false fun o => .done (s.touchAt s.cur.core o 8) d ((s.core s.cur.core).scrWord o)
def execLsStw (a b : XReg) (s : State) : Out :=
  lsTurn s (.lsStw a b) fun l => lsWord s s.cur.core (l.rx a) true fun o =>
    .done (s.scrWrite s.cur.core o (whole (wordBytes (l.rx b))) false) 0 0

/-! Resuming the forms that wait. -/

/-- A waiting form of a kind runs again (R97, R100); otherwise nothing happens. A `cp.go` that waited reads its descriptor, its
ring and its format register anew and has the checks of R88 made again: R97 leaves open whether those of its first attempt
stand (log 54). -/
def lsResume (s : State) (core : Nat) (st : Bool) (f : Instr → Option (LsCore → LsRes)) : Out :=
  needCore core <|
  let l := s.ls core st
  if !l.running || (s.core core).stopped then .next s
  else match l.waiting with
    | none => .next s
    | some w =>
      match decodeRv32 w with
      | .ok i => match f i with
        | some k => lsForm s core st i k
        | none => .next s
      | .error _ => .next s
def execCpGoChannelStart (core : Nat) (storer : Bool) (s : State) : Out :=
  lsResume s core storer fun i => match i with
    | .cpGo d a => some (cpGo s core storer d a)
    | _ => none
def execCpWaitResume (core : Nat) (storer : Bool) (s : State) : Out :=
  lsResume s core storer fun i => match i with
    | .cpWait d a b => some (cpWait s core storer d a b)
    | _ => none
def execStgAcqResume (core : Nat) (storer : Bool) (s : State) : Out :=
  lsResume s core storer fun i => match i with
    | .stgAcq d a b => some (stgAcq s core d a b false)
    | _ => none

end Sys2Proof.Machine
end

