-- ==== Sys2Proof/Machine/Window.lean ====
section
/-! DEFINITION. Window.lean: the ranges of a core's window outside scratch (R50, R51): accumulators and format registers,
issue contexts (R38), the frame directory (R119), the tag array (R112), the loader and storer stores and register blocks
(R107), the counters (R341), the protection unit (R81); requests from packets and the owner's `cfg_data` (R355). -/

namespace Sys2Proof.Machine

/-! Issue contexts (R38). -/

/-- May a context's window be reached (R51): it is not running. -/
def ctxStill (x : Core) (k : Nat) : Bool :=
  !(x.ctx k).bound || (x.frozen && !(x.ctx k).work.active)
/-- An 8-byte word of a context window, or none at a reserved offset. -/
def ctxWinRead (y : Ctx) (o : Nat) : Option Word :=
  let r := y.regs
  if o < 0x100 then some (r.rx (BitVec.ofNat 5 (o / 8)))
  else if o < 0x500 then some ((r.rv (BitVec.ofNat 4 ((o - 0x100) / 64))).extractLsb' (o % 64 * 8) 64)
  else if o < 0x510 then some (qWord r ((o - 0x500) / 2))
  else match o with
    | 0x510 => some (r.cf.setWidth 64)
    | 0x518 => some y.fp
    | 0x520 => some (wd (y.pos.toNat * 2 ^ 32 + b2n y.bound))
    | 0x528 => some (r.marks.setWidth 64)
    | 0x530 => some (r.depth.setWidth 64)
    | 0x538 => some (loopWord r.l0)
    | 0x540 => some (wd r.l0.rem.toNat)
    | 0x548 => some (loopWord r.l1)
    | 0x550 => some (wd r.l1.rem.toNat)
    | _ => none
/-- Write an 8-byte word of a bound context's window; the state field is not written. -/
def ctxWinWrite (y : Ctx) (o : Nat) (v : Word) : Ctx :=
  let r := y.regs
  if o < 0x100 then { y with regs := r.wx (BitVec.ofNat 5 (o / 8)) v }
  else if o < 0x500 then
    let n : VReg := BitVec.ofNat 4 ((o - 0x100) / 64)
    let sh := o % 64 * 8
    let hole := ~~~((BitVec.allOnes 64).setWidth 512 <<< sh)
    { y with regs := r.wv n ((r.rv n &&& hole) ||| (v.setWidth 512 <<< sh)) }
  else if o < 0x510 then
    { y with regs := (List.range 4).foldl (fun r j => r.wq (BitVec.ofNat 3 ((o - 0x500) / 2 + j)) (v.extractLsb' (16 * j) 16)) r }
  else match o with
    | 0x510 => { y with regs := { r with cf := v.setWidth 7 } }
    | 0x518 => { y with fp := v }
    | 0x520 => { y with pos := v.extractLsb' 32 32 }
    | 0x528 => { y with regs := { r with marks := v.setWidth 32 &&& ~~~1#32 } }
    | 0x530 => { y with regs := { r with depth := v.setWidth 2 } }
    | 0x538 => { y with regs := { r with l0 := wordLoop v (wd r.l0.rem.toNat) } }
    | 0x540 => { y with regs := { r with l0 := { r.l0 with rem := v.setWidth 32 } } }
    | 0x548 => { y with regs := { r with l1 := wordLoop v (wd r.l1.rem.toNat) } }
    | 0x550 => { y with regs := { r with l1 := { r.l1 with rem := v.setWidth 32 } } }
    | _ => y

/-! Loader and storer cores (R107). -/

/-- May a loader or storer core's stores and registers be reached (R51)? Before the launch starts it, while it is halted, and
while its rectangle is frozen; a core that has ended or taken a fault runs no more, but its launch has started it. -/
def lsStill (x : Core) (st : Bool) : Bool :=
  let l := x.lsCore st
  x.frozen || l.halted || x.lids.isEmpty || !(l.running || l.ended || l.faulted)
/-- The state word. -/
def lsState (l : LsCore) : Word :=
  wd (b2n l.running + 2 * b2n l.ended + 4 * b2n l.faulted + 8 * b2n l.halted + 16 * b2n l.frozen + 32 * b2n l.waiting.isSome)
def SlotCnt.word (c : SlotCnt) : Word := wd (2 ^ 63 + c.rdesc * 2 ^ 32 + c.slot * 2 ^ 24 + c.bytes)
/-- An 8-byte word at an offset of a loader or storer core's 26 KiB, or none where it is reserved. -/
def State.lsWinRead (s : State) (c : Nat) (st : Bool) (o : Nat) : Option Word :=
  let x := s.core c
  let l := x.lsCore st
  let ch := fun k => x.chan ((lsChans st).getD k 0)
  if o < 0x4000 then some (bytesWord (readMap l.imem o 8))
  else if o < 0x6000 then some (bytesWord (readMap l.dmem (o - 0x4000) 8))
  else if o < 0x6100 then some (l.rx (BitVec.ofNat 5 (o / 8)))
  else if o = 0x6100 then some l.pc
  else if o = 0x6108 then some (lsState l)
  else if o < 0x6130 then some (ch ((o - 0x6110) / 8)).status
  else if o < 0x61b0 then some ((s.xferWords c (ch ((o - 0x6130) / 32)).x).getD ((o - 0x6130) / 8 % 4) 0)
  else if 0x6200 ≤ o && o < 0x6280 && !st then 
    some (((x.slotCnts.find? fun p => p.1 = (o - 0x6200) / 8).map fun p => p.2.word).getD 0)
  else none
/-- The slot counts with word k written. -/
def setSlotCnt (l : Map SlotCnt) (k : Nat) (v : Word) : Map SlotCnt :=
  if bitOf v 63 then mput k ⟨bits v 51 32, bits v 31 24, bits v 20 0⟩ l else merase k l
/-- Write such a word; a write to the state word is ignored (R107). The beats of a unit that a written descriptor starts anew are
outstanding no more. -/
def State.lsWinWrite (s : State) (c : Nat) (st : Bool) (o : Nat) (v : Word) : State :=
  let l := s.ls c st
  let bs := whole (wordBytes v)
  let chan := fun k => (lsChans st).getD k 0
  if o < 0x4000 then s.setLs c st { l with imem := writeMap l.imem o bs }
  else if o < 0x6000 then s.setLs c st { l with dmem := writeMap l.dmem (o - 0x4000) bs }
  else if o < 0x6100 then s.setLs c st (l.wx (BitVec.ofNat 5 (o / 8)) v)
  else if o = 0x6100 then s.setLs c st { l with pc := v }
  else if o = 0x6108 then s
  else if o < 0x6130 then
    s.modCore c fun x => x.setChan (chan ((o - 0x6110) / 8)) fun ch => s.setStatus c ch v
  else if o < 0x61b0 then
    let u := chan ((o - 0x6130) / 32)
    let s := s.each (((s.core c).chan u).x.pieces.filter fun p => p.sent < p.dLen) fun s p => s.beatsDone c u p.id fun _ => true
    (s.modCore c fun x => x.setChan (chan ((o - 0x6130) / 32)) fun ch =>
      { ch with x := s.setXferWord c ch.x ((o - 0x6130) / 8 % 4) v }).setLs c st
        { l with written := if l.written.contains (chan ((o - 0x6130) / 32)) then l.written else l.written ++ [chan ((o - 0x6130) / 32)] }
  else s.modCore c fun x => { x with slotCnts := setSlotCnt x.slotCnts ((o - 0x6200) / 8) v }

/-! The other ranges. -/

/-- A directory entry (R119); a unit that begins no frame's location reads zero. -/
def State.dirWord (s : State) (c i : Nat) : Word :=
  let x := s.core c
  let u := x.fr.base + i
  if 64 * i < x.fr.frs && mhas x.fr.dir u then
    let d := x.dir u
    wd (b2n d.alloc * 2 ^ 63 + b2n d.spilled * 2 ^ 62 + b2n d.refill * 2 ^ 61 + b2n d.pin * 2 ^ 60 +
      b2n (d.alloc && x.readyFp (s.residentFp c u)) * 2 ^ 59 + d.cls.toNat * 2 ^ 57 + d.gen.toNat * 2 ^ 49 +
      d.sgen.toNat * 2 ^ 41 + d.spa.toNat)
  else 0
/-- A word of the protection unit as a write leaves it (R81), or none where BASE or LIMIT breaks its rule: of a write of
several words only such a word is ignored, which the spec leaves open (log 52). -/
def permitWord (k : Nat) (v : Word) : Option Word :=
  match k % 4 with
  | 0 => some (v &&& 0xe00000000000ffff#64)
  | 1 => if bits v 21 0 % 64 = 0 then some (v &&& 0x3fffff#64) else none
  | 2 => if bits v 21 0 % 64 = 63 then some (v &&& 0x3fffff#64) else none
  | _ => some 0
/-- Where an offset lies (R50), for the ranges this file serves. -/
inductive Range where
  | scratch | acc | fmt | ctx | dir | tags | loader | storer | counters | permits
  deriving DecidableEq, Repr
/-- First and last offset of each range. -/
def ranges : List (Range × Nat × Nat) :=
  [(.scratch, 0, 0xfffff), (.acc, 0x100000, 0x107fff), (.fmt, 0x108000, 0x10807f), (.ctx, 0x110000, 0x117fff),
   (.dir, 0x120000, 0x12ffff), (.tags, 0x140000, 0x147fff), (.loader, 0x180000, 0x1863ff), (.storer, 0x190000, 0x1963ff),
   (.counters, 0x1a0000, 0x1a00ff), (.permits, 0x1b0000, 0x1b00ff)]
/-- The range of an offset and the offset within it. -/
def rangeOf (off : Nat) : Option (Range × Nat) :=
  (ranges.find? fun r => r.2.1 ≤ off && off ≤ r.2.2).map fun r => (r.1, off - r.2.1)
/-- Does the protection unit, and not privilege, guard the range (R50)? -/
def Range.guarded : Range → Bool
  | .scratch | .acc | .fmt => true
  | _ => false
/-- The 8-byte word at a window offset, or none at a reserved one (R50, R51). -/
def State.winRead (s : State) (c off : Nat) : Option Word :=
  let x := s.core c
  match rangeOf off with
  | none => none
  | some (r, o) =>
    match r with
    | .scratch => some (x.scrWord o)
    | .acc => some (bytesWord (readMap x.acc o 8))
    | .fmt => some (mget 0 x.fmt (o / 8))
    | .ctx => (ctxWinRead (x.ctx (o / 0x800)) (o % 0x800)).map fun v => if ctxStill x (o / 0x800) then v else 0
    | .dir => some (s.dirWord c (o / 8))
    | .tags => some (bytesWord (x.tagBytes (4 * o) 32))
    | .loader => (s.lsWinRead c false o).map fun v => if lsStill x false then v else 0
    | .storer => (s.lsWinRead c true o).map fun v => if lsStill x true then v else 0
    | .counters =>
      if o < 0x80 then some (mget 0 x.ctr (o / 8))
      else if o < 0xc0 then some (mget 0 x.ctrCfg ((o - 0x80) / 4) ||| (mget 0 x.ctrCfg ((o - 0x80) / 4 + 1) <<< 32))
      else if o = 0xc0 then some (wd (s.acyc - x.upAt)) else none
    | .permits => some (mget 0 x.win (o / 8))
/-- Write the 8-byte word at an offset that is not reserved. -/
def State.winWrite (s : State) (c off : Nat) (v : Word) : State :=
  let x := s.core c
  match rangeOf off with
  | none => s
  | some (r, o) =>
    match r with
    | .scratch => s.scrWrite c o (whole (wordBytes v)) false
    | .acc => s.setCore c { x with acc := writeMap x.acc o (whole (wordBytes v)) }
    | .fmt => s.setCore c { x with fmt := mset 0 (o / 8) v x.fmt }
    | .ctx =>
      if ctxStill x (o / 0x800) && (x.ctx (o / 0x800)).bound then s.modCtx c (o / 0x800) fun y => ctxWinWrite y (o % 0x800) v else s
    | .dir => s
    | .tags =>
      let s := s.setCore c ((List.range 32).foldl (fun y k =>
        (y.setF (4 * o + k) (bitOf v (2 * k))).setP (4 * o + k) (bitOf v (2 * k + 1))) x)
      s.each (List.range 32) fun s k => s.serve c (4 * o + k)
    | .loader => if lsStill x false then s.lsWinWrite c false o v else s
    | .storer => if lsStill x true then s.lsWinWrite c true o v else s
    | .counters =>
      if o < 0x80 then s.setCore c { x with ctr := mset 0 (o / 8) v x.ctr }
      else if o < 0xc0 then
        let k := (o - 0x80) / 4
        s.setCore c { x with ctrCfg := mset 0 k (v &&& 0x80ffffff#64) (mset 0 (k + 1) (v >>> 32 &&& 0x80ffffff#64) x.ctrCfg) }
      else s
    | .permits =>
      match permitWord (o / 8) v with
      | some v => s.setCore c { x with win := mset 0 (o / 8) v x.win }
      | none => s

/-! Requests. -/

/-- The window offset of every word an access of n bytes reaches. -/
def winWords (off n : Nat) : List Nat := (List.range (n / 8)).map fun k => off + 8 * k
/-- Is the launch that a request names privileged (R50)? Of another package's, whose ids are its own (R300), a free value says so
(log 73). -/
def State.reqPriv (s : State) (p : Packet) : Bool :=
  if p.src.pkg = s.pkg then s.hasLaunch p.lid && (s.launch p.lid).priv else Config.farPrivileged p.src.pkg p.lid
/-- May a request reach n bytes of the window outside scratch (R49-R51, R82)? -/
def State.winOk (s : State) (c : Nat) (p : Packet) (off n : Nat) (rd wr : Bool) : Bool :=
  off % 8 = 0 && n % 8 = 0 && (winWords off n).all fun o =>
    (s.winRead c o).isSome && match rangeOf o with
      | some (r, _) => if r.guarded then s.granted c p.sid o 8 rd wr else s.reqPriv p
      | none => false
def State.winBytes (s : State) (c off n : Nat) : List Byte := ((winWords off n).map fun o => wordBytes ((s.winRead c o).getD 0)).flatten
def State.winStore (s : State) (c off : Nat) (bs : List Byte) : State :=
  s.each (bytesWords bs).zipIdx fun s q => s.winWrite c (off + 8 * q.2) q.1
/-- Carry out a permitted request at the window. -/
def State.winServe (s : State) (c off : Nat) (p : Packet) : State :=
  match p.body with
  | .read _ n _ k => s.reply p (.data (s.winBytes c off n) k) false
  | .write _ bs k => (s.winStore c off (bs.map fun b => b.getD 0)).reply p (.ack k none) false
  | .amo op ty _ v cmp k =>
    let old := s.winBytes c off 8
    let s := match amoNew op ty (leNat old) (truncTy ty v) (truncTy ty cmp) with
      | some n => s.winStore c off (natLe 8 n)
      | none => s
    s.reply p (.data old k) false
  | .red op ty _ v _ k =>
    (s.winStore c off (natLe 8 (redNew op ty (leNat (s.winBytes c off 8)) (truncTy ty v)))).reply p (.ack k none) false
  | .csnap _ k => (s.winStore c off (List.replicate 64 0)).reply p (.data (s.winBytes c off 64) k) false
  | _ => s
/-- A request for an on-chip offset outside scratch. -/
def isWinReq (p : Packet) : Bool := match memReq p.body with
  | some (a, _, _, _) => 0x100000 ≤ addrOff a
  | none => false
/-- Does a matrix request name an accumulator? -/
def MReq.names (m : MReq) (n : Nat) : Bool := m.d = n || ((m.form = .accAdd || m.form = .accRed) && m.s = n)
/-- Does a window offset lie in an accumulator that a request accepted and not yet carried out names (R51)? -/
def Core.accWaits (x : Core) (off : Nat) : Bool :=
  match rangeOf off with
  | some (.acc, o) => x.mq.any fun m => m.names (o / 4096)
  | _ => false
/-- WINDOW_ACCESS (R51): performed under the rules of the window, or refused; at an accumulator it waits behind the matrix
requests on it that have been accepted before. -/
def execWindowAccess (core : Nat) (s : State) : Out :=
  onPacket s core isWinReq fun p s' =>
    match memReq p.body with
    | none => s'
    | some (a, n, rd, wr) =>
      if (s.core core).accWaits (addrOff a) then s
      else if onChip a && bits a 33 22 = 0 && !isFe p && s'.winOk core p (addrOff a) n rd wr then s'.winServe core (addrOff a) p
      else s'.addressRefusal p

/-! `cfg_data` (R355). -/

/-- The core and offset that `cfg_addr` names; none where R49 refuses it. -/
def State.cfgTarget (s : State) : Option (Nat × Nat) :=
  let a := s.io.cfgAddr
  if onChip a && addrPkg a = s.pkg && bits a 33 22 = 0 && (s.winRead (addrCore a) (addrOff a)).isSome then
    some (addrCore a, addrOff a)
  else none
/-- Does `cfg_addr` name a word of a core of another package of the system, which the configuration traffic reaches as well? Its
state is no state of this package. -/
def State.cfgElsewhere (s : State) : Bool :=
  let a := s.io.cfgAddr
  onChip a && addrPkg a ≠ s.pkg && s.pkgPresent (addrPkg a) && bits a 33 22 = 0 && (s.winRead (addrCore a) (addrOff a)).isSome
/-- The router and entry of its route table that `cfg_addr` names (R286): at an offset of the core's window that R50 reserves, which
one being a free value (log 74). -/
def State.cfgRoute (s : State) : Option (Nat × Nat) :=
  let a := s.io.cfgAddr
  if onChip a && addrPkg a = s.pkg && bits a 33 22 = 0 && rangeOf (addrOff a) = none then
    ((Config.routeEntry (addrOff a)).filter (· < 96)).map fun k => (addrCore a, k)
  else none
/-- Does an access of the owner to `cfg_data` wait: at an accumulator, until the matrix requests accepted before it have been
carried out (R51)? -/
def State.cfgWaits (s : State) (p : Party) : Bool :=
  s.isOwner p && (s.core (addrCore s.io.cfgAddr)).accWaits (addrOff s.io.cfgAddr)
/-- An access to `cfg_data` by the owner: eight bytes, and `cfg_addr` goes on by 8; at a misaligned address nothing. `far` is
what it does where the word is another package's, `tab` at a route table. -/
def cfgAccess (p : Party) (s : State) (far : State → State) (tab k : Nat → Nat → State → State) : Out :=
  if s.cfgWaits p then .next s
  else .next <| s.ownerWrite p fun s =>
    if s.io.cfgAddr.toNat % 8 ≠ 0 then s.status true
    else
      let s' := match s.cfgTarget with
        | some (c, off) => k c off s
        | none => match s.cfgRoute with
          | some (r, e) => tab r e s
          | none => if s.cfgElsewhere then far s else s.status true
      s'.modIo fun io => { io with cfgAddr := io.cfgAddr + 8 }
/-- CFG_DATA_READ (R355); what a word of another package holds is a free value (log 59). -/
def execCfgDataRead (p : Party) (s : State) : Out :=
  let answer := fun (v : Word) (s : State) => s.modHost fun h => { h with answer := some (wordBytes v) }
  cfgAccess p s (fun s => answer s.freeVal.1 s.freeVal.2) (fun r e s => answer (mget 0 (s.router r).tab e) s)
    fun c off s => answer ((s.winRead c off).getD 0) s
/-- CFG_DATA_WRITE (R355); the owner rewrites a route table by it (R286). -/
def execCfgDataWrite (p : Party) (v : Word) (s : State) : Out :=
  cfgAccess p s id (fun r e s => s.modRouter r fun x => { x with tab := mput e v x.tab }) fun c off s => s.winWrite c off v

end Sys2Proof.Machine
end

