-- ==== Sys2Proof/Machine/Dusk.lean ====
section
/-! DEFINITION. Dusk.lean: the Dusk image (R333): writing it, relocation (R334), and restoring a launch from it (R335). Its
sections are bytes of package memory; what they have no place for is kept beside them (log 12). -/

namespace Sys2Proof.Machine

/-! Relocation of a core (R334). -/

/-- The frame pointer a request carries for its completion. -/
def contFp : Cont → Word
  | .word f _ _ _ | .block f _ _ | .slot f _ | .ownHdr f _ _ _ _ _ _ | .ownTab f _ _ _ _ | .child _ f _ => f
  | _ => 0
/-- What a core holds for a launch besides scratch: every frame pointer and packet relocated, whatever its tag. -/
def Core.moved (pk : BitVec 18) (m : Moves) (x : Core) : Core :=
  let fp := movedFp pk m
  let tok := fun (t : Token) => { t with fp := fp t.fp }
  let pkt := movedPkt pk m
  { x with
    ready := x.ready.map (fun (p : Nat × List Token) => (p.1, p.2.map tok)), hold := x.hold.map tok,
    tfps := x.tfps.map (fun (p : Word × Word) => (fp p.1, fp p.2)), defer := x.defer.map (fun d => { d with pkt := pkt d.pkt }),
    copyQ := x.copyQ.map (fun t => { t with fp := fp t.fp }), ifps := x.ifps.map (fun (p : Nat × Word) => (p.1, fp p.2)),
    fr := { x.fr with refills := x.fr.refills.map (fun r => { r with fp := fp r.fp }),
                      heldPkts := x.fr.heldPkts.map (fun (h : Nat × Packet) => (h.1, pkt h.2)) },
    ni := { x.ni with held := x.ni.held.map (fun h => { h with pkt := pkt h.pkt }), retry := x.ni.retry.map (fun h => { h with pkt := pkt h.pkt }),
                      enqBuf := x.ni.enqBuf.map (fun h => { h with pkt := pkt h.pkt }), groups := x.ni.groups.map (fun g => { g with fp := fp g.fp }),
                      bars := x.ni.bars.map (fun b => { b with fp := fp b.fp }) } }
/-! Tokens of an image: those in the core, by class in FIFO order, then the hold list; those of the token area stand in
scratch (R246, R333). -/

def Core.inCore (x : Core) : List Token := x.tokens.filter fun t => t.place.isNone
/-- First byte of entry j of a core's token area. -/
def Core.areaAt (x : Core) (l : Launch) (j : Nat) : Nat := 64 * x.fr.base - 1024 * l.tqa + 16 * j
/-- The 16 bytes of a token: its frame pointer in image form, its position, and four bytes of a free value (log 49). -/
def State.tokenBytes (s : State) (l : Launch) (t : Token) (k : Nat) : List Byte :=
  wordBytes (s.imageForm l t.fp) ++ natLe 4 t.pos.toNat ++ natLe 4 (Config.freeWord (s.free + k)).toNat
/-- Tokens with the pointer and position that a source gives for their entry: of the token area, or the next in the core. -/
def setTokens (rd : Option Nat → Nat → Word × BitVec 32) : Nat → List Token → List Token × Nat
  | k, [] => ([], k)
  | k, t :: ts =>
    let r := rd t.place k
    let q := setTokens rd (if t.place.isNone then k + 1 else k) ts
    ({ t with fp := r.1, pos := r.2 } :: q.1, q.2)
/-- The ready queues, class by class. -/
def setReady (rd : Option Nat → Nat → Word × BitVec 32) : Nat → List Nat → Map (List Token) → Map (List Token)
  | _, [], m => m
  | k, p :: ps, m => let q := setTokens rd k (mget [] m p); setReady rd q.2 ps (mput p q.1 m)
/-- The deferred requests in FIFO order per bank. -/
def Core.byBank (x : Core) : List Deferred := sortBy (fun a b => a.off / 64 % 8 ≤ b.off / 64 % 8) x.defer
/-- The four words of a deferred request, as the wait map has them (R337, log 12): a core, an offset, the issuer's frame
pointer, the value of a `stef`. -/
def deferWords (core : Nat) (fp : Word → Word) (d : Deferred) : List Word :=
  match d.pkt.body with
  | .fe .stef _ v k => [wd (3 * 2 ^ 56 + 2 ^ 32 + d.off * 2 ^ 12 + core), fp (contFp k), v, 0]
  | b => [wd (3 * 2 ^ 56 + d.off * 2 ^ 12 + core), fp (contFp (bodyCont b)), 0, 0]
/-- A deferred request read back: its place, issuer and value. -/
def setDeferred (d : Deferred) (w0 fp v : Word) : Deferred :=
  let k := fun (c : Cont) => match c with
    | .word _ w ty sl => Cont.word fp w ty sl
    | .slot _ sl => .slot fp sl
    | c => c
  { off := bits w0 31 12, pkt := { d.pkt with body := match d.pkt.body with
      | .fe op a w c => .fe op a (if op = .stef then v else w) (k c)
      | b => b } }
/-- The packets a network interface holds back (R318). -/
def Ni.kept (ni : Ni) : List Packet := ni.held.map (·.pkt) ++ ni.retry.map (·.pkt) ++ ni.enqBuf.map (·.pkt)

/-! Writing the image (R333). -/

def blockLen : Nat := 0x140000
/-- Scratch offset of a row numbered bank-major. -/
def rowOff (r : Nat) : Nat := r % 2048 * 512 + r / 2048 * 64
def Core.rows (x : Core) : List Nat := (List.range 16384).filter (mget false x.touched)
def ctrOf (x : Core) (sid : Half) : List Nat := (List.range 16).filter fun n => bits (mget 0 x.ctrCfg n) 23 8 = sid.toNat
/-- A counter section: those of a space, in R341's layout. -/
def Core.ctrBytes (x : Core) (sid : Half) : List Byte :=
  let mine := ctrOf x sid
  ((List.range 16).map fun n => wordBytes (if mine.contains n then mget 0 x.ctr n else 0)).flatten ++
    ((List.range 16).map fun n => natLe 4 (if mine.contains n then mget 0 x.ctrCfg n else 0).toNat).flatten ++ List.replicate 64 0
def wordsAt (n : Nat) (f : Nat → Word) : List Byte := ((List.range n).map fun k => wordBytes (f k)).flatten
/-- The launches of a core that a core state section names. -/
def State.coreSet (s : State) (l : Launch) (c : Nat) : List (BitVec 32) := ((s.core c).lids.filter fun i => (s.launch i).root = l.lid).take 8
/-- The core state section, whose layout is the model's (log 12): S, R and whether A is nonzero, with the launch id, for each
launch of the core; from byte 0x80 on the exhaust count and the counts of requests out and packets held. -/
def State.coreState (s : State) (l : Launch) (c : Nat) : List Byte :=
  let ni := (s.core c).ni
  let set := s.coreSet l c
  ((List.range 8).map fun k => match set[k]? with
    | some i =>
      let n := mget ({} : Count) ni.counts i.toNat
      wordBytes (wd (n.s.toNat * 2 ^ 32 + n.r.toNat)) ++ wordBytes (wd (i.toNat * 2 ^ 32 + b2n (s.coreActive c i)))
    | none => List.replicate 16 0).flatten ++
  ([ni.exh.toNat, ni.outs.length, ni.kept.length].map fun n => wordBytes (wd n)).flatten
/-- A directory entry in an image, with the launch tags of its location (R306), as places in the core state section: those of the
resident frame and of the spilled one. They stand in the low bits of SPA, which the entry's own place gives (log 12). -/
def State.imageDir (s : State) (l : Launch) (c i : Nat) : Word :=
  let d := (s.core c).dir ((s.core c).fr.base + i)
  let v := s.dirWord c i
  let at_ := fun (b : Bool) (x : BitVec 32) => if b then (s.coreSet l c).idxOf x % 8 else 0
  (v &&& ~~~0x3fff#64) ||| wd (b2n (bits v 13 0 ≠ 0) * 64 + at_ d.spilled d.slid * 8 + at_ d.alloc d.lid)
/-- The sections of a core block: offset and bytes. The owner words stand here alone, at 0x900: R50 gives them no offset in the core's
window, and R205 does not say by what access the debugger reads one (log 45). -/
def State.blockOf (s : State) (l : Launch) (c : Nat) : List (Nat × List Byte) :=
  let x := s.core c
  let rows := x.rows
  let area := (x.tokens.filterMap (·.place)).map (x.areaAt l)
  [(0, s.coreState l c), (0xc00, ((x.byBank.take 64).map fun d => ((deferWords (l.imageCore c) (s.imageForm l) d).map wordBytes).flatten).flatten),
   (0x1400, (x.inCore.zipIdx.map fun t => s.tokenBytes l t.1 t.2).flatten),
   (0x2400, (x.hold.zipIdx.map fun t => s.tokenBytes l t.1 (256 + t.2)).flatten),
   (0x2500, ((x.ni.kept.take 64).zipIdx.map fun p => s.imageRecord l p.1 p.2).flatten),
   (0x100, (List.range 2048).map fun k => BitVec.ofNat 8 (((List.range 8).map fun j => b2n (mget false x.touched (8 * k + j)) * 2 ^ j).sum)),
   (0x900, wordsAt 8 fun n => mget 0 x.owner n), (0x940, wordsAt 16 fun n => mget 0 x.fmt n), (0x9c0, wordsAt 32 fun n => mget 0 x.win n),
   (0xac0, x.ctrBytes l.sid), (0x8500, wordsAt 3200 fun n => (s.lsWinRead c false (8 * n)).getD 0),
   (0xe900, wordsAt 3200 fun n => (s.lsWinRead c true (8 * n)).getD 0), (0x18000, x.tagBytes 0 131072),
   (0x20000, wordsAt 8192 fun n => s.imageDir l c n), (0x30000, readMap x.acc 0 0x8000)] ++
  rows.map fun r => (0x40000 + rowOff r, wordsAt 8 fun k =>
    let v := x.scrWord (rowOff r + 8 * k)
    if x.isPtr (rowOff r / 8 + k) || area.contains (rowOff r + 8 * k) then s.imageForm l v else v)
/-- Write a core block: unused entries of its sections are zero. -/
def State.blockWrite (s : State) (l : Launch) (a c : Nat) : State :=
  let zero := [(0, 256), (0xc00, 2048), (0x1400, 4352), (0x2500, 24576)]
  let s' := s.each zero fun s q => s.pwrite (a + q.1) (whole (List.replicate q.2 0))
  { s'.each (s.blockOf l c) fun s q => s.pwrite (a + q.1) (whole q.2) with free := s.free + 272 }
/-- The requests parked at slices, those behind others included: each with its slice and its ticket, 0 where it has none. -/
def State.parkedOf (s : State) (f : Packet → Bool) : List (Nat × Nat × Packet) :=
  (s.slices.map fun q => ((q.2.parked.map fun k => (k.ticket, k.pkt) :: k.behind.map fun b => (0, b.1)).flatten.filter fun k => f k.2).map
    fun k => (q.1, k)).flatten
def Launch.groups (l : Launch) : List Nat := nub (l.cores.map groupOf)
def up64 (n : Nat) : Nat := (n + 63) / 64 * 64
/-- Where the launch list of an image lies, and where its inboxes, from the image's base. -/
def Launch.listAt (l : Launch) : Nat := up64 (0x100 + l.width * l.height * blockLen + l.groups.length * 4160)
def Launch.boxAt (l : Launch) (n : Nat) : Nat := up64 (l.listAt + 16 * n)
/-- The header, the core blocks, the donation section, the launch list and the inboxes, at `dst_img`. -/
def State.imageWrite (s : State) (l : Launch) : State :=
  let base := bits s.dist.img 42 20 * 2 ^ 20
  let set := sortBy (fun (a b : Launch) => a.depth < b.depth || (a.depth = b.depth && a.lid ≤ b.lid)) ((s.waveSet l.lid).map s.launch)
  let don := 0x100 + l.width * l.height * blockLen
  let list := l.listAt
  let box := l.boxAt set.length
  let mine := fun (p : Packet) => p.src.port = 0 && p.src.pkg = s.pkg && l.inRect p.src.core.toNat && set.any fun m => m.lid = p.lid
  let npark := (s.parkedOf mine).length
  let hdr := fun (k : Nat) => match k with
    | 0 => wd (l.lid.toNat * 2 ^ 32 + l.sid.toNat * 2 ^ 16 + l.lw * 2 ^ 11 + l.lh * 2 ^ 8 + bits (l.w 14) 41 41 * 2 ^ 7)
    | 1 => wd (s.pkg.toNat * 2 ^ 46 + l.ox * 2 ^ 6 + l.oy)
    | 10 => wd (set.length * 2 ^ 32 + npark)
    | 11 => wd list
    | k => if 2 ≤ k && k ≤ 9 then ((set[k - 2]?).map Launch.desc).getD 0 else 0
  let isz := bits s.dist.img 15 0 * 1024
  let s := s.pwrite base (whole (wordsAt 32 hdr))
  let s := s.each l.cores.zipIdx fun s q => s.blockWrite l (base + 0x100 + q.2 * blockLen) q.1
  let s := s.each l.groups.zipIdx fun s q =>
    let ts := (((s.unit q.1).deques.filter fun d => set.any fun m => m.lid = d.1).map (·.2)).flatten
    s.pwrite (base + don + q.2 * 4160) (whole (natLe 64 ts.length ++ (ts.map tcbBytes).flatten))
  let ents := (set.map fun m => wordBytes (wd (m.lid.toNat * 2 ^ 32 + m.depth)) ++ wordBytes m.desc).flatten
  let s := s.pwrite (base + list) (whole (ents ++ List.replicate (box - list - ents.length) 0))
  s.each l.cores.zipIdx fun s q =>
    s.pwrite (base + box + q.2 * isz) (whole (((s.core q.1).inbox.zipIdx.map fun p => s.imageRecord l p.1 p.2).flatten.take isz))
/-- A core that holds no state of a launch: its inbox, generations and power-up time stay; counters of the space are clear. -/
def Core.cleared (x : Core) (sid : Half) : Core :=
  let mine := ctrOf x sid
  { upAt := x.upAt, woken := x.woken, lastSid := x.lastSid, ni := { exhAt := x.ni.exhAt }, inbox := x.inbox, frozen := true, stopped := true,
    ctr := x.ctr.filter (fun p => !mine.contains p.1), ctrCfg := x.ctrCfg.filter (fun p => !mine.contains p.1),
    fr := { gens := x.fr.dir.foldl (fun m p => mput p.1 (p.2.gen, p.2.sgen) m) x.fr.gens } }
/-- What a donation unit holds for launches, or without them. -/
def DonUnit.only (u : DonUnit) (f : BitVec 32 → Bool) : DonUnit :=
  { u with deques := u.deques.filter (fun d => f d.1), pushes := u.pushes.filter (fun p => f p.lid), stealing := u.stealing.filter (fun x => f x.1),
           waits := u.waits.filter (fun x => f x.1), counts := u.counts.filter (fun p => f (BitVec.ofNat 32 p.1)) }
/-- Readout (R331 phase 4). -/
def State.readout (s : State) (lid : BitVec 32) : State :=
  let l := s.launch lid
  let set := s.waveSet lid
  let img : Image := { lid := lid, boxAt := bits s.dist.img 42 20 * 2 ^ 20 + l.boxAt set.length, boxLen := bits s.dist.img 15 0 * 1024, cores := l.cores.zipIdx.map fun q => (q.2, { s.core q.1 with inbox := [] }),
                       units := l.groups.zipIdx.map fun q => (q.2, (s.unit q.1).only set.contains) }
  let s := s.imageWrite l
  let s := s.each l.cores fun s c => s.modCore c fun x => x.cleared l.sid
  let s := s.each l.groups fun s g => s.modUnit g fun u => u.only fun i => !set.contains i
  (s.each set fun s m => s.modLaunch m fun x => { x with frozen := .image }).modDist fun d => { d with images := d.images ++ [img] }

/-! Restoring (R335). -/

/-- The sections of a core block, read back over what the image keeps beside them. -/
def State.fromBlock (s : State) (l : Launch) (o : Nat × Nat) (a : Nat) (x : Core) : Core :=
  let byte := fun k => Memory.read s.mem (a + k)
  let word := fun k => s.pword (a + k)
  let rows := (List.range 16384).filter fun r => (byte (0x100 + r / 8)).toNat.testBit (r % 8)
  let ws := (rows.map fun r => (List.range 8).map fun k => rowOff r / 8 + k).flatten
  let tag := fun w b => (byte (0x18000 + w / 4)).toNat.testBit (2 * (w % 4) + b)
  let data := fun w => let v := word (0x40000 + 8 * w); if tag w 1 then fromImage s.pkg l o v else v
  let scr := ws.foldl (fun m w => writeMap m (8 * w) (whole (wordBytes (data w)))) []
  let area := fun (j : Nat) => x.areaAt l j
  let entry := fun (k : Nat) => (fromImage s.pkg l o (word (0x1400 + 16 * k)), (word (0x1408 + 16 * k)).extractLsb' 0 32)
  let tok := fun (p : Option Nat) (k : Nat) => match p with
    | some j => (fromImage s.pkg l o (bytesWord (readMap scr (area j) 8)), BitVec.ofNat 32 (leNat (readMap scr (area j + 8) 4)))
    | none => entry k
  let scr := (x.tokens.filterMap (·.place)).foldl (fun m j => writeMap m (area j) (whole (wordBytes (tok (some j) 0).1))) scr
  let row := fun (n off : Nat) => (List.range n).foldl (fun m k => mset 0 k (word (off + 8 * k)) m) ([] : Map Word)
  let tagged := fun (b : Bool) (k : Nat) (old : BitVec 32) => if b then (word (16 * k + 8)).extractLsb' 32 32 else old
  let dir := fun (p : Nat × FDir) =>
    let i := p.1 - x.fr.base
    let v := word (0x20000 + 8 * i)
    (p.1, { p.2 with alloc := bitOf v 63, spilled := bitOf v 62, refill := bitOf v 61, pin := bitOf v 60, gen := v.extractLsb' 49 8,
                     sgen := v.extractLsb' 41 8, lid := tagged (bitOf v 63) (bits v 2 0) p.2.lid, slid := tagged (bitOf v 62) (bits v 5 3) p.2.slid,
                     spa := ((v &&& ~~~0x3fff#64) ||| wd (if bitOf v 6 then 2 * i else 0)).extractLsb' 0 39 })
  let ls := fun (y : LsCore) (off : Nat) => { y with
    imem := writeMap [] 0 (whole (s.pread (a + off) 0x4000)), dmem := writeMap [] 0 (whole (s.pread (a + off + 0x4000) 0x2000)),
    x := (List.range 31).foldl (fun m k => mset 0 (k + 1) (word (off + 0x6008 + 8 * k)) m) [], pc := word (off + 0x6100),
    frozen := false, waiting := none }
  { x with
    scr := scr, ready := setReady tok 0 [0, 1, 2, 3] x.ready, hold := (setTokens (fun _ k => entry (256 + k)) 0 x.hold).1,
    defer := x.byBank.zipIdx.map fun d => if 64 ≤ d.2 then d.1
      else setDeferred d.1 (word (0xc00 + 32 * d.2)) (fromImage s.pkg l o (word (0xc08 + 32 * d.2))) (word (0xc10 + 32 * d.2)),
    ni := { x.ni with exh := (word 0x80).extractLsb' 0 32, counts := (List.range 8).foldl (fun m k =>
      let i := bits (word (16 * k + 8)) 63 32
      if mhas m i then mput i { (mget ({} : Count) m i) with s := (word (16 * k)).extractLsb' 32 32, r := (word (16 * k)).extractLsb' 0 32 } m else m) x.ni.counts },
    empty := ws.foldl (fun m w => mset false w (!tag w 0) m) [], ptr := ws.foldl (fun m w => mset false w (tag w 1) m) [],
    touched := rows.foldl (fun m r => mset false r true m) [], acc := writeMap [] 0 (whole (s.pread (a + 0x30000) 0x8000)),
    owner := row 8 0x900, fmt := row 16 0x940, win := row 32 0x9c0, loader := ls x.loader 0x8500, storer := ls x.storer 0xe900,
    fr := { x.fr with dir := x.fr.dir.map dir } }
/-- The packets held at a network interface, from their records. -/
def State.keptBack (s : State) (l : Launch) (o : Nat × Nat) (a : Nat) (was : Core) (x : Core) : Core :=
  let back := fun (k : Nat) (p : Packet) => if 64 ≤ k then p
    else p.fromRecord s.pkg l o (((was.ni.kept[k]?).map fun q => s.imageRecord l q k).getD []) (s.pread (a + 0x2500 + 384 * k) 384)
  let n := x.ni.held.length
  let m := n + x.ni.retry.length
  { x with ni := { x.ni with held := x.ni.held.zipIdx.map fun h => { h.1 with pkt := back h.2 h.1.pkt },
                             retry := x.ni.retry.zipIdx.map fun h => { h.1 with pkt := back (n + h.2) h.1.pkt },
                             enqBuf := x.ni.enqBuf.zipIdx.map fun h => { h.1 with pkt := back (m + h.2) h.1.pkt } } }
/-- The channel states, transfer descriptors and slot counts of a register block that stand otherwise in the image than the core
holds them are written (R107). -/
def State.chansBack (s : State) (c a : Nat) : State :=
  s.each [false, true] fun s st => s.each ((List.range 52).map fun k => 0x6110 + 8 * k) fun s off =>
    let v := s.pword (a + (if st then 0xe900 else 0x8500) + off)
    match s.lsWinRead c st off with
    | some w => if w = v then s else s.lsWinWrite c st off v
    | none => s
/-- The task control blocks of a donation section. -/
def State.tcbsBack (s : State) (a : Nat) (u : DonUnit) : List Tcb :=
  let old := (u.deques.map (·.2)).flatten
  (List.range (min 64 (leNat (s.pread a 8)))).map fun k => tcbOf old[k]? (s.pread (a + 64 + 64 * k) 64)
/-- The counters of a block's counter section take their numbers on the new core. -/
def State.ctrBack (s : State) (a : Nat) (sid : Half) (x : Core) : Core :=
  (List.range 16).foldl (fun x n =>
    let cfg := wd (leNat (s.pread (a + 0xb40 + 4 * n) 4))
    if cfg ≠ 0 && bits cfg 23 8 = sid.toNat then
      { x with ctr := mset 0 n (s.pword (a + 0xac0 + 8 * n)) x.ctr, ctrCfg := mset 0 n cfg x.ctrCfg } else x) x
/-- A restored core in place of what the new core held: that core's own history, inbox and other generations stay. -/
def Core.inPlaceOf (x y : Core) : Core :=
  { x with upAt := y.upAt, woken := false, inbox := y.inbox, inq := y.inq, due := y.due, ctr := y.ctr, ctrCfg := y.ctrCfg, frozen := true, stopped := true,
           fwdTo := none, forwarded := false, lines := [], ni := { x.ni with exhAt := y.ni.exhAt },
           fr := { x.fr with gens := y.fr.dir.foldl (fun m p => mput p.1 (p.2.gen, p.2.sgen) m) y.fr.gens } }
/-- Bytes that the device itself reads in a space, as its slices hold them; none where they cannot be reached. -/
def State.devRead (s : State) (src : Node) (art : Launch) (l : Launch) (a : Word) (n : Nat) : Option (List Byte) × State :=
  match s.atOnce art (mkPkt src src l.sid l.lid 0 0 0 (.read a n .data .none)) with
  | (none, s) => (none, s)
  | (some pcs, s) => (some (s.vread (fun v => sliceOf art (wd v)) l.sid pcs a.toNat n), s)
/-- Step 1: the fields of the identity registers, the slack table, the ART and the endpoint records from DESC; the shape and
PIN are the image's. Where a read fails the launch ends faulted (log 39). -/
def State.reload (s : State) (lid : BitVec 32) : State :=
  let l := s.launch lid
  let art := s.ioArt l.sid
  match s.devRead (ioNode s.pkg) art l l.desc 128 with
  | (none, s) => s.failLaunch lid
  | (some bs, s) =>
    let ws := bytesWords bs
    let shape : Word := 0x003f020000000000#64
    let new := { l with ws := l.ws.zipIdx.map fun q =>
      if q.2 = 14 then (ws.getD 14 0 &&& ~~~shape) ||| (q.1 &&& shape) else if [5, 6, 10, 13].contains q.2 then ws.getD q.2 0 else q.1 }
    let s := s.modLaunch lid fun _ => new
    s.each (new.pointers.filter fun p => [5, 6, 10].contains p.1) fun s p =>
      match s.devRead (ioNode s.pkg) art l (new.w p.1) p.2 with
      | (none, s) => s.failLaunch lid
      | (some bs, s) => s.modLaunch lid fun x => { x with imgs := mput p.1 (writeMap [] 0 (whole bs)) x.imgs }
/-- Step 4: a spilled record moves to the address R122 gives for the new core; where it cannot be reached the launch fails. -/
def State.moveRecord (s : State) (l : Launch) (old new u : Nat) : State :=
  let n := frameSize ((s.core new).dir u).cls.toNat
  let len := n + n / 32
  let b := s.spillAddr new u
  let a := b - wd (new * 2 ^ 20) + wd (old * 2 ^ 20)
  let hm := fun v => sliceOf l (wd v)
  let p := fun body => mkPkt (ioNode s.pkg) (ioNode s.pkg) l.sid l.lid 0 0 0 body
  match s.atOnce l (p (.read a len .data .none)) with
  | (none, s) => s.failLaunch l.lid
  | (some pa, s) =>
    let bs := s.vread hm l.sid pa a.toNat len
    match s.atOnce l (p (.write b (whole bs) .none)) with
    | (none, s) => s.failLaunch l.lid
    | (some pb, s) => (s.vwrite hm l.sid pb b.toNat (whole bs)).modDir new u fun d => { d with spa := b.extractLsb' 6 39 }
/-- The donation section goes to the groups of the new rectangle; a TCB that finds its unit full runs on a core (R272). -/
def State.unitBack (s : State) (n c : Nat) (u : DonUnit) (ts : List Tcb) : State :=
  let s := s.modUnit n fun v => { v with
    stealing := v.stealing ++ u.stealing, waits := v.waits ++ u.waits, counts := u.counts.foldl (fun m (p : Nat × Count) => mput p.1 p.2 m) v.counts,
    pushes := v.pushes ++ u.pushes.map fun p => { p with src := coreNode s c } }
  s.each ts fun s t => s.pushTcb n c t
/-- Binding restarts on a core (R335 step 6). -/
def Core.restart (x : Core) : Core :=
  { x with frozen := false, stopped := false, park := false, loader := { x.loader with frozen := false, waiting := none },
           storer := { x.storer with frozen := false, waiting := none } }
/-- The launches of a wave run again. -/
def State.runAgain (s : State) (set : List (BitVec 32)) : State :=
  s.each set fun s m => s.modLaunch m fun x =>
    { x with frozen := .no, hung := false, waitMapped := false, reserved := none, busyAt := s.acyc, lastS := none, lastIdle := false }
/-- The steps of R335 on every core of the target, as one. -/
def State.restoreOn (s : State) (lid : BitVec 32) : State :=
  let l := s.launch lid
  match s.dist.images.find? (fun i => i.lid = lid), l.reserved with
  | some im, some o =>
    let news := rectCores o.1 o.2 l.width l.height
    let m := l.cores.zip news
    let set := s.waveSet lid
    let base := bits s.dist.img 42 20 * 2 ^ 20 + 0x100
    let s := s.each set State.reload
    let outs := (im.cores.map fun q => q.2.ni.outs.map (·.id)).flatten
    let s := s.each m.zipIdx fun s q =>
      let a := base + q.2 * blockLen
      let was := mget ({} : Core) im.cores q.2
      let x := s.keptBack l o a was (s.fromBlock l o a (was.moved s.pkg m))
      s.modCore q.1.2 fun y => s.ctrBack a l.sid (x.inPlaceOf y)
    let s := s.each ((s.launches.filter fun x => x.root = lid && (x.live || x.awaits)).map (·.lid)) fun s i =>
      s.modLaunch i fun x => { x with ox := x.ox + o.1 - l.ox, oy := x.oy + o.2 - l.oy }
    let s := s.each (s.launches.filter fun x => x.parent.any set.contains) fun s x => s.modLaunch x.lid fun y =>
      { y with pcore := movedCore m y.pcore, pfp := movedFp s.pkg m y.pfp }
    let s := s.modDist fun d => { d with held := d.held.map fun h => if set.contains h.lid then { h with core := movedCore m h.core } else h }
    let s := s.each (nub (news.map groupOf)).zipIdx fun s q =>
      let u := mget ({} : DonUnit) im.units q.2
      s.unitBack q.1 ((news.find? fun c => groupOf c = q.1).getD 0) u (s.tcbsBack (base + l.width * l.height * blockLen + q.2 * 4160) u)
    let s := s.each news.zipIdx fun s q => s.chansBack q.1 (base + q.2 * blockLen)
    let s := s.each news fun s c => s.modCore c fun x => { x with chans := x.chans.map fun (p : Nat × Chan) => (p.1, { p.2 with x := s.ringSide c p.2.x }) }
    let s := s.each m fun s q => s.each (((s.core q.2).fr.dir.filter fun p => p.2.spilled).map (·.1)) fun s u => s.moveRecord l q.1 q.2 u
    let box := base - 0x100 + l.boxAt set.length
    let isz := bits s.dist.img 15 0 * 1024
    let boxes := m.zipIdx.map fun q => (q.1.2, (s.core q.1.1).inbox.zipIdx.map fun p =>
      let r := movedPkt s.pkg m p.1
      if 384 * (p.2 + 1) ≤ isz then r.fromRecord s.pkg l o (s.imageRecord l p.1 p.2) (s.pread (box + q.2 * isz + 384 * p.2) 384) else r)
    let s := s.each m fun s q => s.modCore q.1 fun x => { x with inbox := [], fwdTo := if q.1 = q.2 then none else some q.2 }
    let s := s.each boxes fun s q => s.applyAll q.1 q.2
    let s := ((s.each news fun s c => s.modCore c Core.restart).runAgain set).powerRecompute
    (s.noteUse l.cores).modDist fun d => { d with images := d.images.filter (fun i => i.lid ≠ lid), waves :=
      if o = (l.ox, l.oy) then d.waves else d.waves ++ [{ op := 3, lid := lid, stopAt := s.acyc, outs := outs, oldCores := m }] }
  | _, _ => s

end Sys2Proof.Machine
end

