-- ==== Sys2Proof/Machine/Wave.lean ====
section
/-! DEFINITION. Wave.lean: placement decisions, restores among them (R302, R335), wakes and zeroisation (R311, R353), the Dusk
wave, freeze and thaw (R330-R332), old rectangles (R335), hangs and the wait map (R336, R337), the debugger (R338-R340). -/

namespace Sys2Proof.Machine

/-! Decisions (R302-R304, R335). -/

/-- The free rectangle a restore would take: with PIN the old one, else any that is free but for the launch itself. -/
def State.restoreRect (s : State) (l : Launch) : Option (Nat × Nat) :=
  let w := l.width
  let h := l.height
  let free := fun (o : Nat × Nat) => (rectCores o.1 o.2 w h).all (fun c => !s.takenBut l.lid c) &&
    !((s.reservedBy l).any fun r => meets (o.1, o.2, w, h) r)
  if bitOf (l.w 14) 41 then some (l.ox, l.oy) else bestRect (s.prefers w h) ((origins w h).filter free)
/-- The first restore of a priority, by submission, that has a rectangle. -/
def State.restoreReady (s : State) (p : Nat) : Option (BitVec 32 × (Nat × Nat)) :=
  (sortBy (fun (a b : Launch) => a.seq ≤ b.seq) (s.launches.filter fun l =>
    l.frozen = .restoring && !l.nested && !l.faulted && l.reserved.isNone && l.prio = p)).findSome? fun l =>
      (s.restoreRect l).map fun o => (l.lid, o)
/-- A restore goes on as far as it can: the wake, zeroisation, the cores (R311, R335, R353). -/
def State.advanceRestore (s : State) (lid : BitVec 32) : State :=
  let l := s.launch lid
  if l.faulted || l.goal.any (fun c => s.sgpOff (sgpOf c)) || l.zeroAt ≠ 0 then s
  else if l.goal.any fun c => (s.core c).unclean l.sid then s.modLaunch lid fun l => { l with zeroAt := s.acyc + 2048 }
  else (s.restoreOn lid).waveOver lid
/-- A restore has its target. -/
def State.placeRestore (s : State) (lid : BitVec 32) (o : Nat × Nat) : State :=
  let cost := s.wakeCost o (s.launch lid).width (s.launch lid).height
  (s.modLaunch lid fun l => { l with reserved := some o, wakeAt := s.acyc + cost, zeroAt := 0 }).advanceRestore lid
/-- One decision: reserving requests, then by priority, a restore ahead of the queues of its priority. -/
def State.decide (s : State) : State :=
  match s.reservedReady with
  | some (lid, o) => s.place lid o false
  | none =>
    (([7, 6, 5, 4, 3, 2, 1, 0].findSome? fun p => match s.restoreReady p, s.scan p with
      | some (lid, o), _ => some (s.placeRestore lid o)
      | none, some (q, lid, o, nested) => some ((s.useTurn p q).place lid o nested)
      | none, none => none)).getD s
/-- PLACEMENT_DECISION (R302): every 32 A-cycles. -/
def execPlacementDecision (s : State) : Out :=
  if s.acyc < s.dist.decideAt then .next s else .next (s.decide.modDist fun d => { d with decideAt := s.acyc + 32 })
/-- WAKE_COMPLETE (R311). -/
def execWakeComplete (lid : BitVec 32) (s : State) : Out :=
  let l := s.launch lid
  let back := l.frozen = .restoring && l.reserved.isSome
  if s.hasLaunch lid && (l.phase = .placing || l.phase = .waking || back) && l.wakeAt ≤ s.acyc then
    let s := s.powerUp l.goal
    .next (if l.phase = .waking then s.advance lid else if back then s.advanceRestore lid else s)
  else .next s
/-- ZEROISATION_COMPLETE (R353): after 2,048 A-cycles. -/
def execZeroisationComplete (lid : BitVec 32) (s : State) : Out :=
  let l := s.launch lid
  let back := l.frozen = .restoring && l.reserved.isSome && l.zeroAt ≠ 0
  if (l.phase ≠ .zeroing && !back) || s.acyc < l.zeroAt || l.faulted then .next s
  else
    let s := s.each l.goal fun s c => if (s.core c).unclean l.sid then s.modCore c Core.zeroise else s
    .next (if back then (s.modLaunch lid fun l => { l with zeroAt := 0 }).advanceRestore lid else s.loadLaunch lid)

/-! `dst_frz` (R330, R331). -/

/-- Stop (R331 phase 1): binding, the loader and storer cores, new beats; packets go to the inbox. -/
def Core.stopAll (x : Core) : Core :=
  { x with stopped := true, park := true, frozen := true, loader := { x.loader with frozen := x.loader.present },
           storer := { x.storer with frozen := x.storer.present } }
def State.stopWave (s : State) (op : Nat) (lid : BitVec 32) (hung : Bool) : State :=
  let l := s.launch lid
  let s := s.each (s.waveSet lid) fun s m => s.modLaunch m fun x => { x with frozen := .stopping, hung := hung, waitMapped := false }
  (s.each l.cores fun s c => s.modCore c Core.stopAll).modDist fun d =>
    { d with frz := d.frz ||| 0x4000000000000000#64, wave := some { op := op, lid := lid, stopAt := s.acyc } }
/-- May OP 0 or 1 name the launch? -/
def State.canFreeze (s : State) (lid : BitVec 32) : Bool :=
  let l := s.launch lid
  s.hasLaunch lid && l.phase = .resident && !l.nested && l.frozen = .no && s.dist.wave.isNone &&
    l.cores.all fun c => (s.core c).lids.all fun m => (s.launch m).root = lid
/-- Thaw (R335 steps 5 and 6). -/
def State.thawLaunch (s : State) (lid : BitVec 32) : State :=
  let l := s.launch lid
  if !s.hasLaunch lid || l.frozen ≠ .inPlace || l.nested then s
  else
    let s := s.each l.cores fun s c => s.modCore c fun x => { x with frozen := false }
    let s := s.each l.cores fun s c => s.applyInbox c
    (s.each l.cores fun s c => s.modCore c Core.restart).runAgain (s.waveSet lid)
/-- OP 3: the launch waits for a rectangle; BUSY stays until it is restored. -/
def State.startRestore (s : State) (lid : BitVec 32) : State :=
  let l := s.launch lid
  if !s.hasLaunch lid || l.frozen ≠ .image || l.nested then s
  else (s.each (s.waveSet lid) fun s m => s.modLaunch m fun x => { x with frozen := .restoring, reserved := none, zeroAt := 0 }).modDist fun d =>
    { d with frz := d.frz ||| 0x4000000000000000#64 }
/-- A write of `dst_frz` (R330). -/
def State.frzWrite (s : State) (v : Word) : State :=
  let busy := bitOf s.dist.frz 62
  if bitOf v 63 && busy then s
  else
    let s := s.modDist fun d => { d with frz := (v &&& 0xb0000000ffffffff#64) ||| (d.frz &&& 0x4000000000000000#64) }
    let lid : BitVec 32 := v.extractLsb' 0 32
    if !bitOf v 63 then s
    else match bits v 61 60 with
      | 2 => s.thawLaunch lid
      | 3 => s.startRestore lid
      | op => if s.canFreeze lid then s.stopWave op lid false else s
/-- A write with GO of an operation on a launch. -/
def frzWord (op : Nat) (lid : BitVec 32) : Word := wd (2 ^ 63 + op * 2 ^ 60 + lid.toNat)
/-- DUSK_WAVE (R331). -/
def execDuskWave (p : Party) (lid : BitVec 32) (s : State) : Out := .next (s.ownerWrite p fun s => s.frzWrite (frzWord 0 lid))
/-- FREEZE_IN_PLACE (R330). -/
def execFreezeInPlace (p : Party) (lid : BitVec 32) (s : State) : Out := .next (s.ownerWrite p fun s => s.frzWrite (frzWord 1 lid))
/-- THAW (R335). -/
def execThaw (p : Party) (lid : BitVec 32) (s : State) : Out := .next (s.ownerWrite p fun s => s.frzWrite (frzWord 2 lid))
/-- RESTORE (R335). -/
def execRestore (p : Party) (lid : BitVec 32) (s : State) : Out := .next (s.ownerWrite p fun s => s.frzWrite (frzWord 3 lid))

/-! The drain (R331 phase 3). -/

/-- Does an outstanding request stand still: its reply, or the request itself, in an inbox; held; deferred or waiting to be
tried again; parked at a slice? -/
def State.standsStill (s : State) (cs : List Nat) (c id : Nat) : Bool :=
  let is := fun (p : Packet) => p.id = id
  cs.any (fun d => (s.core d).inbox.any is) || (s.core c).ni.held.any (fun h => is h.pkt) ||
    s.cores.any (fun q => q.2.defer.any (fun d => is d.pkt) || q.2.ni.retry.any fun r => is r.pkt) ||
    s.slices.any (fun q => q.2.parked.any fun k => k.all.any is)
/-- Is a refill at a step it could still take: to start, to read its record, or to install it (R124)? -/
def State.refillGoes (s : State) (c : Nat) (r : Refill) : Bool :=
  let d := (s.core c).dir r.u
  if !r.started then s.refillFree c r
  else if !r.reading then mget 0 (s.core c).fr.fwds r.u = 0
  else r.need = 0 && (!d.alloc || s.idleFrame c r.u)
/-- Has a core drained? A beat or a copy is no request of its own. -/
def State.drained (s : State) (cs : List Nat) (c : Nat) : Bool :=
  let x := s.core c
  !(x.ctxs.any fun p => p.2.bound) && !(x.fr.refills.any (s.refillGoes c)) && x.inq.isEmpty && x.mq.isEmpty && x.mdone.isEmpty &&
    x.ni.outs.all fun o => o.beat || x.copyQ.any (fun t => t.id = o.id) || s.standsStill cs c o.id
/-- Has a donation unit drained? A steal under way stands in an inbox. -/
def State.unitDrained (s : State) (cs : List Nat) (set : List (BitVec 32)) (g : Nat) : Bool :=
  let u := s.unit g
  !(u.pushes.any fun p => set.contains p.lid) && !((u.stealIn ++ u.replies).any fun p => set.contains p.lid) &&
    u.stealing.all fun x => !set.contains x.1 || cs.any fun c => (s.core c).inbox.any fun p =>
      p.lid = x.1 && isSteal p.body && (groupOf p.src.core.toNat = g || groupOf p.dst.core.toNat = g)
/-- WAVE_DRAIN_COMPLETE (R331): the drain ends; OP 0 reads out, OP 1 leaves the launch frozen in place. -/
def execWaveDrainComplete (s : State) : Out :=
  match s.dist.wave with
  | none => .next s
  | some w =>
    let l := s.launch w.lid
    let set := s.waveSet w.lid
    if l.frozen ≠ .stopping || !(l.cores.all (s.drained l.cores)) || !(l.groups.all (s.unitDrained l.cores set)) then .next s
    else if w.op = 0 then .next ((s.readout w.lid).waveOver w.lid)
    else .next ((s.each set fun s m => s.modLaunch m fun x => { x with frozen := .inPlace }).waveOver w.lid)
/-- WAVE_FAILURE (R331): a threadlet is still bound 2^LHANG A-cycles after the stop: a WAVE record, and the launch ends
faulted. -/
def execWaveFailure (s : State) : Out :=
  match s.dist.wave with
  | none => .next s
  | some w =>
    let l := s.launch w.lid
    let bound := l.cores.any fun c => (s.core c).ctxs.any fun p => p.2.bound
    if l.frozen = .stopping && bound && w.stopAt + 2 ^ l.lhang ≤ s.acyc then
      .next (((s.record (mkRec 26 0 l.sid l.lid (ioNode s.pkg) 0 0)).failLaunch w.lid).waveOver w.lid)
    else .next s
/-- RESTORE_FORWARD (R335): an old core sends a packet of the launch's space on to its new counterpart, relocated under
R334; another space's takes its place at the old core. -/
def execRestoreForward (core : Nat) (s : State) : Out :=
  needCore core <|
  match s.dist.waves.find? (fun w => w.oldCores.any fun q => q.1 = core), (s.core core).inbox with
  | some w, p :: rest =>
    let s := s.modCore core fun x => { x with inbox := rest }
    if p.sid = (s.launch w.lid).sid then
      .next ((s.modCore core fun x => { x with forwarded := true }).modRouter core fun r =>
        { r with merge := r.merge ++ [(0, movedPkt s.pkg w.oldCores p)] })
    else .next (s.toNi core p)
  | _, _ => .next s

/-! Hangs (R336, R337). -/

/-- The words of the spill record of the frame at a location, as its slices hold them; none where they cannot be reached. -/
def State.recordBytes (s : State) (c u : Nat) : List Byte :=
  let d := (s.core c).dir u
  ((s.devRead (coreNode s c) (s.env c) (s.launch d.slid) (s.spillAddr c u) (frameSize d.cls.toNat)).1).getD []
/-- Kind 1: the armed slots of a core's frames, resident or spilled. -/
def State.armedSlots (s : State) (set : List (BitVec 32)) (c : Nat) : List (List Word) :=
  let x := s.core c
  let slots := fun (f : Word) (word : Nat → Word) => (List.range (frameWords (fpCls f))).filterMap fun w =>
    let v := word w
    if bitOf v 47 && bits v 44 32 = 0 then some [wd (1 * 2 ^ 56 + w * 2 ^ 16 + c), f, v, 0] else none
  (x.fr.dir.map fun p =>
    (if p.2.alloc && set.contains p.2.lid then slots (s.residentFp c p.1) fun w => x.scrWord (64 * p.1 + 8 * w) else []) ++
    (if p.2.spilled && set.contains p.2.slid then
      let bs := s.recordBytes c p.1
      slots (mkFp s.pkg c p.1 p.2.sgen p.2.cls.toNat) fun w => bytesWord ((bs.drop (8 * w)).take 8)
    else [])).flatten
/-- Kind 2: a parked request of a slice, with its ticket; one behind another has none. -/
def parkedEnt (q : Nat × Nat × Packet) : List Word :=
  [wd (2 * 2 ^ 56 + q.2.1 * 2 ^ 12 + q.1), hdrW0 q.2.2, hdrW1 q.2.2, bodyAddr q.2.2.body]
/-- Kind 3: the deferred requests of a core's banks. -/
def State.deferEnts (s : State) (set : List (BitVec 32)) (c : Nat) : List (List Word) :=
  ((s.core c).defer.filter fun d => set.contains d.pkt.lid).map (deferWords c id)
/-- The rings of a core: those of which a tag has changed since the scratch was zeroised, those that transfers and slot counts
name, and those a loader or storer core waits at (R105). -/
def State.ringsOf (s : State) (c : Nat) : List Nat :=
  let x := s.core c
  let waits := [x.loader, x.storer].filterMap fun l => match l.waiting.map decodeRv32 with
    | some (.ok (.stgAcq _ a _)) => some (l.rx a).toNat
    | _ => none
  nub (x.rings ++ (x.chans.filterMap fun p => p.2.x.ring.map (·.1)) ++ (x.slotCnts.map fun p => p.2.rdesc) ++ waits)
/-- Kind 4: the stage tags of a core's rings that are not EMPTY. -/
def State.tagEnts (s : State) (c : Nat) : List (List Word) :=
  ((s.ringsOf c).map fun r => (List.range ((s.ring c r).nslot + 1)).filterMap fun k =>
    let t := s.slotTag c r k
    if t = 0 then none else some [wd (4 * 2 ^ 56 + k * 2 ^ 22 + t * 2 ^ 12 + c), wd r, 0, 0]).flatten
/-- Kind 5: a core's loader and storer cores that are not done. -/
def State.lsEnts (s : State) (c : Nat) : List (List Word) :=
  let x := s.core c
  [false, true].filterMap fun st => if x.lsBusy st then
    some [wd (5 * 2 ^ 56 + b2n st * 2 ^ 12 + c), (x.lsCore st).pc, ((x.lsCore st).waiting.getD 0).setWidth 64, 0] else none
/-- The entries of the wait map after its header, in R337's order. -/
def State.waitEntries (s : State) (l : Launch) (set : List (BitVec 32)) : List (List Word) :=
  let parked := sortBy (fun (a b : Nat × Nat × Packet) => a.1 < b.1 || (a.1 = b.1 && a.2.1 ≤ b.2.1)) (s.parkedOf fun p => set.contains p.lid)
  let from_ := fun (c : Nat) (q : Nat × Nat × Packet) => q.2.2.src.port = 0 && q.2.2.src.pkg = s.pkg && q.2.2.src.core.toNat = c
  (l.cores.map fun c => s.armedSlots set c ++ (parked.filter (from_ c)).map parkedEnt ++ s.deferEnts set c ++
    (if set.contains (s.env c).lid then s.tagEnts c ++ s.lsEnts c else [])).flatten ++
  (parked.filter fun q => !(l.cores.any fun c => from_ c q)).map parkedEnt
/-- Write the wait map at WBASE, as far as its capacity goes; answers the entries written after the header. -/
def State.waitMap (s : State) (l : Launch) (set : List (BitVec 32)) : Nat × State :=
  let e := s.logEntry l.sid.toNat
  let wbase := (s.pword (e + 40)).toNat
  let wcnt := bits (s.pword (e + 48)) 31 0
  if wcnt = 0 then (0, s)
  else
    let es := s.waitEntries l set
    let n := min es.length (wcnt - 1)
    (n, s.each ([wd n, wd l.lid.toNat, wd (es.length - n), 0] :: es.take n).zipIdx fun s q =>
      s.pwrite (wbase + 32 * q.2) (whole (q.1.map wordBytes).flatten))
/-- HANG_TIMEOUT (R336, R337): after 2^LHANG A-cycles without a report the launch is frozen in place; once that stands, the
wait map is written, HANG recorded, and the launch ends faulted unless HHOLD holds it. A nested launch cannot be frozen
(R330): its map is written at once. -/
def execHangTimeout (lid : BitVec 32) (s : State) : Out :=
  let l := s.launch lid
  let late := l.busyAt + 2 ^ l.lhang ≤ s.acyc
  if !s.hasLaunch lid || l.phase ≠ .resident || l.faulted || l.waitMapped then .next s
  else if !l.nested && l.frozen = .no then
    .next (if late && s.canFreeze lid && !bitOf s.dist.frz 62 then s.stopWave 1 lid true else s)
  else if (l.nested && l.frozen = .no && late) || (l.hung && l.frozen = .inPlace && !l.nested) then
    let r := s.waitMap l (if l.nested then [lid] else s.waveSet lid)
    let s := ((r.2.record (mkRec 25 0 l.sid lid (ioNode s.pkg) 0 (wd r.1))).notify 3 (wd lid.toNat)).modLaunch lid fun l => { l with waitMapped := true }
    .next (if s.debugged lid && bitOf s.dist.dbgCtl 60 then s else s.failLaunch lid)
  else .next s

/-! The debugger (R340). -/

/-- Move token n of a core's hold list to class 3 of its ready queue. -/
def State.releaseHeld (s : State) (c n : Nat) : State :=
  match (s.core c).hold[n]? with
  | none => s
  | some t => (s.modCore c fun x => { x with hold := x.hold.eraseIdx n }).queueToken c 3 t
/-- A loader or storer core halted at `ebreak` runs on from its pc. -/
def LsCore.go (l : LsCore) : LsCore := if l.halted then { l with halted := false, running := true } else l
/-- A write of `dbg_go`. R340 lets the owner write a wait map during a freeze in place and names no register for it: here a
write with bit 62 and not GO, for the launch of `dbg_ctl` (log 40). -/
def State.dbgWrite (s : State) (v : Word) : State :=
  let c := bits v 42 32
  let l := s.launch (s.dist.dbgCtl.extractLsb' 0 32)
  if !bitOf v 63 then
    if bitOf v 62 && s.debugged l.lid && s.hasLaunch l.lid && l.frozen = .inPlace then (s.waitMap l (s.waveSet l.lid)).2 else s
  else if bitOf v 12 then s.modCore c fun x => { x with loader := x.loader.go, storer := x.storer.go }
  else s.releaseHeld c (bits v 3 0)
/-- DBG_GO (R340). -/
def execDbgGo (p : Party) (v : Word) (s : State) : Out := .next (s.ownerWrite p fun s => s.dbgWrite (v &&& ~~~0x1000#64))
/-- DBG_GO_LOADER (R340). -/
def execDbgGoLoader (p : Party) (v : Word) (s : State) : Out := .next (s.ownerWrite p fun s => s.dbgWrite (v ||| 0x1000#64))

end Sys2Proof.Machine
end

