-- ==== Sys2Proof/Machine/HostLink.lean ====
section
/-! DEFINITION. HostLink.lean: what reaches the I/O die from the host and the BMC: ownership (R346-R349), the budget (R350),
Daybreak and attestation (R351, R352), retiring a space (R354), the registers (R355), apertures and ingress (R240,
R343-R345). -/

namespace Sys2Proof.Machine

/-! Who reaches the device (R351, R355). -/

def State.daybroken (s : State) : Bool := bitOf s.io.dbk 63
/-- May a party reach the registers: after Daybreak, a port through the window its link placed. -/
def State.linked (s : State) (p : Party) : Bool := s.daybroken && (p = .bmc || mhas s.io.trained (Party.code p))
/-- An access by any party (R348), or error status. -/
def State.anyParty (s : State) (p : Party) (k : State → State) : State :=
  let s := s.heard p
  if s.linked p then k (s.status false) else s.status true

/-! Ownership (R346, R347). -/

/-- What each change of owner does: debugging ends, every held token goes to class 3 of its ready queue. -/
def State.ownerChanged (s : State) : State :=
  let s := s.modDist fun d => { d with dbgCtl := d.dbgCtl &&& ~~~(1#64 <<< 63) }
  (s.each (s.cores.map (·.1)) fun s c => s.each (s.core c).hold fun s _ => s.releaseHeld c 0).notify 10 s.io.own
/-- The fields of `own_st`. -/
def ownWordOf (valid : Bool) (owner htgt : Nat) (hv : Bool) (epoch nonce : Nat) : Word :=
  wd (b2n valid * 2 ^ 63 + owner * 2 ^ 61 + htgt * 2 ^ 59 + b2n hv * 2 ^ 58 + epoch * 2 ^ 32 + nonce)
/-- Has a claim of a higher party been served in this A-cycle? Claims of one A-cycle are served in party order (R347), so one
that is served now has arrived in a later A-cycle. -/
def State.claimLate (s : State) (p : Party) : Bool := match s.io.claimAt with
  | some (t, q) => t = s.acyc && Party.code p < q
  | none => false
/-- OWNERSHIP_CLAIM (R347). -/
def State.claim (s : State) (p : Party) (nonce : BitVec 32) : State :=
  let s := s.modIo fun io => { io with claimAt := some (s.acyc, Party.code p) }
  let o := s.io.own
  let handed := bitOf o 58 && bits o 60 59 = Party.code p
  if nonce = 0 || (bitOf o 63 && !handed) then s
  else ((s.modIo fun io => { io with own := ownWordOf true (Party.code p) (bits o 60 59) false ((bits o 47 32 + 1) % 65536) nonce.toNat,
                                     lastFlit := s.acyc })).ownerChanged
def execOwnershipClaim (p : Party) (nonce : BitVec 32) (s : State) : Out :=
  .next (if s.claimLate p then s else s.anyParty p fun s => s.claim p nonce)
/-- OWN_HANDOVER (R347): HV and HTGT. -/
def State.handOver (s : State) (target : Nat) : State :=
  s.modIo fun io => { io with own := (io.own &&& ~~~(7#64 <<< 58)) ||| wd (target * 2 ^ 59 + 2 ^ 58) }
def execOwnHandover (p : Party) (target : BitVec 2) (s : State) : Out := .next (s.ownerWrite p fun s => s.handOver target.toNat)
/-- OWN_RELEASE (R347): VALID := 0 and HV := 0. -/
def State.releaseOwner (s : State) : State :=
  (s.modIo fun io => { io with own := io.own &&& ~~~(1#64 <<< 63) &&& ~~~(1#64 <<< 58) }).ownerChanged
def execOwnRelease (p : Party) (s : State) : Out := .next (s.ownerWrite p fun s => s.releaseOwner)
/-- OWNER_TIMEOUT (R347): no flit of the owner, for the BMC no heartbeat, for 85,000,000 A-cycles. -/
def execOwnerTimeout (s : State) : Out :=
  if bitOf s.io.own 63 && s.io.lastFlit + 85000000 ≤ s.acyc then
    .next (s.modIo fun io => { io with own := io.own &&& ~~~(1#64 <<< 63) }).ownerChanged
  else .next s
/-- MANAGEMENT_HEARTBEAT (R347). -/
def execManagementHeartbeat (s : State) : Out :=
  .next (if s.isOwner .bmc then s.modIo fun io => { io with lastFlit := s.acyc } else s)

/-! The budget (R350). -/

def State.budgetSet (s : State) (v : Word) : State :=
  (s.modDist fun d => { d with budget := max 1200 (min 2400 (bits v 11 0)) }).powerRecompute
/-- BUDGET_WRITE (R350). -/
def execBudgetWrite (p : Party) (v : Word) (s : State) : Out := .next (s.ownerWrite p fun s => s.budgetSet v)

/-! Daybreak (R351) and attestation (R352). -/

def State.firmwareBytes (s : State) : List (List Byte) := s.io.firmware.map fun f => Config.imageBytes f.1 f.2.1 f.2.2.1 f.2.2.2
/-- The three checks of an image. -/
def imageGood (svn : Nat) (f : List Byte × Nat × List Byte × List Byte) : Bool :=
  Config.sha256 f.1 = Config.vkh && svn ≤ f.2.1 && Config.slhVerify f.1 (Config.imageBytes f.1 f.2.1 f.2.2.1 []) f.2.2.2
/-- Step 4: what Daybreak zeroises in a core; generations and the record of the last space go too (R118, R353). -/
def Core.daybreak (x : Core) : Core :=
  { x with scr := [], empty := [], ptr := [], acc := [], fmt := [], rings := [], lastSid := none, woken := false,
           fr := { x.fr with gens := [], dir := x.fr.dir.map (fun (p : Nat × FDir) => (p.1, { p.2 with gen := 0, sgen := 0 })) } }
/-- DAYBREAK (R351): from reset, once. The BMC supplies the package identity (R18), whatever it is. -/
def execDaybreak (s : State) : Out :=
  if bitOf s.io.dbk 63 || bitOf s.io.dbk 62 then .next s
  else
   let s := { s with pkg := Config.packageId }
   match s.io.firmware.findIdx? fun f => !imageGood s.io.svn f with
    | some i => .next (s.modIo fun io => { io with dbk := wd (2 ^ 62 + i % 256) })
    | none =>
      let m := s.firmwareBytes.map fun b => natLe 32 (Config.sha256 b).toNat
      let s := { s with cores := s.cores.map (fun (q : Nat × Core) => (q.1, q.2.daybreak)),
                        slices := s.slices.map fun (q : Nat × Slice) => (q.1, { q.2 with lines := [], wbs := [], stc := [] }) }
      .next (s.modIo fun io => { io with
        measures := m, skey := Config.hkdf Config.dseed m.flatten [0x69, 0x64, 0x65, 0x6e, 0x74, 0x69, 0x74, 0x79] 48,
        seqs := [], own := io.own &&& ~~~(1#64 <<< 63), dbk := wd (2 ^ 63 + (s.io.firmware.length - 1) % 256) })
/-- The fuses burn up to a count no running image falls below (R351). -/
def State.burn (s : State) (v : Word) : State :=
  if v.toNat ≤ 64 && !s.io.firmware.isEmpty && s.io.firmware.all fun f => v.toNat ≤ f.2.1 then
    s.modIo fun io => { io with svn := max io.svn v.toNat }
  else s
/-- SVN_BURN (R351). -/
def execSvnBurn (p : Party) (v : Word) (s : State) : Out := .next (s.ownerWrite p fun s => s.burn v)
/-- GO in `att_ctl`. -/
def State.attStart (s : State) (v : Word) : State :=
  if !bitOf v 63 || bitOf s.io.attCtl 62 then s else s.modIo fun io => { io with attCtl := wd (2 ^ 62) }
/-- ATTESTATION_REQUEST (R352): any party. -/
def execAttestationRequest (p : Party) (s : State) : Out := .next (s.anyParty p fun s => s.attStart (wd (2 ^ 63)))
def padTo (n : Nat) (l : List Byte) : List Byte := (l ++ List.replicate n 0).take n
/-- Bytes 0 to 383 of a report. -/
def State.attBody (s : State) : List Byte :=
  let io := s.io
  padTo 64 (Config.attHead s.pkg io.svn io.firmware.length (bits io.own 62 61) (bits io.own 47 32)) ++
    padTo 256 (io.measures.take 8).flatten ++ padTo 32 io.attChal ++ padTo 32 (Config.slhPublic io.skey)
/-- ATTESTATION_COMPLETE (R352). -/
def execAttestationComplete (s : State) : Out :=
  if bitOf s.io.attCtl 62 then
    .next (s.modIo fun io => { io with attCtl := 0, attRep := s.attBody ++ padTo 7856 (Config.slhSign io.skey s.attBody) })
  else .next s

/-! Retiring a space (R354). -/

/-- A write of `dio_sdel`. GO stays as written, also once the retirement has ended, as `dst_frz` keeps its own; GO of `att_ctl`
reads 0: R6 has a register read as written where nothing else is said, and no rule gives GO another value (log 43). -/
def State.sdelWrite (s : State) (v : Word) : State :=
  let sid : Half := v.extractLsb' 0 16
  if bitOf s.io.sdel 62 || s.launches.any fun l => l.sid = sid && l.phase ≠ .over then s
  else s.modIo fun io => { io with sdel := (v &&& 0x800000000000ffff#64) ||| wd (b2n (bitOf v 63) * 2 ^ 62) }
/-- SPACE_RETIRE (R354). -/
def execSpaceRetire (p : Party) (v : Word) (s : State) : Out := .next (s.ownerWrite p fun s => s.sdelWrite v)
/-- Declare fatal every ticket of a space at a slice, at most fuel of them. -/
def State.fatalTickets (s : State) (n : Nat) (sid : Half) : Nat → State
  | 0 => s
  | k + 1 => match (s.slice n).parked.find? fun x => x.pkt.sid = sid with
    | some k' => (s.resolve n k'.ticket true).fatalTickets n sid k
    | none => s
/-- What one slice does. -/
def State.retireAt (s : State) (n : Nat) (sid : Half) : State :=
  let x := s.slice n
  let s := s.fatalTickets n sid ((x.parked.map fun k => 1 + k.behind.length).sum)
  let s := s.each (((s.slice n).wbs ++ (s.slice n).lines).filter fun l => l.sid = sid) fun s l => s.flush n l
  s.modSlice n fun x => { x with wbs := x.wbs.filter (fun l => l.sid ≠ sid), lines := x.lines.filter (fun l => l.sid ≠ sid), stc := x.stc.filter (fun e => e.sid ≠ sid),
                                 cells := x.cells.filter fun c => c.sid ≠ sid }
/-- SPACE_RETIRE_COMPLETE (R354): every slice is done; the space's records are numbered from 0 again (R327), and the
I/O die keeps no ART of it (log 48). -/
def execSpaceRetireComplete (s : State) : Out :=
  if !bitOf s.io.sdel 62 then .next s
  else
    let sid : Half := s.io.sdel.extractLsb' 0 16
    let s := (s.each (s.slices.map (·.1)) fun s n => s.retireAt n sid).modIo fun io =>
      { io with sdel := io.sdel &&& ~~~(1#64 <<< 62), seqs := merase sid.toNat io.seqs }
    .next (s.each (s.launches.filter fun l => l.sid = sid && l.phase = .over) fun s l => s.modLaunch l.lid fun l => { l with bodies := false })

/-! Registers (R355). -/

/-- The levels of sixteen supergroups (R350). -/
def State.levelWord (s : State) (g : Nat) : Word := wd (((List.range 16).map fun k => mget 15 s.dist.levels (g + k) * 16 ^ k).sum)
/-- Read a distributor register at an offset of its configuration space; `dbg_go` has no stated value (log 5). -/
def State.distRead (s : State) (o : Nat) : Option Word :=
  let d := s.dist
  if o < 0x80 then some (mget 1 d.q (o / 8))
  else match o with
    | 0x100 => some d.sub0
    | 0x108 => some (wd (d.status.toNat * 2 ^ 61 + d.subLid.toNat * 2 ^ 16 + d.subSid.toNat))
    | 0x110 => some d.frz
    | 0x118 => some d.img
    | 0x200 => some d.dbgCtl
    | 0x268 => some (Config.freeWord s.free)
    | _ => if 0x208 ≤ o && o < 0x248 then some (mget 0 d.bp ((o - 0x208) / 8))
      else if 0x248 ≤ o && o < 0x268 then some (mget 0 d.sw ((o - 0x248) / 8)) else none
/-- Read a slice register. -/
def State.sliceRead (s : State) (n o : Nat) : Option Word :=
  let x := s.slice n
  match o with
  | 0x00 => some x.rsv
  | 0x08 => some x.sdir
  | 0x10 => some x.stcinv
  | 0x18 => some x.fres
  | _ => none
/-- Read an 8-byte register, but for `cfg_data`; none at a reserved offset. `own_hand` has no stated value (log 5). -/
def State.regRead (s : State) (off : Nat) : Option Word :=
  let io := s.io
  if off % 8 ≠ 0 then none
  else match off with
    | 0x0 => some io.own
    | 0x8 => some 0
    | 0x10 => some (Config.freeWord s.free)
    | 0x100 => some (wd s.dist.budget)
    | 0x108 => some (s.levelWord 0)
    | 0x110 => some (s.levelWord 16)
    | 0x200 => some io.dbk
    | 0x208 => some (wd io.svn)
    | 0x300 => some io.attCtl
    | 0x4000 => some io.flog
    | 0x4008 => some io.sdel
    | 0x4100 => some io.cfgAddr
    | _ =>
      if 0x320 ≤ off && off < 0x340 then some (bytesWord ((padTo 32 io.attChal).drop (off - 0x320) |>.take 8))
      else if 0x1000 ≤ off && off < 0x1000 + 8240 then some (bytesWord ((padTo 8240 io.attRep).drop (off - 0x1000) |>.take 8))
      else if 0x5000 ≤ off && off < 0x5400 then some (mget 0 io.ap ((off - 0x5000) / 8))
      else if 0x10000 ≤ off && off < 0x11000 then s.distRead (off - 0x10000)
      else if 0x20000 ≤ off && off < 0x28000 then s.sliceRead ((off - 0x20000) / 256) ((off - 0x20000) % 256)
      else none
/-- A word of an aperture as a write leaves it under the KIND that stands (R343); none where it breaks a rule. -/
def apWord (kind1 : Bool) (w : Nat) (v : Word) : Option Word :=
  match w with
  | 0 => some (v &&& 0xc00000000000ffff#64)
  | 1 => if bits v 11 0 = 0 then some v else none
  | 2 => if (if kind1 then v = 2048 else bits v 11 0 = 0) then some v else none
  | _ => if if kind1 then v = 0 else bits v 11 0 = 0 && !bitOf v 63 then some v else none
def State.apWrite (s : State) (k : Nat) (v : Word) : State :=
  match apWord (bitOf (mget 0 s.io.ap (k / 4 * 4)) 62) (k % 4) v with
  | some v => s.modIo fun io => { io with ap := mset 0 k v io.ap }
  | none => s
/-- What an execution answers as a state; none of those used here faults. -/
def outState (s : State) : Out → State
  | .next s => s
  | _ => s
/-- A write of a distributor register by the owner; none at a reserved offset. -/
def State.distWrite (s : State) (p : Party) (o : Nat) (v : Word) : Option State :=
  if o < 0x80 then some (s.modDist fun d => { d with q := mset 1 (o / 8) (v &&& 0x7ff#64) d.q })
  else match o with
    | 0x100 => some (s.modDist fun d => { d with sub0 := v })
    | 0x108 => some (outState s (execLaunchSubmit p v s))
    | 0x110 => some (s.frzWrite v)
    | 0x118 => some (s.modDist fun d => { d with img := v &&& 0x000007fffff0ffff#64 })
    | 0x200 => some (s.modDist fun d => { d with dbgCtl := v &&& 0xf8000000ffffffff#64 })
    | 0x268 => some (s.dbgWrite v)
    | _ =>
      if 0x208 ≤ o && o < 0x248 then some (s.modDist fun d => { d with bp := mset 0 ((o - 0x208) / 8) (v &&& 0xfff8000007ffffff#64) d.bp })
      else if 0x248 ≤ o && o < 0x268 then some (s.modDist fun d => { d with sw := mset 0 ((o - 0x248) / 8) (v &&& 0xffc03fffffffff00#64) d.sw })
      else none
/-- A write of a slice register by the owner. -/
def State.sliceRegWrite (s : State) (p : Party) (n o : Nat) (v : Word) : Option State :=
  match o with
  | 0x00 => some (s.modSlice n fun x => { x with rsv := v &&& 0xffff07fffff00000#64 })
  | 0x08 => some (s.modSlice n fun x => { x with sdir := v &&& 0x000007fffff00000#64 })
  | 0x10 => some (if bits v 62 61 = 3 then s else outState s (stcInv p n v (bits v 62 61) s))
  | 0x18 =>
    let a := bits v 63 62
    let s := s.modSlice n fun x => { x with fres := v &&& 0xc0000000000fffff#64 }
    some (if a = 1 || a = 2 then s.resolve n (bits v 19 0) (a = 2) else s)
  | _ => none
/-- A write of a register only the owner may write. -/
def State.ownerReg (s : State) (p : Party) (off : Nat) (v : Word) : Option State :=
  match off with
  | 0x10 =>
    let s := if bitOf v 2 then s.handOver (bits v 1 0) else s
    some (if bitOf v 3 then s.releaseOwner else s)
  | 0x100 => some (s.budgetSet v)
  | 0x208 => some (s.burn v)
  | 0x4000 => some (s.modIo fun io => { io with flog := v &&& 0x000007fffff00000#64 })
  | 0x4008 => some (s.sdelWrite v)
  | 0x4100 => some (s.modIo fun io => { io with cfgAddr := v })
  | 0x4108 => some (outState s (execCfgDataWrite p v s))
  | _ =>
    if 0x5000 ≤ off && off < 0x5400 then some (s.apWrite ((off - 0x5000) / 8) v)
    else if 0x10000 ≤ off && off < 0x11000 then s.distWrite p (off - 0x10000) v
    else if 0x20000 ≤ off && off < 0x28000 then s.sliceRegWrite p ((off - 0x20000) / 256) ((off - 0x20000) % 256) v
    else none
/-- A write of 8 bytes at an offset of a register window (R348, R355): a reserved offset is ignored with error status; a
register that only the device writes ignores it. -/
def State.regWrite (s : State) (p : Party) (off : Nat) (v : Word) : State :=
  if off % 8 ≠ 0 || !((s.regRead off).isSome || off = 0x4108) then s.status true
  else if off = 0x8 then s.anyParty p fun s => s.claim p (v.extractLsb' 0 32)
  else if off = 0x300 then s.anyParty p fun s => s.attStart v
  else if 0x320 ≤ off && off < 0x340 then
    s.anyParty p fun s => s.modIo fun io =>
      { io with attChal := (padTo 32 io.attChal).take (off - 0x320) ++ wordBytes v ++ (padTo 32 io.attChal).drop (off - 0x320 + 8) }
  else s.ownerWrite p fun s => (s.ownerReg p off v).getD s
/-- Must an access at an offset of a register window wait: one of `cfg_data` behind matrix requests (R51), a claim behind those
of its A-cycle (R347)? -/
def State.regWaits (s : State) (p : Party) (off : Nat) : Bool :=
  (off = 0x4108 && s.cfgWaits p) || (off = 0x8 && s.claimLate p)
/-- REGISTER_WRITE (R6, R355). -/
def execRegisterWrite (p : Party) (off : Nat) (v : Word) (s : State) : Out :=
  .next (if s.linked p && s.regWaits p off then s
    else if s.linked p then (s.heard p).regWrite p off v else (s.heard p).status true)
/-- LINK_TRAINING (R355): a port's link configuration places its register window apart from its apertures. -/
def execLinkTraining (p : Party) (base : Word) (s : State) : Out :=
  let ap := fun n w => (mget 0 s.io.ap (64 * Party.code p + 4 * n + w)).toNat
  let clear := (List.range 16).all fun n => !(ap n 0).testBit 63 || ap n 1 + ap n 2 ≤ base.toNat || base.toNat + 2 ^ 20 ≤ ap n 1
  .next (if p = .bmc || !s.daybroken || !clear then s else s.modIo fun io => { io with trained := mput (Party.code p) base io.trained })

/-! Ingress (R345). -/

/-- INGRESS_CLOSE (R345): every signal posted through the binding is acknowledged. -/
def execIngressClose (lid : BitVec 32) (ep : Nat) (s : State) : Out :=
  let l := s.launch lid
  if s.hasLaunch lid && l.closing.contains ep && mget 0 l.posted ep = 0 then
    .next (s.modLaunch lid fun l => { l with closing := l.closing.filter (· ≠ ep), closed := l.closed ++ [ep] })
  else .next s

/-! Host accesses (R80, R240, R343). -/

/-- The aperture of a port that serves an address: its words 0, 1 and 3. -/
def State.aperture (s : State) (p : Party) (a : Word) : Option (Word × Word × Word) :=
  let w := fun n k => mget 0 s.io.ap (64 * Party.code p + 4 * n + k)
  ((List.range 16).find? fun n => bitOf (w n 0) 63 && (w n 1).toNat ≤ a.toNat && a.toNat < (w n 1).toNat + (w n 2).toNat).map fun n =>
    (w n 0, w n 1, w n 3)
/-- The registers that the owner alone reaches, for reads too: those of the debugger (R338) and `dst_frz` (R348). -/
def ownersReg (off : Nat) : Bool := (0x10200 ≤ off && off < 0x10270) || off = 0x10110
/-- What the owner and the observers read of the counters (R348): a core's event counters, and the exhausted-slack counter of
the I/O die for a space. R355 gives an observer no register of either (log 43). -/
def State.counterOf (s : State) (c k : Nat) : Word := mget 0 (s.core c).ctr k
def State.exhaustedOf (s : State) (sid : Half) : Nat := mget 0 s.io.exhausted sid.toNat
/-- An access to a register window (R355): 8 bytes, or 8 to 64 at `att_rep` and `att_chal`. -/
def State.hostReg (s : State) (p : Party) (off n : Nat) (wr : Bool) (data : Line64) : State :=
  let rep := 0x1000 ≤ off && off + n ≤ 0x1000 + 8240
  let chal := 0x320 ≤ off && off + n ≤ 0x340
  let wide := 8 ≤ n && n ≤ 64 && (if wr then chal else rep)
  let old := padTo 32 s.io.attChal
  if off % 8 ≠ 0 || !(n = 8 || wide) then s.status true
  else if wr && chal then s.anyParty p fun s => s.modIo fun io =>
    { io with attChal := old.take (off - 0x320) ++ (lineBytes data).take n ++ old.drop (off - 0x320 + n) }
  else if wr then s.regWrite p off (data.extractLsb' 0 64)
  else if off = 0x4108 then outState s (execCfgDataRead p s)
  else if ownersReg off && !s.isOwner p then s.status true
  else if rep then (s.status false).answers (some ((padTo 8240 s.io.attRep).drop (off - 0x1000) |>.take n))
  else (s.status false).answers (some (wordBytes ((s.regRead off).getD 0))) |> fun s => { s with free := s.free + 1 }
/-- Where the register window of a party begins that an address lies in; the BMC's is all of its management interface. -/
def State.windowAt (s : State) (p : Party) (addr : Word) : Option Word :=
  if p = .bmc then some (0 : Word)
  else if mhas s.io.trained (Party.code p) && (mget 0 s.io.trained (Party.code p)).toNat ≤ addr.toNat &&
      addr.toNat < (mget 0 s.io.trained (Party.code p)).toNat + 2 ^ 20 then some (mget 0 s.io.trained (Party.code p)) else none
/-- Must a host access wait: one to the registers behind the port's earlier accesses to memory, which take effect in the order
of issue (R240), or for its own register? -/
def State.hostWaits (s : State) (p : Party) (addr : Word) : Bool := match s.windowAt p addr with
  | some b => mget [] s.host.queue (Party.code p) ≠ [] || s.regWaits p (addr - b).toNat
  | none => false
/-- A host access at an address of a port; for the BMC, an offset of its management interface. One of no bytes stands for an
idle flit (R347, log 43). -/
def State.hostAt (s : State) (p : Party) (addr : Word) (n : Nat) (wr atomic : Bool) (data : Line64) : State :=
  let s := (s.heard p).answers none
  if n = 0 then s
  else if !s.daybroken && !(p = .bmc && addr = 0x200 && !wr) then s.status true
  else if 64 < n || atomic then s.status true
  else match s.windowAt p addr with
    | some b => s.hostReg p (addr - b).toNat n wr data
    | none => match s.aperture p addr with
      | none => s.status true
      | some (w0, hb, vb) =>
        let o := addr - hb
        let acc : HostAcc := { sid := w0.extractLsb' 0 16, va := vb + o, left := n, wr := wr, bytes := if wr then (lineBytes data).take n else [] }
        if !bitOf w0 62 then s.hostQueue (Party.code p) acc
        else if o.toNat % 8 ≠ 0 then s.status true
        else s.hostQueue (Party.code p) { acc with ingress := true, va := wd (o.toNat / 8) }
/-- HOST_ACCESS (R343); one that must wait is not issued yet. -/
def execHostAccess (p : Party) (addr : Word) (bytes : Nat) (write atomic : Bool) (data : Line64) (s : State) : Out :=
  .next (if bytes ≠ 0 && s.daybroken && s.hostWaits p addr then s else s.hostAt p addr bytes write atomic data)
/-- INGRESS_WRITE (R345): a host write through an aperture of KIND 1. -/
def execIngressWrite (p : Party) (addr : Word) (bytes : Nat) (v : Word) (s : State) : Out :=
  match s.aperture p addr with
  | some (w0, _, _) => .next (if bitOf w0 62 then s.hostAt p addr bytes true false (v.setWidth 512) else s)
  | none => .next s
/-- HOST_INVALIDATION_COMPLETE (R240): the device writes that waited for no other line are acknowledged. -/
def execHostInvalidationComplete (sid : BitVec 16) (va : Word) (s : State) : Out :=
  let key := (sid, hostLine va.toNat)
  let left := s.host.waiting.map fun w => (w.1, w.2.filter (· ≠ key))
  .next ((s.modHost fun h => { h with pendInv := h.pendInv.filter (· ≠ key), waiting := left.filter fun w => !w.2.isEmpty }).each
    (left.filter fun w => w.2.isEmpty) fun s w => s.reply w.1 w.1.body false)

end Sys2Proof.Machine
end

