-- ==== Sys2Proof/Machine/MemoryOps.lean ====
section
/-! DEFINITION. MemoryOps.lean: the heads that move operands: local scratch (R145, R146), split-phase requests (R149-R164),
fences and the releasing signal (R165-R167), queues (R169, R171) and stage claims (R172). What a head sends leaves at the
commit of its block. -/

namespace Sys2Proof.Machine

/-! Local scratch. -/

def execLd (g : Guard) (d b : XReg) (ty : Ty) (_ : LsId) (off : BitVec 32) (s : State) : Out :=
  runHeadS s g fun w =>
    let a := baseOff w.regs b off
    check (aligned a (Ty.width ty)) .alignment a <|
    localAt s a (Ty.width ty) false fun c o =>
      .ok (s.touchAt c o (Ty.width ty), { w with regs := w.regs.wxm d (extendTy ty (s.loadBytes w c o (Ty.width ty))) (ty = .s64 && s.ptrIn w c (o / 8)) })
def execSt (g : Guard) (b v : XReg) (ty : Ty) (_ : LsId) (off : BitVec 32) (s : State) : Out :=
  runHead s g fun w =>
    let a := baseOff w.regs b off
    check (aligned a (Ty.width ty)) .alignment a <|
    localAt s a (Ty.width ty) true fun c o =>
      .ok (w.store c o (whole (lowBytes ty (w.regs.rx v))) (ty = .s64 && w.regs.mark v))
/-- A vector access with every lane off accesses nothing (R26, R146). -/
def vecAt (s : State) (g : Guard) (b : XReg) (ty : Ty) (off : BitVec 32) (wr : Bool)
    (k : Half → Nat → Nat → Except Trap (State × Work)) : Out :=
  headEndS s <|
    let w := s.work
    let m := w.regs.guard g
    let a := baseOff w.regs b off
    if !anyLane (wideTy ty) m then .ok (s, w)
    else check (aligned a 64) .alignment a (localAt s a 64 wr (k m))
def execVld (g : Guard) (d : VReg) (b : XReg) (ty : Ty) (_ : LsId) (off : BitVec 32) (s : State) : Out :=
  vecAt s g b ty off false fun m c o =>
    let w := s.work
    let v := bytesLine (s.loadBytes w c o 64)
    .ok (s.touchAt c o 64, { w with regs := w.regs.wv d (mapLanes (wideTy ty) m (w.regs.rv d) fun i => getLane (wideTy ty) v i) })
def execVst (g : Guard) (b : XReg) (v : VReg) (ty : Ty) (_ : LsId) (off : BitVec 32) (s : State) : Out :=
  vecAt s g b ty off true fun m c o =>
    let w := s.work
    let n := laneBits (wideTy ty) / 8
    .ok (s, w.store c o (((List.range (laneCount (wideTy ty))).map fun i =>
      if laneOn m (wideTy ty) i then whole (natLe n (getLane (wideTy ty) (w.regs.rv v) i)) else List.replicate n none).flatten) false)

/-! Split-phase requests: SLOT and the frame words, then alignment (R150). -/

/-- A split-phase form on one address, with its last frame word operand and its alignment. -/
def splitHead (s : State) (g : Guard) (a : XReg) (last : Option Nat) (al : Nat) (sf : SlotField) (act : Regs → Word → Act) : Out :=
  runHead s g fun w =>
    wordsOk s (slotOf sf) last <|
    check (aligned (w.regs.rx a) al) .alignment (w.regs.rx a) <| .ok (w.act (act w.regs (w.regs.rx a)))
def execGet (g : Guard) (a : XReg) (fw : FWord) (ty : Ty) (p : PktMod) (sf : SlotField) (s : State) : Out :=
  splitHead s g a (some fw.toNat) (Ty.width ty) sf fun _ v => .get v fw.toNat ty p sf
def execPut (g : Guard) (a : XReg) (fw : FWord) (ty : Ty) (p : PktMod) (sf : SlotField) (s : State) : Out :=
  splitHead s g a (some fw.toNat) (Ty.width ty) sf fun _ v => .put v fw.toNat ty p sf
def execVget (g : Guard) (a : XReg) (fw : FWord) (p : PktMod) (sf : SlotField) (s : State) : Out :=
  splitHead s g a (some (fw.toNat + 7)) 64 sf fun _ v => .vget v fw.toNat p sf
def execVput (g : Guard) (a : XReg) (fw : FWord) (p : PktMod) (sf : SlotField) (s : State) : Out :=
  splitHead s g a (some (fw.toNat + 7)) 64 sf fun _ v => .vput v fw.toNat p sf
def execCsnap (g : Guard) (a : XReg) (fw : FWord) (p : PktMod) (sf : SlotField) (s : State) : Out :=
  splitHead s g a (some (fw.toNat + 7)) 64 sf fun _ v => .csnap v fw.toNat p sf
/-- The map's address is a multiple of 64 (R150, R159; log 17). -/
def execOwn (g : Guard) (m c : XReg) (fw : FWord) (p : PktMod) (sf : SlotField) (s : State) : Out :=
  splitHead s g m (some fw.toNat) 64 sf fun r v => .own v (r.rx c) fw.toNat p sf
def execLdfe (g : Guard) (a : XReg) (fw : FWord) (p : PktMod) (sf : SlotField) (s : State) : Out :=
  splitHead s g a (some fw.toNat) 8 sf fun _ v => .fe .ldfe v 0 fw.toNat p sf
def execStef (g : Guard) (a v : XReg) (p : PktMod) (sf : SlotField) (s : State) : Out :=
  splitHead s g a none 8 sf fun r x => .fe .stef x (r.rx v) 0 p sf
def execTagf (g : Guard) (a : XReg) (p : PktMod) (sf : SlotField) (s : State) : Out :=
  splitHead s g a none 8 sf fun _ x => .fe .tagf x 0 0 p sf
def execTage (g : Guard) (a : XReg) (p : PktMod) (sf : SlotField) (s : State) : Out :=
  splitHead s g a none 8 sf fun _ x => .fe .tage x 0 0 p sf
/-- An atomic on a naturally aligned word (R162). -/
def amoHead (s : State) (g : Guard) (op : AmoOp) (a v : XReg) (c : Option XReg) (fw : FWord) (ty : Ty) (p : PktMod) (sf : SlotField) : Out :=
  splitHead s g a (some fw.toNat) (Ty.width ty) sf fun r x =>
    .amo op ty x (r.rx v) (match c with | some c => r.rx c | none => 0) fw.toNat p sf
def execAmoAdd (g : Guard) (a v : XReg) (fw : FWord) (ty : Ty) (p : PktMod) (sf : SlotField) (s : State) : Out :=
  amoHead s g .add a v none fw ty p sf
def execAmoAnd (g : Guard) (a v : XReg) (fw : FWord) (ty : Ty) (p : PktMod) (sf : SlotField) (s : State) : Out :=
  amoHead s g .and a v none fw ty p sf
def execAmoOr (g : Guard) (a v : XReg) (fw : FWord) (ty : Ty) (p : PktMod) (sf : SlotField) (s : State) : Out :=
  amoHead s g .or a v none fw ty p sf
def execAmoXor (g : Guard) (a v : XReg) (fw : FWord) (ty : Ty) (p : PktMod) (sf : SlotField) (s : State) : Out :=
  amoHead s g .xor a v none fw ty p sf
def execAmoMin (g : Guard) (a v : XReg) (fw : FWord) (ty : Ty) (p : PktMod) (sf : SlotField) (s : State) : Out :=
  amoHead s g .min a v none fw ty p sf
def execAmoMax (g : Guard) (a v : XReg) (fw : FWord) (ty : Ty) (p : PktMod) (sf : SlotField) (s : State) : Out :=
  amoHead s g .max a v none fw ty p sf
def execAmoSwap (g : Guard) (a v : XReg) (fw : FWord) (ty : Ty) (p : PktMod) (sf : SlotField) (s : State) : Out :=
  amoHead s g .swap a v none fw ty p sf
def execAmoCas (g : Guard) (a v c : XReg) (fw : FWord) (ty : Ty) (p : PktMod) (sf : SlotField) (s : State) : Out :=
  amoHead s g .cas a v (some c) fw ty p sf
/-- A `red` has no slot (R163). -/
def redHead (s : State) (g : Guard) (op : RedOp) (a v : XReg) (ty : Ty) (p : PktMod) : Out :=
  splitHead s g a none (Ty.width ty) ⟨false, false, 0⟩ fun r x => .red op ty x (r.rx v) p
def execRedAdd (g : Guard) (a v : XReg) (ty : Ty) (p : PktMod) (s : State) : Out := redHead s g .sum a v ty p
def execRedMin (g : Guard) (a v : XReg) (ty : Ty) (p : PktMod) (s : State) : Out := redHead s g .min a v ty p
def execRedMax (g : Guard) (a v : XReg) (ty : Ty) (p : PktMod) (s : State) : Out := redHead s g .max a v ty p

/-- `copy` (R156): at most 2^24 bytes, length and addresses multiples of 8. -/
def execCopy (g : Guard) (d a n : XReg) (p : PktMod) (sf : SlotField) (s : State) : Out :=
  runHead s g fun w =>
    let r := w.regs
    wordsOk s (slotOf sf) none <|
    check (aligned (r.rx d) 8 && (r.rx n).toNat ≤ 2 ^ 24 && aligned (r.rx n) 8) .alignment (r.rx d) <|
    check (aligned (r.rx a) 8) .alignment (r.rx a) <| .ok (w.act (.copy (r.rx d) (r.rx a) (r.rx n).toNat p sf))

/-- The index lanes of a gather or scatter, checked against the bound, sentinels first (R157). -/
def idxLanes {α : Type} (v : Line64) (n : Nat) (bound : Half) (k : List Nat → Except Trap α) : Except Trap α :=
  let b := if bound = 0 then 0xffff else bound.toNat
  let idx := (List.range n).map fun j => (v.extractLsb' (16 * j) 16).toNat
  match idx.find? fun i => i ≠ 0xffff && b ≤ i with
  | some i => trapAt .index (wd i)
  | none => k idx
/-- The checks both element forms make: the slot, the indices, the alignments, the local range; a scatter reads it. -/
def elemHead (s : State) (g : Guard) (l b : XReg) (v : VReg) (esz : BitVec 4) (bound : Half) (nm1 : BitVec 5) (sf : SlotField)
    (wr : Bool) (act : Work → Nat → Nat → List Nat → Act) : Out :=
  runHeadS s g fun w =>
    let n := nm1.toNat + 1
    let e := 2 ^ esz.toNat
    wordsOk s (slotOf sf) none <|
    idxLanes (w.regs.rv v) n bound fun idx =>
      check (aligned (w.regs.rx b) e) .alignment (w.regs.rx b) <|
      check (aligned (w.regs.rx l) (min e 64)) .alignment (w.regs.rx l) <|
      localAt s (w.regs.rx l) (n * e) wr fun c o => .ok (if wr then s else s.touchAt c o (n * e), w.act (act w c o idx))
def execGather (g : Guard) (d b : XReg) (v : VReg) (esz : BitVec 4) (bound : Half) (nm1 : BitVec 5) (p : PktMod) (sf : SlotField)
    (s : State) : Out :=
  elemHead s g d b v esz bound nm1 sf true fun w _ _ idx => .gather (w.regs.rx d) (w.regs.rx b) idx (2 ^ esz.toNat) p sf
/-- The bytes a scatter sends are read when its head executes (R29). -/
def execScatter (g : Guard) (b l : XReg) (v : VReg) (esz : BitVec 4) (bound : Half) (nm1 : BitVec 5) (p : PktMod) (sf : SlotField)
    (s : State) : Out :=
  elemHead s g l b v esz bound nm1 sf false fun w c o idx =>
    .scatter (w.regs.rx b) (s.loadBytes w c o ((nm1.toNat + 1) * 2 ^ esz.toNat)) idx (2 ^ esz.toNat) p sf

/-- The owner of an address (R158): its core, or the corner core of its home slice's group. -/
def State.ownerOf (s : State) (a : Word) : Nat :=
  if onChip a then addrCore a else cornerOf (sliceOf (s.env s.cur.core) a)
def execAmsg (g : Guard) (a r : XReg) (prio : BitVec 2) (k : BitVec 4) (p : PktMod) (entry : BitVec 32) (s : State) : Out :=
  runHead s g fun w =>
    let x := w.regs.rx a
    check (addrPkg x = s.pkg && s.myLaunch.inRect (s.ownerOf x)) .scratchProtection x <|
      .ok (w.act (.amsg (s.ownerOf x) x (w.regs.range r k.toNat) prio.toNat p entry))

/-! Fences and the releasing signal (R165-R167). -/

def execFenceRel (g : Guard) (sc : Scope) (s : State) : Out := runHead s g fun w => .ok (w.act (.fenceRel sc))
def execFenceAcq (g : Guard) (sc : Scope) (s : State) : Out := runHead s g fun w => .ok (w.act (.fenceAcq sc))
def execSigRel (g : Guard) (f : XReg) (n : FWord) (k : BitVec 8) (p : PktMod) (s : State) : Out :=
  runHead s g fun w =>
    let x := w.regs.rx f
    check (n.toNat < frameWords (fpCls x)) .index (wd n.toNat) <|
      .ok (w.act (.sig x p.urg n.toNat k.toNat .none (some p.scope)))

/-! Queues and stage claims (R169, R171, R172). -/

/-- A local queue address as the on-chip address of its home. -/
def State.queueAddr (s : State) (a : Word) : Word := if a.toNat < 0x100000 then baseOf s.pkg s.cur.core + a else a
/-- The descriptor's address is a multiple of 64 (R150, R168; log 17); a local one, in either form of R110, is checked by R110 and
R82 (R150), any other is no local operand. x[D] := 1 when the enqueue buffer is full at execute, the block's
earlier entries counted (R169). -/
def enqHead (s : State) (g : Guard) (d q r : XReg) (k : BitVec 4) (p : PktMod) (slot : Option Nat) (fresh : Bool) : Out :=
  runHead s g fun w =>
    let ni := (s.core s.cur.core).ni
    let a := w.regs.rx q
    wordsOk s slot none <|
    check (aligned a 64) .alignment a <|
    check ((s.localAddr s.cur.core a).isNone || (s.localOk s.cur.core s.mySid a 64 true).isSome) .scratchProtection a <|
      if 16 ≤ ni.enqBuf.length + ni.pendBuffered [] w.acts then .ok { w with regs := w.regs.wx d 1 }
      else .ok { w.act (.enq (s.queueAddr a) (w.regs.range r (2 ^ k.toNat)) p slot fresh) with regs := w.regs.wx d 0 }
def execEnq (g : Guard) (d q r : XReg) (k : BitVec 4) (p : PktMod) (sf : SlotField) (s : State) : Out :=
  enqHead s g d q r k p none sf.fresh
def execEnqA (g : Guard) (d q r : XReg) (k : BitVec 4) (p : PktMod) (sf : SlotField) (s : State) : Out :=
  enqHead s g d q r k p (slotOf sf) sf.fresh
/-- The entries that the block's earlier `deq` heads take from a queue. -/
def Work.taken (w : Work) (q : Nat) : Nat := (w.acts.filter fun a => match a.2 with
  | .deq q' _ _ _ _ => q' = q
  | _ => false).length
/-- `deq` (R171): its result is fixed when its head executes and its effects take place at commit, as one access: the words
w0 and HEAD it found stand until then, or the block runs again. The queue lies in the own core's scratch; another core's is
refused as R110 refuses it, and the descriptor alone is checked by R82, for both rights (log 51). -/
def execDeq (g : Guard) (d q : XReg) (fw : FWord) (k : BitVec 4) (p : PktMod) (fresh : Bool) (s : State) : Out :=
  runHeadS s g fun w =>
    let a := w.regs.rx q
    check (aligned a 64) .alignment a <|
    localRW s a 64 fun c o =>
      (fun (x : HeadRes) => x.map fun w' => (s.touchAt c o 64, w')) <|
      check (c = s.cur.core) .scratchProtection a <|
      let qd := queueOf fun n => s.loadWord w c (o + 8 * n)
      let n := 2 ^ k.toNat
      check (qd.valid && k.toNat = qd.esz) .index (wd fw.toNat) <|
      check (fw.toNat + n ≤ s.myWords) .index (wd fw.toNat) <|
        if qd.used ≤ w.taken o then .ok { w with regs := w.regs.wx d 1 }
        else .ok { ((w.note c o ((s.core c).readScr o 8)).note c (o + 14) ((s.core c).readScr (o + 14) 2)).act
          (.deq o fw.toNat n p fresh) with regs := w.regs.wx d 0 }
/-- The ring's descriptor lies in the own core's scratch (R172), checked by R82 for both rights (log 51); its tag is checked
at commit. -/
def stageHead (s : State) (g : Guard) (claim : Bool) (r k : XReg) : Out :=
  runHead s g fun w =>
    let a := w.regs.rx r
    check (a.toNat < 0x100000 && (s.core s.cur.core).grants s.mySid a.toNat (min 96 (0x100000 - a.toNat)) true true)
      .scratchProtection a <|
      .ok (w.act (.stage claim a (w.regs.rx k)))
def execStgClaim (g : Guard) (r k : XReg) (s : State) : Out := stageHead s g true r k
def execStgFree (g : Guard) (r k : XReg) (s : State) : Out := stageHead s g false r k

end Sys2Proof.Machine
end

