-- ==== Sys2Proof/Machine/Select.lean ====
section
/-! DEFINITION. Select.lean: what a turn does: which instruction an agent's turn runs, fetched from the state (a head of
the block's line, the bytes at a loader or storer core's pc, or an event), the clocks, and the placing of an instruction
where the next step fetches it. -/

namespace Sys2Proof.Machine

/-- The head at a number of a block's line, decoded (R22-R26). -/
def headAt (w : Work) : Dec := (lineDecode w.image).getD w.k (.error .badLength)
def headsOf (w : Work) : Nat := (lineHdr w.image).h
/-- What a context does next: begin its block (fetching its line first), run the next head, or commit. -/
def ctxInstr (s : State) (c k : Nat) : Option Instr :=
  let x := s.ctx c k
  if !x.bound then none
  else if x.work.active then
    if x.work.k < headsOf x.work then (headAt x.work).toOption else some (.blockCommit c k)
  else if (s.launch x.lid).phase = .resident && !(s.core c).park && lineOf x.pos < (s.launch x.lid).clen && (s.lineAt c x.lid (lineOf x.pos)).isNone then some (.lineFetch c k)
  else some (.blockExecute c k)

def imemHalf (l : LsCore) (a : Nat) : Half := BitVec.ofNat 16 (leNat (readMap l.imem a 2))
/-- The two halfwords at a loader or storer core's pc; a pc outside the instruction store has none (R84). Neither has an odd pc,
which only a write of the register block can leave and for which R84 names no fault (log 54). -/
def lsFetch (l : LsCore) : Option (Half × Half) :=
  let h := imemHalf l l.pc.toNat
  let n := if h.extractLsb' 0 2 = 3 then 4 else 2
  if l.pc.toNat % 2 = 0 && l.pc.toNat + n ≤ 0x4000 then some (h, imemHalf l (l.pc.toNat + 2)) else none

/-- The spaces of a core's bound contexts, one for each. -/
def State.boundSids (s : State) (x : Core) : List Half :=
  (x.ctxs.filter fun p => p.2.bound).map fun p => (s.launch p.2.lid).sid
/-- An A-cycle passes: the tokens whose wait is over are promoted, before any fire of it (R247); of each space with a bound
context a core counts one A-cycle (event 2) and its bound contexts (event 15) (R341). -/
def State.aTick (s : State) : State :=
  let s := { s with acyc := s.acyc + 1 }
  s.each (s.cores.map (·.1)) fun s c =>
    let s := s.modCore c fun x => x.promote s.acyc
    let sids := s.boundSids (s.core c)
    let s := s.each sids fun s sid => s.event c sid 15 1
    s.each (nub (sids.map (·.toNat))) fun s sid => s.event c (BitVec.ofNat 16 sid) 2 1

/-- What a step does: run an instruction in a state, or leave a state. -/
inductive Pick where
  | run (i : Instr) (s : State)
  | still (s : State)

/-! What may happen within one A-cycle (R14, R30, R94, R111, R123, R245). A turn that may not is no step of its agent: time
goes on, and the agent's next turn finds it where it was. -/

/-- Side M of R14, by major opcode (R39); every other major is of side S. -/
def sideM (maj : Nat) : Bool := (0x07 ≤ maj && maj ≤ 0x0C) || maj = 0x0E || 0x50 ≤ maj
/-- The side of the head at a number of a line. -/
def headSide (img : Line64) (k : Nat) : Bool := sideM ((lineHalf img (3 + k)).extractLsb' 9 7).toNat
/-- May a context issue on a side: nothing has issued on it in this A-cycle, nor the context on the other (R14)? -/
def Core.mayIssue (x : Core) (now k : Nat) (m : Bool) : Bool :=
  let mine := if m then x.issueM else x.issueS
  let other := if m then x.issueS else x.issueM
  mine.map (·.1) ≠ some now && other ≠ some (now, k)
/-- Has a context a head for a side in this A-cycle? -/
def State.wants (s : State) (c k : Nat) (m : Bool) : Bool :=
  let y := s.ctx c k
  y.bound && y.work.active && y.work.k < headsOf y.work && headSide y.work.image y.work.k = m && y.replayAt ≠ some s.acyc &&
    (if m then (s.core c).issueS else (s.core c).issueM) ≠ some (s.acyc, k)
/-- Is it a context's turn on a side (R14)? The side offers an issue round-robin: every context that it offers one before this
one has no head for it or none that is ready (log 66). -/
def State.offered (s : State) (c k : Nat) (m : Bool) : Bool :=
  let at_ := if m then (s.core c).rrM else (s.core c).rrS
  (List.range ((k + 16 - at_) % 16)).all fun d =>
    let j := (at_ + d) % 16
    !s.wants c j m || Config.unready c j s.acyc
/-- A context issues on a side: the side next offers the context after it. -/
def Core.issue (x : Core) (now k : Nat) (m : Bool) : Core :=
  if m then { x with issueM := some (now, k), rrM := (k + 1) % 16 } else { x with issueS := some (now, k), rrS := (k + 1) % 16 }
/-- May an access of a rank in R111's order still be made at a core's banks in this A-cycle? -/
def Core.rankOk (x : Core) (now r : Nat) : Bool := x.phase.1 ≠ now || x.phase.2 ≤ r
/-- An access of a rank is made at a core's banks. -/
def Core.ranked (x : Core) (now r : Nat) : Core := { x with phase := (now, if x.phase.1 = now then max x.phase.2 r else r) }
/-- The rank of a context's access in R111's order: the last of its classes, the oldest first, which has been replayed most
often, then the lowest core index. -/
def Core.ctxRank (x : Core) (c k : Nat) : Nat := 7 + 2048 * (63 - mget 0 x.replays k) + c
/-- The addresses at which a head reads scratch, which may be another core's (R110). -/
def readAddrs (i : Instr) (r : Regs) : List Word := match i with
  | .ld _ _ b _ _ off | .vld _ _ b _ _ off => [baseOff r b off]
  | .vldf _ _ b _ _ _ => [r.rx b]
  | .scatter _ _ l _ _ _ _ _ _ => [r.rx l]
  | .mma _ _ a b _ _ _ | .mmaF32 _ _ a b _ _ _ | .mmaF64 _ _ a b _ _ _ | .mmag _ _ a b _ _ _ _ | .mmas _ _ a b _ _ _
  | .mscan _ _ a b _ _ _ | .mscanSeg _ _ a b _ _ _ => [r.rx a, r.rx b]
  | _ => []
/-- The address of the budgets of a `mmas`, which stand in its view of A (R207, R220). -/
def budgetAddr (s : State) (i : Instr) : List Word := match i with
  | .mmas _ _ a _ _ _ _ => match s.localAddr s.cur.core (s.work.regs.rx a) with
    | some (c, o) => [(viewOf s (bytesWords (s.loadBytes s.work c o 32))).aux]
    | none => []
  | _ => []
/-- The cores at whose banks a context's head or commit makes its accesses. -/
def reached (s : State) (i : Instr) : List Nat :=
  let w := s.work
  s.cur.core :: (match i with
    | .blockCommit _ _ => w.stores.map (·.core) ++ w.acts.filterMap fun a => match a.2 with
      | .tile c _ _ _ _ => some c
      | _ => none
    | _ => (readAddrs i w.regs ++ budgetAddr s i).filterMap fun a => (s.localAddr s.cur.core a).map (·.1))
/-- Does a commit change the frame directory: does it take or free a frame (R123)? -/
def Work.updatesDir (w : Work) : Bool := w.acts.any (fun a => match a.2 with
    | .falloc _ _ _ | .ffree _ => true
    | _ => false) || match w.ctl with
    | .resume _ => true
    | _ => false
/-- Does a commit arm a slot or take an entry of a queue, which a packet of its A-cycle precedes (R171, R245)? -/
def Work.meetsPackets (w : Work) : Bool := w.acts.any fun a => match a.2 with
  | .arm _ _ _ _ | .deq _ _ _ _ _ => true
  | _ => false
/-- May a context's turn run in an A-cycle in which a frame packet was checked at its core (R123)? Only a commit that leaves
the directory as it is. -/
def afterCheck (s : State) : Bool :=
  let w := s.work
  w.active && headsOf w ≤ w.k && !w.updatesDir && (actsTrap s w {} w.acts).isNone && outcome s w ≠ .trap
/-- A context's turn (R14, R30, R111, R123): what it runs, and the A-cycle's record of it. A head or a commit is the grant
that ends a row of replays; a commit that changes the frame directory and meets no packet comes with the packets of its
A-cycle. -/
def ctxPick (s : State) (c k : Nat) : Pick :=
  let s := { s with cur := ⟨c, k⟩ }
  let x := s.core c
  let w := s.work
  let now := s.acyc
  let head := w.active && w.k < headsOf w
  let m := headSide w.image w.k
  match ctxInstr s c k with
  | none => .still s
  | some i =>
    let early := w.active && !head && w.updatesDir && !w.meetsPackets
    let rank := if early then 6 else x.ctxRank c k
    let cs := if w.active then reached s i else []
    if s.me.replayAt = some now || (x.checkedAt = some now && !afterCheck s) || (head && (!x.mayIssue now k m || !s.offered c k m)) ||
        (w.active && !head && x.commitAt = some now) || (!early && !cs.all fun t => (s.core t).rankOk now rank) then .still s
    else
      let s := s.each cs fun s t => s.modCore t fun x => x.ranked now rank
      .run i (s.modCore c fun x =>
        let x := if head then x.issue now k m else x
        { x with replays := if w.active then merase k x.replays else x.replays,
                 commitAt := if w.active && !head then some now else x.commitAt })
/-- Does an instruction of a loader or storer core reach scratch? -/
def lsReaches : Instr → Bool
  | .cpGo _ _ | .stgAcq _ _ _ | .stgTry _ _ _ | .stgRd _ _ _ | .lsLdw _ _ _ | .lsStw _ _ => true
  | _ => false
/-- The space of an access that a unit of a core has to make at its banks, if it has one. -/
def State.unitAccess (s : State) (c u : Nat) : Option Half :=
  let x := s.core c
  if u < 18 then
    let l := s.ls c (u = 17)
    match lsFetch l with
    | some h => match decodeRv h.1 h.2 with
      | .ok i => if l.running && l.waiting.isNone && lsReaches i then some (s.env c).sid else none
      | .error _ => none
    | none => none
  else if u = 20 then x.mq.head?.map (·.sid)
  else (x.first fun p => if u = 18 then ofEngine c p else (isBankReq p && !ofEngine c p) || isSig p).map fun q => q.1.sid
/-- BANK_REPLAY (R111): an access that its bank did not grant arbitrates again in the next A-cycle, no more than 63 times in a
row; a context's holds its block until then, and its next head or its commit is the grant, which ends the row. Past the 16
contexts stand the core's units, by the numbers of `Core.replays`. Event 5 counts the replay for the access's space (R341). -/
def execBankReplay (core ctx : Nat) (s : State) : Out :=
  let x := s.core core
  let again := fun (s : State) => s.modCore core fun x => { x with replays := mmod 0 ctx (· + 1) x.replays }
  if ctx < 16 then
    needCtx core ctx <|
    let y := s.ctx core ctx
    if y.work.active && y.replayAt ≠ some s.acyc && mget 0 x.replays ctx < 63 then
      .next (((again s).modCtx core ctx fun y => { y with replayAt := some s.acyc }).event core (s.launch y.lid).sid 5 1)
    else .next s
  else
    if 2048 ≤ core || 21 ≤ ctx then .fault .noSuchAgent else
    match s.unitAccess core ctx with
    | some sid =>
      if mget 0 x.replayedAt ctx ≠ s.acyc + 1 && mget 0 x.replays ctx < 63 then
        .next (((again s).modCore core fun x => { x with replayedAt := mput ctx (s.acyc + 1) x.replayedAt }).event core sid 5 1)
      else .next s
    | none => .next s
/-- May a unit's access be made: its bank has not turned it away in this A-cycle? -/
def Core.unitFree (x : Core) (now u : Nat) : Bool := mget 0 x.replayedAt u ≠ now + 1
/-- A unit's access is granted, which ends its row of replays. -/
def Core.unitGrant (x : Core) (u : Nat) : Core := { x with replays := merase u x.replays }
/-- Where the bank accesses of an event stand in R111's order: the core and the rank. -/
def bankRank (s : State) : Instr → Option (Nat × Nat)
  | .refillRequest c | .refillInstall c => some (c, 1)
  | .copyBeatIssue c | .copyBeatComplete c => some (c, 3)
  | .cpGoChannelStart c st | .cpWaitResume c st | .stgAcqResume c st => some (c, if st then 5 else 4)
  | .bankRequest c => some (c, if ((s.core c).first isBankReq).any fun q => ofEngine c q.1 then 3 else 6)
  | .windowAccess c | .framePacketArrival c | .replyDelivery c | .enqEntryArrival c | .amsgArrival c
  | .amsgRetry c | .spawnArrival c | .spawnRetry c | .rbarCompletion c | .popDelivery c | .matrixRequestComplete c => some (c, 6)
  | .matrixRequest c => some (c, (s.core c).ctxRank c 20)
  | _ => none
/-- The cores at whose banks the oldest matrix request makes its accesses: those that hold its operands, or that an `acc.st`
stores to. -/
def State.unitReach (s : State) (c : Nat) : List Nat := match (s.core c).mq with
  | [] => []
  | m :: _ => (m.reads.map (·.1) ++ if m.form = .accSt then [m.addr] else []).filterMap fun a => (s.localAddr c a).map (·.1)
/-- The cores at whose banks an event makes its accesses, besides its own. -/
def alsoReached (s : State) : Instr → List Nat
  | .matrixRequest c => s.unitReach c
  | _ => []
/-- The unit whose access an event makes, by the numbers of `Core.replays`. -/
def unitOf (s : State) : Instr → Option Nat
  | .bankRequest c => some (if ((s.core c).first isBankReq).any fun q => ofEngine c q.1 then 18 else 19)
  | .framePacketArrival _ => some 19
  | .matrixRequest _ => some 20
  | _ => none
/-- Does an event check a packet against the frame directory (R123)? -/
def checksFrame : Instr → Bool
  | .framePacketArrival _ | .replyDelivery _ | .rbarCompletion _ | .copyBeatComplete _ | .matrixRequestComplete _ => true
  | _ => false
/-- The core in which an event takes or frees a frame at once (R120, R123). -/
def takesFrame : Instr → Option Nat
  | .amsgArrival c | .amsgRetry c | .spawnArrival c | .spawnRetry c | .popDelivery c | .tokenBind c => some c
  | _ => none
/-- Is it an event, and not a head, a stream program's instruction or a step of a context's block? -/
def isEvent (i : Instr) : Bool := (encode i).isNone && match i with
  | .blockExecute _ _ | .blockCommit _ _ | .lineFetch _ _ => false
  | _ => true
/-- The host port whose register accesses an event is: they take effect after the port's earlier accesses to memory (R240). -/
def portParty : Instr → Option Party
  | .stcInvAll p _ _ | .stcInvSid p _ _ | .stcInvPage p _ _ | .faultReplay p _ _ | .faultFatal p _ _ | .launchSubmit p _
  | .duskWave p _ | .freezeInPlace p _ | .thaw p _ | .restore p _ | .dbgGo p _ | .dbgGoLoader p _ | .ownershipClaim p _
  | .ownHandover p _ | .ownRelease p | .budgetWrite p _ | .svnBurn p _ | .attestationRequest p | .spaceRetire p _
  | .cfgDataRead p | .cfgDataWrite p _ | .registerWrite p _ _ => some p
  | _ => none
/-- An event's turn (R94, R111, R123, R240). -/
def evPick (s : State) (i : Instr) : Pick :=
  let now := s.acyc
  let late := match takesFrame i with
    | some c => (s.core c).checkedAt = some now
    | none => false
  let queued := match portParty i with
    | some p => mget [] s.host.queue (Party.code p) ≠ []
    | none => false
  if !isEvent i || late || queued then .still s
  else match bankRank s i with
    | none => .run i s
    | some (c, r) =>
      let x := s.core c
      if 2048 ≤ c then .run i s
      else if !x.rankOk now r || !((alsoReached s i).all fun t => (s.core t).rankOk now r) ||
        !((unitOf s i).all fun u => x.unitFree now u) then .still s
      else .run i ((s.each (alsoReached s i) fun s t => s.modCore t fun x => x.ranked now r).modCore c fun x =>
        let x := ((unitOf s i).map x.unitGrant).getD x
        { x.ranked now r with checkedAt := if checksFrame i then some now else x.checkedAt })

/-- The turn of the step and the state without it (log 1): the head of the list, else the free turn of this tick. -/
def State.takeTurn (s : State) : Turn × State :=
  let s' := { s with tick := s.tick + 1 }
  match s.turns with
  | t :: rest => (t, { s' with turns := rest })
  | [] => (Config.freeTurn s.tick, s')
/-- A loader or storer core's turn: the instruction at its pc, or the stream fault that fetching or decoding it gives. -/
def lsPick (s : State) (c : Nat) (st : Bool) : Pick :=
  let l := s.ls c st
  let rank := if st then 5 else 4
  if !l.running || l.waiting.isSome || (s.core c).stopped || !(s.core c).rankOk s.acyc rank ||
      !(s.core c).unitFree s.acyc (if st then 17 else 16) then .still s
  else
    let s := s.modCore c fun x => (x.ranked s.acyc rank).unitGrant (if st then 17 else 16)
    match lsFetch l with
    | none => .still (s.streamFault c st 2 0)
    | some (h0, h1) =>
      match decodeRv h0 h1 with
      | .ok i => .run i { s with cur := ⟨c, if st then 17 else 16⟩ }
      | .error _ => .still (s.streamFault c st 1 0)
/-- A turn in a state (log 1). -/
def pickTurn (t : Turn) (s : State) : Pick :=
  match t with
  | .ctx c k => ctxPick s c k
  | .ls c st => lsPick s c st
  | .ev i => evPick s i
  | .aCycle => .still s.aTick
  | .fCycle => .still s.fTick
/-- What a step does. -/
def pick (s : State) : Pick := pickTurn s.takeTurn.1 s.takeTurn.2

/-- The halfwords of an instruction given by its bits (bit 0 the least of the first). -/
def halvesOf (nbits w : Nat) : List Half := (List.range ((nbits + 15) / 16)).map fun k => BitVec.ofNat 16 (w / 2 ^ (16 * k))
/-- A line that holds one head with its tail at the end of the line (R21, R23). -/
def oneHeadLine (hs : List Half) : Line64 :=
  let tail := hs.drop 1
  let hdr := 2 ^ 11 + tail.length * 2 ^ 6
  BitVec.ofNat 512 (hdr + (hs.headD 0).toNat * 2 ^ 48 +
    (tail.zipIdx.map fun p => p.1.toNat * 2 ^ (16 * (32 - tail.length + p.2))).sum)
/-- Place an instruction where the next step fetches it (log 16): a word of the loader and storer cores at the pc of the
loader core of core 0; a head in a block in progress on context 0 of core 0. -/
def State.placeWord (s : State) (nbits w : Nat) : State :=
  let hs := halvesOf nbits w
  if nbits ≤ 32 then
    let l := (s.core 0).loader
    let bs := (hs.map fun h => natLe 2 h.toNat).flatten
    { s.modCore 0 fun x => { x with stopped := false, phase := (0, 0), replayedAt := [], loader :=
        { l with imem := writeMap l.imem l.pc.toNat (whole bs), running := true, waiting := none } }
      with turns := [.ls 0 false] }
  else
    { (s.modCtx 0 0 fun x => { x with bound := true, replayAt := none, work :=
        { active := true, line := lineOf x.pos, image := oneHeadLine hs, k := 0, regs := x.regs } }).modCore 0 fun x =>
          { x with checkedAt := none, issueS := none, issueM := none, rrS := 0, rrM := 0, phase := (0, 0) }
      with turns := [.ctx 0 0] }

end Sys2Proof.Machine
end

