-- ==== Sys2Proof/Machine/Dispatch.lean ====
section
/-! DEFINITION. Dispatch.lean: one arm per constructor of Instr, each a direct call of the instruction's meaning. -/

namespace Sys2Proof.Machine

def exec (i : Instr) (s : State) : Host.Outcome State Fault Refusal :=
  match i with
  | .blockExecute a0 a1 => Sys2Proof.Machine.execBlockExecute a0 a1 s
  | .blockCommit a0 a1 => Sys2Proof.Machine.execBlockCommit a0 a1 s
  | .lineFetch a0 a1 => Sys2Proof.Machine.execLineFetch a0 a1 s
  | .lineFetchArrival a0 => Sys2Proof.Machine.execLineFetchArrival a0 s
  | .endT a0 => Sys2Proof.Machine.execEndT a0 s
  | .next a0 => Sys2Proof.Machine.execNext a0 s
  | .nop a0 => Sys2Proof.Machine.execNop a0 s
  | .bEq a0 a1 a2 a3 => Sys2Proof.Machine.execBEq a0 a1 a2 a3 s
  | .bNe a0 a1 a2 a3 => Sys2Proof.Machine.execBNe a0 a1 a2 a3 s
  | .bLt a0 a1 a2 a3 => Sys2Proof.Machine.execBLt a0 a1 a2 a3 s
  | .bGe a0 a1 a2 a3 => Sys2Proof.Machine.execBGe a0 a1 a2 a3 s
  | .bLtu a0 a1 a2 a3 => Sys2Proof.Machine.execBLtu a0 a1 a2 a3 s
  | .bGeu a0 a1 a2 a3 => Sys2Proof.Machine.execBGeu a0 a1 a2 a3 s
  | .bLtz a0 a1 a2 => Sys2Proof.Machine.execBLtz a0 a1 a2 s
  | .bGez a0 a1 a2 => Sys2Proof.Machine.execBGez a0 a1 a2 s
  | .bqAny a0 a1 a2 => Sys2Proof.Machine.execBqAny a0 a1 a2 s
  | .bqAll a0 a1 a2 => Sys2Proof.Machine.execBqAll a0 a1 a2 s
  | .jal a0 a1 a2 => Sys2Proof.Machine.execJal a0 a1 a2 s
  | .jr a0 a1 => Sys2Proof.Machine.execJr a0 a1 s
  | .loop a0 a1 a2 => Sys2Proof.Machine.execLoop a0 a1 a2 s
  | .loopi a0 a1 a2 => Sys2Proof.Machine.execLoopi a0 a1 a2 s
  | .sarm a0 a1 a2 a3 a4 a5 => Sys2Proof.Machine.execSarm a0 a1 a2 a3 a4 a5 s
  | .sig a0 a1 a2 a3 a4 => Sys2Proof.Machine.execSig a0 a1 a2 a3 a4 s
  | .sigw a0 a1 a2 a3 a4 a5 a6 => Sys2Proof.Machine.execSigw a0 a1 a2 a3 a4 a5 a6 s
  | .sigv a0 a1 a2 a3 a4 a5 a6 => Sys2Proof.Machine.execSigv a0 a1 a2 a3 a4 a5 a6 s
  | .falloc a0 a1 a2 => Sys2Proof.Machine.execFalloc a0 a1 a2 s
  | .ffree a0 a1 => Sys2Proof.Machine.execFfree a0 a1 s
  | .fpin a0 a1 => Sys2Proof.Machine.execFpin a0 a1 s
  | .funpin a0 a1 => Sys2Proof.Machine.execFunpin a0 a1 s
  | .spawn a0 a1 a2 a3 a4 a5 a6 a7 => Sys2Proof.Machine.execSpawn a0 a1 a2 a3 a4 a5 a6 a7 s
  | .tspawn a0 a1 a2 a3 => Sys2Proof.Machine.execTspawn a0 a1 a2 a3 s
  | .launch a0 a1 a2 a3 a4 => Sys2Proof.Machine.execLaunch a0 a1 a2 a3 a4 s
  | .rbar a0 a1 a2 a3 a4 => Sys2Proof.Machine.execRbar a0 a1 a2 a3 a4 s
  | .rid a0 a1 a2 => Sys2Proof.Machine.execRid a0 a1 a2 s
  | .fld a0 a1 a2 a3 a4 => Sys2Proof.Machine.execFld a0 a1 a2 a3 a4 s
  | .fst a0 a1 a2 a3 a4 => Sys2Proof.Machine.execFst a0 a1 a2 a3 a4 s
  | .fldv a0 a1 a2 a3 a4 => Sys2Proof.Machine.execFldv a0 a1 a2 a3 a4 s
  | .fstv a0 a1 a2 a3 a4 => Sys2Proof.Machine.execFstv a0 a1 a2 a3 a4 s
  | .trap a0 a1 => Sys2Proof.Machine.execTrap a0 a1 s
  | .brk a0 a1 => Sys2Proof.Machine.execBrk a0 a1 s
  | .tresume a0 a1 => Sys2Proof.Machine.execTresume a0 a1 s
  | .add a0 a1 a2 a3 => Sys2Proof.Machine.execAdd a0 a1 a2 a3 s
  | .sub a0 a1 a2 a3 => Sys2Proof.Machine.execSub a0 a1 a2 a3 s
  | .mul a0 a1 a2 a3 => Sys2Proof.Machine.execMul a0 a1 a2 a3 s
  | .mulh a0 a1 a2 a3 => Sys2Proof.Machine.execMulh a0 a1 a2 a3 s
  | .mulhu a0 a1 a2 a3 => Sys2Proof.Machine.execMulhu a0 a1 a2 a3 s
  | .div a0 a1 a2 a3 => Sys2Proof.Machine.execDiv a0 a1 a2 a3 s
  | .divu a0 a1 a2 a3 => Sys2Proof.Machine.execDivu a0 a1 a2 a3 s
  | .rem a0 a1 a2 a3 => Sys2Proof.Machine.execRem a0 a1 a2 a3 s
  | .remu a0 a1 a2 a3 => Sys2Proof.Machine.execRemu a0 a1 a2 a3 s
  | .min a0 a1 a2 a3 => Sys2Proof.Machine.execMin a0 a1 a2 a3 s
  | .max a0 a1 a2 a3 => Sys2Proof.Machine.execMax a0 a1 a2 a3 s
  | .minu a0 a1 a2 a3 => Sys2Proof.Machine.execMinu a0 a1 a2 a3 s
  | .maxu a0 a1 a2 a3 => Sys2Proof.Machine.execMaxu a0 a1 a2 a3 s
  | .and a0 a1 a2 a3 => Sys2Proof.Machine.execAnd a0 a1 a2 a3 s
  | .or a0 a1 a2 a3 => Sys2Proof.Machine.execOr a0 a1 a2 a3 s
  | .xor a0 a1 a2 a3 => Sys2Proof.Machine.execXor a0 a1 a2 a3 s
  | .andn a0 a1 a2 a3 => Sys2Proof.Machine.execAndn a0 a1 a2 a3 s
  | .sll a0 a1 a2 a3 => Sys2Proof.Machine.execSll a0 a1 a2 a3 s
  | .srl a0 a1 a2 a3 => Sys2Proof.Machine.execSrl a0 a1 a2 a3 s
  | .sra a0 a1 a2 a3 => Sys2Proof.Machine.execSra a0 a1 a2 a3 s
  | .rol a0 a1 a2 a3 => Sys2Proof.Machine.execRol a0 a1 a2 a3 s
  | .ror a0 a1 a2 a3 => Sys2Proof.Machine.execRor a0 a1 a2 a3 s
  | .clz a0 a1 a2 => Sys2Proof.Machine.execClz a0 a1 a2 s
  | .ctz a0 a1 a2 => Sys2Proof.Machine.execCtz a0 a1 a2 s
  | .popc a0 a1 a2 => Sys2Proof.Machine.execPopc a0 a1 a2 s
  | .bswap a0 a1 a2 => Sys2Proof.Machine.execBswap a0 a1 a2 s
  | .seq a0 a1 a2 a3 => Sys2Proof.Machine.execSeq a0 a1 a2 a3 s
  | .sne a0 a1 a2 a3 => Sys2Proof.Machine.execSne a0 a1 a2 a3 s
  | .slt a0 a1 a2 a3 => Sys2Proof.Machine.execSlt a0 a1 a2 a3 s
  | .sltu a0 a1 a2 a3 => Sys2Proof.Machine.execSltu a0 a1 a2 a3 s
  | .sext a0 a1 a2 a3 => Sys2Proof.Machine.execSext a0 a1 a2 a3 s
  | .zext a0 a1 a2 a3 => Sys2Proof.Machine.execZext a0 a1 a2 a3 s
  | .bfx a0 a1 a2 a3 a4 => Sys2Proof.Machine.execBfx a0 a1 a2 a3 a4 s
  | .bfxu a0 a1 a2 a3 a4 => Sys2Proof.Machine.execBfxu a0 a1 a2 a3 a4 s
  | .bfi a0 a1 a2 a3 a4 a5 => Sys2Proof.Machine.execBfi a0 a1 a2 a3 a4 a5 s
  | .sel a0 a1 a2 a3 a4 => Sys2Proof.Machine.execSel a0 a1 a2 a3 a4 s
  | .addi a0 a1 a2 a3 => Sys2Proof.Machine.execAddi a0 a1 a2 a3 s
  | .andi a0 a1 a2 a3 => Sys2Proof.Machine.execAndi a0 a1 a2 a3 s
  | .ori a0 a1 a2 a3 => Sys2Proof.Machine.execOri a0 a1 a2 a3 s
  | .xori a0 a1 a2 a3 => Sys2Proof.Machine.execXori a0 a1 a2 a3 s
  | .slli a0 a1 a2 a3 => Sys2Proof.Machine.execSlli a0 a1 a2 a3 s
  | .srli a0 a1 a2 a3 => Sys2Proof.Machine.execSrli a0 a1 a2 a3 s
  | .srai a0 a1 a2 a3 => Sys2Proof.Machine.execSrai a0 a1 a2 a3 s
  | .slti a0 a1 a2 a3 => Sys2Proof.Machine.execSlti a0 a1 a2 a3 s
  | .sltiu a0 a1 a2 a3 => Sys2Proof.Machine.execSltiu a0 a1 a2 a3 s
  | .lea a0 a1 a2 a3 a4 a5 => Sys2Proof.Machine.execLea a0 a1 a2 a3 a4 a5 s
  | .li a0 a1 a2 => Sys2Proof.Machine.execLi a0 a1 a2 s
  | .lih a0 a1 a2 a3 => Sys2Proof.Machine.execLih a0 a1 a2 a3 s
  | .mov a0 a1 a2 => Sys2Proof.Machine.execMov a0 a1 a2 s
  | .fadd a0 a1 a2 a3 a4 a5 => Sys2Proof.Machine.execFadd a0 a1 a2 a3 a4 a5 s
  | .fsub a0 a1 a2 a3 a4 a5 => Sys2Proof.Machine.execFsub a0 a1 a2 a3 a4 a5 s
  | .fmul a0 a1 a2 a3 a4 a5 => Sys2Proof.Machine.execFmul a0 a1 a2 a3 a4 a5 s
  | .fdiv a0 a1 a2 a3 a4 a5 => Sys2Proof.Machine.execFdiv a0 a1 a2 a3 a4 a5 s
  | .fsqrt a0 a1 a2 a3 a4 => Sys2Proof.Machine.execFsqrt a0 a1 a2 a3 a4 s
  | .fma a0 a1 a2 a3 a4 a5 a6 => Sys2Proof.Machine.execFma a0 a1 a2 a3 a4 a5 a6 s
  | .fmin a0 a1 a2 a3 a4 => Sys2Proof.Machine.execFmin a0 a1 a2 a3 a4 s
  | .fmax a0 a1 a2 a3 a4 => Sys2Proof.Machine.execFmax a0 a1 a2 a3 a4 s
  | .fcmp a0 a1 a2 a3 a4 a5 => Sys2Proof.Machine.execFcmp a0 a1 a2 a3 a4 a5 s
  | .fclass a0 a1 a2 a3 => Sys2Proof.Machine.execFclass a0 a1 a2 a3 s
  | .fsgnj a0 a1 a2 a3 a4 a5 => Sys2Proof.Machine.execFsgnj a0 a1 a2 a3 a4 a5 s
  | .fcvt a0 a1 a2 a3 a4 a5 => Sys2Proof.Machine.execFcvt a0 a1 a2 a3 a4 a5 s
  | .vfadd a0 a1 a2 a3 a4 a5 => Sys2Proof.Machine.execVfadd a0 a1 a2 a3 a4 a5 s
  | .vfsub a0 a1 a2 a3 a4 a5 => Sys2Proof.Machine.execVfsub a0 a1 a2 a3 a4 a5 s
  | .vfmul a0 a1 a2 a3 a4 a5 => Sys2Proof.Machine.execVfmul a0 a1 a2 a3 a4 a5 s
  | .vfma a0 a1 a2 a3 a4 a5 a6 => Sys2Proof.Machine.execVfma a0 a1 a2 a3 a4 a5 a6 s
  | .vfmin a0 a1 a2 a3 a4 => Sys2Proof.Machine.execVfmin a0 a1 a2 a3 a4 s
  | .vfmax a0 a1 a2 a3 a4 => Sys2Proof.Machine.execVfmax a0 a1 a2 a3 a4 s
  | .vfdiv a0 a1 a2 a3 a4 a5 => Sys2Proof.Machine.execVfdiv a0 a1 a2 a3 a4 a5 s
  | .vfsqrt a0 a1 a2 a3 a4 => Sys2Proof.Machine.execVfsqrt a0 a1 a2 a3 a4 s
  | .vadd a0 a1 a2 a3 a4 a5 => Sys2Proof.Machine.execVadd a0 a1 a2 a3 a4 a5 s
  | .vsub a0 a1 a2 a3 a4 a5 => Sys2Proof.Machine.execVsub a0 a1 a2 a3 a4 a5 s
  | .vmul a0 a1 a2 a3 a4 => Sys2Proof.Machine.execVmul a0 a1 a2 a3 a4 s
  | .vmulh a0 a1 a2 a3 a4 => Sys2Proof.Machine.execVmulh a0 a1 a2 a3 a4 s
  | .vmin a0 a1 a2 a3 a4 => Sys2Proof.Machine.execVmin a0 a1 a2 a3 a4 s
  | .vmax a0 a1 a2 a3 a4 => Sys2Proof.Machine.execVmax a0 a1 a2 a3 a4 s
  | .vand a0 a1 a2 a3 a4 => Sys2Proof.Machine.execVand a0 a1 a2 a3 a4 s
  | .vor a0 a1 a2 a3 a4 => Sys2Proof.Machine.execVor a0 a1 a2 a3 a4 s
  | .vxor a0 a1 a2 a3 a4 => Sys2Proof.Machine.execVxor a0 a1 a2 a3 a4 s
  | .vsll a0 a1 a2 a3 a4 => Sys2Proof.Machine.execVsll a0 a1 a2 a3 a4 s
  | .vsrl a0 a1 a2 a3 a4 => Sys2Proof.Machine.execVsrl a0 a1 a2 a3 a4 s
  | .vsra a0 a1 a2 a3 a4 => Sys2Proof.Machine.execVsra a0 a1 a2 a3 a4 s
  | .vfcmp a0 a1 a2 a3 a4 a5 => Sys2Proof.Machine.execVfcmp a0 a1 a2 a3 a4 a5 s
  | .vcmp a0 a1 a2 a3 a4 a5 => Sys2Proof.Machine.execVcmp a0 a1 a2 a3 a4 a5 s
  | .vsel a0 a1 a2 a3 a4 a5 => Sys2Proof.Machine.execVsel a0 a1 a2 a3 a4 a5 s
  | .vredsum a0 a1 a2 a3 => Sys2Proof.Machine.execVredsum a0 a1 a2 a3 s
  | .vredmin a0 a1 a2 a3 => Sys2Proof.Machine.execVredmin a0 a1 a2 a3 s
  | .vredmax a0 a1 a2 a3 => Sys2Proof.Machine.execVredmax a0 a1 a2 a3 s
  | .vscan a0 a1 a2 a3 a4 => Sys2Proof.Machine.execVscan a0 a1 a2 a3 a4 s
  | .vperm a0 a1 a2 a3 a4 => Sys2Proof.Machine.execVperm a0 a1 a2 a3 a4 s
  | .vbcast a0 a1 a2 a3 => Sys2Proof.Machine.execVbcast a0 a1 a2 a3 s
  | .vext a0 a1 a2 a3 a4 => Sys2Proof.Machine.execVext a0 a1 a2 a3 a4 s
  | .vins a0 a1 a2 a3 a4 => Sys2Proof.Machine.execVins a0 a1 a2 a3 a4 s
  | .vcompress a0 a1 a2 a3 => Sys2Proof.Machine.execVcompress a0 a1 a2 a3 s
  | .vexpand a0 a1 a2 a3 => Sys2Proof.Machine.execVexpand a0 a1 a2 a3 s
  | .vcvt a0 a1 a2 a3 a4 a5 a6 => Sys2Proof.Machine.execVcvt a0 a1 a2 a3 a4 a5 a6 s
  | .vexp2 a0 a1 a2 a3 => Sys2Proof.Machine.execVexp2 a0 a1 a2 a3 s
  | .vrcp a0 a1 a2 a3 => Sys2Proof.Machine.execVrcp a0 a1 a2 a3 s
  | .vrsqrt a0 a1 a2 a3 => Sys2Proof.Machine.execVrsqrt a0 a1 a2 a3 s
  | .pmaskLt a0 a1 a2 a3 a4 => Sys2Proof.Machine.execPmaskLt a0 a1 a2 a3 a4 s
  | .pand a0 a1 a2 a3 => Sys2Proof.Machine.execPand a0 a1 a2 a3 s
  | .por a0 a1 a2 a3 => Sys2Proof.Machine.execPor a0 a1 a2 a3 s
  | .pxor a0 a1 a2 a3 => Sys2Proof.Machine.execPxor a0 a1 a2 a3 s
  | .pnot a0 a1 a2 => Sys2Proof.Machine.execPnot a0 a1 a2 s
  | .pcnt a0 a1 a2 => Sys2Proof.Machine.execPcnt a0 a1 a2 s
  | .pfirst a0 a1 a2 => Sys2Proof.Machine.execPfirst a0 a1 a2 s
  | .ld a0 a1 a2 a3 a4 a5 => Sys2Proof.Machine.execLd a0 a1 a2 a3 a4 a5 s
  | .st a0 a1 a2 a3 a4 a5 => Sys2Proof.Machine.execSt a0 a1 a2 a3 a4 a5 s
  | .vld a0 a1 a2 a3 a4 a5 => Sys2Proof.Machine.execVld a0 a1 a2 a3 a4 a5 s
  | .vst a0 a1 a2 a3 a4 a5 => Sys2Proof.Machine.execVst a0 a1 a2 a3 a4 a5 s
  | .vldf a0 a1 a2 a3 a4 a5 => Sys2Proof.Machine.execVldf a0 a1 a2 a3 a4 a5 s
  | .vstq a0 a1 a2 a3 a4 a5 a6 => Sys2Proof.Machine.execVstq a0 a1 a2 a3 a4 a5 a6 s
  | .get a0 a1 a2 a3 a4 a5 => Sys2Proof.Machine.execGet a0 a1 a2 a3 a4 a5 s
  | .put a0 a1 a2 a3 a4 a5 => Sys2Proof.Machine.execPut a0 a1 a2 a3 a4 a5 s
  | .vget a0 a1 a2 a3 a4 => Sys2Proof.Machine.execVget a0 a1 a2 a3 a4 s
  | .vput a0 a1 a2 a3 a4 => Sys2Proof.Machine.execVput a0 a1 a2 a3 a4 s
  | .copy a0 a1 a2 a3 a4 a5 => Sys2Proof.Machine.execCopy a0 a1 a2 a3 a4 a5 s
  | .gather a0 a1 a2 a3 a4 a5 a6 a7 a8 => Sys2Proof.Machine.execGather a0 a1 a2 a3 a4 a5 a6 a7 a8 s
  | .scatter a0 a1 a2 a3 a4 a5 a6 a7 a8 => Sys2Proof.Machine.execScatter a0 a1 a2 a3 a4 a5 a6 a7 a8 s
  | .amsg a0 a1 a2 a3 a4 a5 a6 => Sys2Proof.Machine.execAmsg a0 a1 a2 a3 a4 a5 a6 s
  | .own a0 a1 a2 a3 a4 a5 => Sys2Proof.Machine.execOwn a0 a1 a2 a3 a4 a5 s
  | .ldfe a0 a1 a2 a3 a4 => Sys2Proof.Machine.execLdfe a0 a1 a2 a3 a4 s
  | .stef a0 a1 a2 a3 a4 => Sys2Proof.Machine.execStef a0 a1 a2 a3 a4 s
  | .tagf a0 a1 a2 a3 => Sys2Proof.Machine.execTagf a0 a1 a2 a3 s
  | .tage a0 a1 a2 a3 => Sys2Proof.Machine.execTage a0 a1 a2 a3 s
  | .amoAdd a0 a1 a2 a3 a4 a5 a6 => Sys2Proof.Machine.execAmoAdd a0 a1 a2 a3 a4 a5 a6 s
  | .amoAnd a0 a1 a2 a3 a4 a5 a6 => Sys2Proof.Machine.execAmoAnd a0 a1 a2 a3 a4 a5 a6 s
  | .amoOr a0 a1 a2 a3 a4 a5 a6 => Sys2Proof.Machine.execAmoOr a0 a1 a2 a3 a4 a5 a6 s
  | .amoXor a0 a1 a2 a3 a4 a5 a6 => Sys2Proof.Machine.execAmoXor a0 a1 a2 a3 a4 a5 a6 s
  | .amoMin a0 a1 a2 a3 a4 a5 a6 => Sys2Proof.Machine.execAmoMin a0 a1 a2 a3 a4 a5 a6 s
  | .amoMax a0 a1 a2 a3 a4 a5 a6 => Sys2Proof.Machine.execAmoMax a0 a1 a2 a3 a4 a5 a6 s
  | .amoSwap a0 a1 a2 a3 a4 a5 a6 => Sys2Proof.Machine.execAmoSwap a0 a1 a2 a3 a4 a5 a6 s
  | .amoCas a0 a1 a2 a3 a4 a5 a6 a7 => Sys2Proof.Machine.execAmoCas a0 a1 a2 a3 a4 a5 a6 a7 s
  | .redAdd a0 a1 a2 a3 a4 => Sys2Proof.Machine.execRedAdd a0 a1 a2 a3 a4 s
  | .redMin a0 a1 a2 a3 a4 => Sys2Proof.Machine.execRedMin a0 a1 a2 a3 a4 s
  | .redMax a0 a1 a2 a3 a4 => Sys2Proof.Machine.execRedMax a0 a1 a2 a3 a4 s
  | .csnap a0 a1 a2 a3 a4 => Sys2Proof.Machine.execCsnap a0 a1 a2 a3 a4 s
  | .fenceRel a0 a1 => Sys2Proof.Machine.execFenceRel a0 a1 s
  | .fenceAcq a0 a1 => Sys2Proof.Machine.execFenceAcq a0 a1 s
  | .sigRel a0 a1 a2 a3 a4 => Sys2Proof.Machine.execSigRel a0 a1 a2 a3 a4 s
  | .enq a0 a1 a2 a3 a4 a5 a6 => Sys2Proof.Machine.execEnq a0 a1 a2 a3 a4 a5 a6 s
  | .enqA a0 a1 a2 a3 a4 a5 a6 => Sys2Proof.Machine.execEnqA a0 a1 a2 a3 a4 a5 a6 s
  | .deq a0 a1 a2 a3 a4 a5 a6 => Sys2Proof.Machine.execDeq a0 a1 a2 a3 a4 a5 a6 s
  | .stgClaim a0 a1 a2 => Sys2Proof.Machine.execStgClaim a0 a1 a2 s
  | .stgFree a0 a1 a2 => Sys2Proof.Machine.execStgFree a0 a1 a2 s
  | .mma a0 a1 a2 a3 a4 a5 a6 => Sys2Proof.Machine.execMma a0 a1 a2 a3 a4 a5 a6 s
  | .mmaF32 a0 a1 a2 a3 a4 a5 a6 => Sys2Proof.Machine.execMmaF32 a0 a1 a2 a3 a4 a5 a6 s
  | .mmaF64 a0 a1 a2 a3 a4 a5 a6 => Sys2Proof.Machine.execMmaF64 a0 a1 a2 a3 a4 a5 a6 s
  | .mmag a0 a1 a2 a3 a4 a5 a6 a7 => Sys2Proof.Machine.execMmag a0 a1 a2 a3 a4 a5 a6 a7 s
  | .mmas a0 a1 a2 a3 a4 a5 a6 => Sys2Proof.Machine.execMmas a0 a1 a2 a3 a4 a5 a6 s
  | .mscan a0 a1 a2 a3 a4 a5 a6 => Sys2Proof.Machine.execMscan a0 a1 a2 a3 a4 a5 a6 s
  | .mscanSeg a0 a1 a2 a3 a4 a5 a6 => Sys2Proof.Machine.execMscanSeg a0 a1 a2 a3 a4 a5 a6 s
  | .accGet a0 a1 => Sys2Proof.Machine.execAccGet a0 a1 s
  | .accGive a0 a1 => Sys2Proof.Machine.execAccGive a0 a1 s
  | .accZero a0 a1 => Sys2Proof.Machine.execAccZero a0 a1 s
  | .accLd a0 a1 a2 a3 a4 a5 a6 => Sys2Proof.Machine.execAccLd a0 a1 a2 a3 a4 a5 a6 s
  | .accSt a0 a1 a2 a3 a4 a5 a6 => Sys2Proof.Machine.execAccSt a0 a1 a2 a3 a4 a5 a6 s
  | .accAdd a0 a1 a2 a3 => Sys2Proof.Machine.execAccAdd a0 a1 a2 a3 s
  | .accRed a0 a1 a2 a3 => Sys2Proof.Machine.execAccRed a0 a1 a2 a3 s
  | .qtile a0 a1 a2 a3 a4 a5 a6 => Sys2Proof.Machine.execQtile a0 a1 a2 a3 a4 a5 a6 s
  | .fmtSet a0 a1 a2 => Sys2Proof.Machine.execFmtSet a0 a1 a2 s
  | .fmtGet a0 a1 a2 => Sys2Proof.Machine.execFmtGet a0 a1 a2 s
  | .sysr a0 a1 a2 => Sys2Proof.Machine.execSysr a0 a1 a2 s
  | .sysw a0 a1 a2 => Sys2Proof.Machine.execSysw a0 a1 a2 s
  | .ctrRd a0 a1 a2 => Sys2Proof.Machine.execCtrRd a0 a1 a2 s
  | .ctrCfg a0 a1 a2 => Sys2Proof.Machine.execCtrCfg a0 a1 a2 s
  | .rv64imcInstruction a0 => Sys2Proof.Machine.execRv64imcInstruction a0 s
  | .cpGo a0 a1 => Sys2Proof.Machine.execCpGo a0 a1 s
  | .cpWait a0 a1 a2 => Sys2Proof.Machine.execCpWait a0 a1 a2 s
  | .cpStat a0 a1 => Sys2Proof.Machine.execCpStat a0 a1 s
  | .lsSig a0 a1 => Sys2Proof.Machine.execLsSig a0 a1 s
  | .lsRid a0 a1 => Sys2Proof.Machine.execLsRid a0 a1 s
  | .lsEnd => Sys2Proof.Machine.execLsEnd s
  | .stgAcq a0 a1 a2 => Sys2Proof.Machine.execStgAcq a0 a1 a2 s
  | .stgTry a0 a1 a2 => Sys2Proof.Machine.execStgTry a0 a1 a2 s
  | .stgRd a0 a1 a2 => Sys2Proof.Machine.execStgRd a0 a1 a2 s
  | .epRd a0 a1 a2 => Sys2Proof.Machine.execEpRd a0 a1 a2 s
  | .lsLdw a0 a1 a2 => Sys2Proof.Machine.execLsLdw a0 a1 a2 s
  | .lsStw a0 a1 => Sys2Proof.Machine.execLsStw a0 a1 s
  | .cpGoChannelStart a0 a1 => Sys2Proof.Machine.execCpGoChannelStart a0 a1 s
  | .cpWaitResume a0 a1 => Sys2Proof.Machine.execCpWaitResume a0 a1 s
  | .stgAcqResume a0 a1 => Sys2Proof.Machine.execStgAcqResume a0 a1 s
  | .copyBeatComplete a0 => Sys2Proof.Machine.execCopyBeatComplete a0 s
  | .sliceRequest a0 => Sys2Proof.Machine.execSliceRequest a0 s
  | .mergeWindowClose a0 => Sys2Proof.Machine.execMergeWindowClose a0 s
  | .lineFill a0 => Sys2Proof.Machine.execLineFill a0 s
  | .redInjectRelease a0 => Sys2Proof.Machine.execRedInjectRelease a0 s
  | .stcInvAll a0 a1 a2 => Sys2Proof.Machine.execStcInvAll a0 a1 a2 s
  | .stcInvSid a0 a1 a2 => Sys2Proof.Machine.execStcInvSid a0 a1 a2 s
  | .stcInvPage a0 a1 a2 => Sys2Proof.Machine.execStcInvPage a0 a1 a2 s
  | .stcInvWriteback a0 => Sys2Proof.Machine.execStcInvWriteback a0 s
  | .stcInvComplete a0 => Sys2Proof.Machine.execStcInvComplete a0 s
  | .faultReplay a0 a1 a2 => Sys2Proof.Machine.execFaultReplay a0 a1 a2 s
  | .faultFatal a0 a1 a2 => Sys2Proof.Machine.execFaultFatal a0 a1 a2 s
  | .bankRequest a0 => Sys2Proof.Machine.execBankRequest a0 s
  | .bankReplay a0 a1 => Sys2Proof.Machine.execBankReplay a0 a1 s
  | .feRetry a0 => Sys2Proof.Machine.execFeRetry a0 s
  | .spillAcknowledged a0 => Sys2Proof.Machine.execSpillAcknowledged a0 s
  | .framePacketArrival a0 => Sys2Proof.Machine.execFramePacketArrival a0 s
  | .forwardedSignal a0 => Sys2Proof.Machine.execForwardedSignal a0 s
  | .refillRequest a0 => Sys2Proof.Machine.execRefillRequest a0 s
  | .refillReadComplete a0 => Sys2Proof.Machine.execRefillReadComplete a0 s
  | .refillInstall a0 => Sys2Proof.Machine.execRefillInstall a0 s
  | .replyDelivery a0 => Sys2Proof.Machine.execReplyDelivery a0 s
  | .tokenBind a0 => Sys2Proof.Machine.execTokenBind a0 s
  | .tokenPromotion a0 => Sys2Proof.Machine.execTokenPromotion a0 s
  | .amsgArrival a0 => Sys2Proof.Machine.execAmsgArrival a0 s
  | .amsgRetry a0 => Sys2Proof.Machine.execAmsgRetry a0 s
  | .spawnArrival a0 => Sys2Proof.Machine.execSpawnArrival a0 s
  | .spawnRetry a0 => Sys2Proof.Machine.execSpawnRetry a0 s
  | .enqEntryArrival a0 => Sys2Proof.Machine.execEnqEntryArrival a0 s
  | .enqBufferRelease a0 => Sys2Proof.Machine.execEnqBufferRelease a0 s
  | .creditArrival a0 => Sys2Proof.Machine.execCreditArrival a0 s
  | .heldPacketRelease a0 => Sys2Proof.Machine.execHeldPacketRelease a0 s
  | .rbarArrival a0 => Sys2Proof.Machine.execRbarArrival a0 s
  | .rbarCompletion a0 => Sys2Proof.Machine.execRbarCompletion a0 s
  | .matrixRequest a0 => Sys2Proof.Machine.execMatrixRequest a0 s
  | .matrixRequestComplete a0 => Sys2Proof.Machine.execMatrixRequestComplete a0 s
  | .taskPush a0 => Sys2Proof.Machine.execTaskPush a0 s
  | .pop a0 a1 => Sys2Proof.Machine.execPop a0 a1 s
  | .popDelivery a0 => Sys2Proof.Machine.execPopDelivery a0 s
  | .popRetry a0 => Sys2Proof.Machine.execPopRetry a0 s
  | .stealRequest a0 => Sys2Proof.Machine.execStealRequest a0 s
  | .stealReply a0 => Sys2Proof.Machine.execStealReply a0 s
  | .stealRetry a0 a1 => Sys2Proof.Machine.execStealRetry a0 a1 s
  | .packetArrivalRouter a0 a1 => Sys2Proof.Machine.execPacketArrivalRouter a0 a1 s
  | .routerGrant a0 a1 a2 => Sys2Proof.Machine.execRouterGrant a0 a1 a2 s
  | .slackTick a0 => Sys2Proof.Machine.execSlackTick a0 s
  | .slackExhaustion a0 => Sys2Proof.Machine.execSlackExhaustion a0 s
  | .packetDelivery a0 => Sys2Proof.Machine.execPacketDelivery a0 s
  | .flitReceive a0 a1 a2 a3 => Sys2Proof.Machine.execFlitReceive a0 a1 a2 a3 s
  | .nackReceive a0 a1 a2 => Sys2Proof.Machine.execNackReceive a0 a1 a2 s
  | .ackReceive a0 a1 a2 => Sys2Proof.Machine.execAckReceive a0 a1 a2 s
  | .laneRetire a0 a1 a2 => Sys2Proof.Machine.execLaneRetire a0 a1 a2 s
  | .creditResyncSend a0 a1 a2 => Sys2Proof.Machine.execCreditResyncSend a0 a1 a2 s
  | .creditResyncReceive a0 a1 a2 => Sys2Proof.Machine.execCreditResyncReceive a0 a1 a2 s
  | .launchSubmit a0 a1 => Sys2Proof.Machine.execLaunchSubmit a0 a1 s
  | .launchSubmission => Sys2Proof.Machine.execLaunchSubmission s
  | .descriptorReadComplete a0 => Sys2Proof.Machine.execDescriptorReadComplete a0 s
  | .poolReservationRequest a0 a1 => Sys2Proof.Machine.execPoolReservationRequest a0 a1 s
  | .placementDecision => Sys2Proof.Machine.execPlacementDecision s
  | .reservingTimeout a0 => Sys2Proof.Machine.execReservingTimeout a0 s
  | .terminationSweep a0 => Sys2Proof.Machine.execTerminationSweep a0 s
  | .hangTimeout a0 => Sys2Proof.Machine.execHangTimeout a0 s
  | .faultedEnd a0 => Sys2Proof.Machine.execFaultedEnd a0 s
  | .faultRecordAppend a0 => Sys2Proof.Machine.execFaultRecordAppend a0 s
  | .powerLevelApply => Sys2Proof.Machine.execPowerLevelApply s
  | .supergroupPowerOff a0 => Sys2Proof.Machine.execSupergroupPowerOff a0 s
  | .wakeComplete a0 => Sys2Proof.Machine.execWakeComplete a0 s
  | .duskWave a0 a1 => Sys2Proof.Machine.execDuskWave a0 a1 s
  | .freezeInPlace a0 a1 => Sys2Proof.Machine.execFreezeInPlace a0 a1 s
  | .thaw a0 a1 => Sys2Proof.Machine.execThaw a0 a1 s
  | .restore a0 a1 => Sys2Proof.Machine.execRestore a0 a1 s
  | .waveDrainComplete => Sys2Proof.Machine.execWaveDrainComplete s
  | .waveFailure => Sys2Proof.Machine.execWaveFailure s
  | .restoreForward a0 => Sys2Proof.Machine.execRestoreForward a0 s
  | .dbgGo a0 a1 => Sys2Proof.Machine.execDbgGo a0 a1 s
  | .dbgGoLoader a0 a1 => Sys2Proof.Machine.execDbgGoLoader a0 a1 s
  | .hostAccess a0 a1 a2 a3 a4 a5 => Sys2Proof.Machine.execHostAccess a0 a1 a2 a3 a4 a5 s
  | .ingressWrite a0 a1 a2 a3 => Sys2Proof.Machine.execIngressWrite a0 a1 a2 a3 s
  | .ingressClose a0 a1 => Sys2Proof.Machine.execIngressClose a0 a1 s
  | .ownershipClaim a0 a1 => Sys2Proof.Machine.execOwnershipClaim a0 a1 s
  | .ownHandover a0 a1 => Sys2Proof.Machine.execOwnHandover a0 a1 s
  | .ownRelease a0 => Sys2Proof.Machine.execOwnRelease a0 s
  | .ownerTimeout => Sys2Proof.Machine.execOwnerTimeout s
  | .budgetWrite a0 a1 => Sys2Proof.Machine.execBudgetWrite a0 a1 s
  | .daybreak => Sys2Proof.Machine.execDaybreak s
  | .svnBurn a0 a1 => Sys2Proof.Machine.execSvnBurn a0 a1 s
  | .attestationRequest a0 => Sys2Proof.Machine.execAttestationRequest a0 s
  | .attestationComplete => Sys2Proof.Machine.execAttestationComplete s
  | .spaceRetire a0 a1 => Sys2Proof.Machine.execSpaceRetire a0 a1 s
  | .spaceRetireComplete => Sys2Proof.Machine.execSpaceRetireComplete s
  | .cfgDataRead a0 => Sys2Proof.Machine.execCfgDataRead a0 s
  | .cfgDataWrite a0 a1 => Sys2Proof.Machine.execCfgDataWrite a0 a1 s
  | .windowAccess a0 => Sys2Proof.Machine.execWindowAccess a0 s
  | .registerWrite a0 a1 a2 => Sys2Proof.Machine.execRegisterWrite a0 a1 a2 s
  | .copyBeatIssue a0 => Sys2Proof.Machine.execCopyBeatIssue a0 s
  | .placementReadComplete a0 => Sys2Proof.Machine.execPlacementReadComplete a0 s
  | .zeroisationComplete a0 => Sys2Proof.Machine.execZeroisationComplete a0 s
  | .hostInvalidationComplete a0 a1 => Sys2Proof.Machine.execHostInvalidationComplete a0 a1 s
  | .managementHeartbeat => Sys2Proof.Machine.execManagementHeartbeat s
  | .linkTraining a0 a1 => Sys2Proof.Machine.execLinkTraining a0 a1 s
  | .creditCountSoftError a0 a1 a2 a3 => Sys2Proof.Machine.execCreditCountSoftError a0 a1 a2 a3 s

end Sys2Proof.Machine
end

