-- ==== Sys2Proof/Safety.lean ====
section
/-! DEFINITION. Safety.lean: what counts as a safe run, and the invariants claims use. A step stops only at a turn that
names an agent the package does not have; every other turn goes on, by an effect, a trap taken or a record written. -/

namespace Sys2Proof.Machine

/-- n steps, while they go on. -/
def run : Nat → State → Option State
  | 0, s => some s
  | n + 1, s => match step s with
    | .next t => run n t
    | _ => none
/-- No run from a state stops. -/
def Safe (s : State) : Prop := ∀ n, (run n s).isSome = true
/-- Package memory is in its one canonical form: equal memories are equal lists. -/
def State.memOk (s : State) : Prop := Memory.wf s.mem = true
/-- The states a run from reset passes. -/
inductive Reachable : State → Prop
  | reset : Reachable State.reset
  | step {s t : State} : Reachable s → step s = .next t → Reachable t

end Sys2Proof.Machine
end

