-- ==== Sys2Proof/WellFormed.lean ====
section
/-! DEFINITION. WellFormed.lean: the operand values an encoding admits, check by check (R26, R40 and the
instructions' own descriptions). An event is well formed as it stands: its operands name agents or carry what
arrives from outside. -/

namespace Sys2Proof

/-- PRED 0 with POL 1 is reserved (R26). -/
def Guard.wf (g : Guard) : Bool := g.pred ≠ 0 || !g.pol

/-- Is every operand of the instruction one its encoding admits? -/
def Instr.wellFormed : Instr → Bool
  | .blockExecute _ _ => true
  | .blockCommit _ _ => true
  | .lineFetch _ _ => true
  | .lineFetchArrival _ => true
  | .endT g => g.wf
  | .next g => g.wf
  | .nop g => g.wf
  | .bEq g _ _ _ => g.wf
  | .bNe g _ _ _ => g.wf
  | .bLt g _ _ _ => g.wf
  | .bGe g _ _ _ => g.wf
  | .bLtu g _ _ _ => g.wf
  | .bGeu g _ _ _ => g.wf
  | .bLtz g _ _ => g.wf
  | .bGez g _ _ => g.wf
  | .bqAny g _ _ => g.wf
  | .bqAll g _ _ => g.wf
  | .jal g _ _ => g.wf
  | .jr g _ => g.wf
  | .loop g _ _ => g.wf
  | .loopi g _ _ => g.wf
  | .sarm g _ _ _ _ _ => g.wf
  | .sig g _ _ _ n => g.wf && n ≠ 0
  | .sigw g _ _ _ w n d => g.wf && n ≠ 0 && w ≠ d
  | .sigv g _ _ _ w n d => g.wf && n ≠ 0 && sigvOk w d
  | .falloc g _ _ => g.wf
  | .ffree g _ => g.wf
  | .fpin g _ => g.wf
  | .funpin g _ => g.wf
  | .spawn g _ a _ _ _ k _ => g.wf && k.toNat ≤ 6 && rangeOk a k.toNat
  | .tspawn g a k _ => g.wf && k.toNat ≤ 6 && rangeOk a k.toNat
  | .launch g _ _ _ _ => g.wf
  | .rbar g _ _ _ sf => g.wf && sf.sv
  | .rid g _ idx => g.wf && idx.toNat ≤ 17
  | .fld g _ _ _ _ => g.wf
  | .fst g _ _ _ _ => g.wf
  | .fldv g _ _ _ _ => g.wf
  | .fstv g _ _ _ _ => g.wf
  | .trap g _ => g.wf
  | .brk g _ => g.wf
  | .tresume g _ => g.wf
  | .add g _ _ _ => g.wf
  | .sub g _ _ _ => g.wf
  | .mul g _ _ _ => g.wf
  | .mulh g _ _ _ => g.wf
  | .mulhu g _ _ _ => g.wf
  | .div g _ _ _ => g.wf
  | .divu g _ _ _ => g.wf
  | .rem g _ _ _ => g.wf
  | .remu g _ _ _ => g.wf
  | .min g _ _ _ => g.wf
  | .max g _ _ _ => g.wf
  | .minu g _ _ _ => g.wf
  | .maxu g _ _ _ => g.wf
  | .and g _ _ _ => g.wf
  | .or g _ _ _ => g.wf
  | .xor g _ _ _ => g.wf
  | .andn g _ _ _ => g.wf
  | .sll g _ _ _ => g.wf
  | .srl g _ _ _ => g.wf
  | .sra g _ _ _ => g.wf
  | .rol g _ _ _ => g.wf
  | .ror g _ _ _ => g.wf
  | .clz g _ _ => g.wf
  | .ctz g _ _ => g.wf
  | .popc g _ _ => g.wf
  | .bswap g _ _ => g.wf
  | .seq g _ _ _ => g.wf
  | .sne g _ _ _ => g.wf
  | .slt g _ _ _ => g.wf
  | .sltu g _ _ _ => g.wf
  | .sext g _ _ ty => g.wf && [Ty.s8, .s16, .s32].contains ty
  | .zext g _ _ ty => g.wf && [Ty.z8, .z16, .z32].contains ty
  | .bfx g _ _ lenm1 pos => g.wf && lenm1.toNat + 1 + pos.toNat ≤ 64
  | .bfxu g _ _ lenm1 pos => g.wf && lenm1.toNat + 1 + pos.toNat ≤ 64
  | .bfi g _ _ _ lenm1 pos => g.wf && lenm1.toNat + 1 + pos.toNat ≤ 64
  | .sel g _ _ _ _ => g.wf
  | .addi g _ _ _ => g.wf
  | .andi g _ _ _ => g.wf
  | .ori g _ _ _ => g.wf
  | .xori g _ _ _ => g.wf
  | .slli g _ _ _ => g.wf
  | .srli g _ _ _ => g.wf
  | .srai g _ _ _ => g.wf
  | .slti g _ _ _ => g.wf
  | .sltiu g _ _ _ => g.wf
  | .lea g _ _ _ s _ => g.wf && s.toNat ≤ 6
  | .li g _ _ => g.wf
  | .lih g _ _ _ => g.wf
  | .mov g _ _ => g.wf
  | .fadd g _ _ _ _ _ => g.wf
  | .fsub g _ _ _ _ _ => g.wf
  | .fmul g _ _ _ _ _ => g.wf
  | .fdiv g _ _ _ _ _ => g.wf
  | .fsqrt g _ _ _ _ => g.wf
  | .fma g _ _ _ _ _ _ => g.wf
  | .fmin g _ _ _ _ => g.wf
  | .fmax g _ _ _ _ => g.wf
  | .fcmp g _ _ _ _ _ => g.wf
  | .fclass g _ _ _ => g.wf
  | .fsgnj g _ _ _ _ _ => g.wf
  | .fcvt g _ _ dt sty _ => g.wf && cvtOk dt sty
  | .vfadd g _ _ _ _ _ => g.wf
  | .vfsub g _ _ _ _ _ => g.wf
  | .vfmul g _ _ _ _ _ => g.wf
  | .vfma g _ _ _ _ _ _ => g.wf
  | .vfmin g _ _ _ _ => g.wf
  | .vfmax g _ _ _ _ => g.wf
  | .vfdiv g _ _ _ _ _ => g.wf
  | .vfsqrt g _ _ _ _ => g.wf
  | .vadd g _ _ _ ty _ => g.wf && intTys.contains ty
  | .vsub g _ _ _ ty _ => g.wf && intTys.contains ty
  | .vmul g _ _ _ ty => g.wf && intTys.contains ty
  | .vmulh g _ _ _ ty => g.wf && intTys.contains ty
  | .vmin g _ _ _ ty => g.wf && intTys.contains ty
  | .vmax g _ _ _ ty => g.wf && intTys.contains ty
  | .vand g _ _ _ ty => g.wf && laneTys.contains ty
  | .vor g _ _ _ ty => g.wf && laneTys.contains ty
  | .vxor g _ _ _ ty => g.wf && laneTys.contains ty
  | .vsll g _ _ _ ty => g.wf && laneTys.contains ty
  | .vsrl g _ _ _ ty => g.wf && laneTys.contains ty
  | .vsra g _ _ _ ty => g.wf && laneTys.contains ty
  | .vfcmp g d _ _ _ _ => g.wf && d ≠ 0
  | .vcmp g d _ _ ty _ => g.wf && d ≠ 0 && intTys.contains ty
  | .vsel g _ _ _ _ ty => g.wf && laneTys.contains ty
  | .vredsum g _ _ ty => g.wf && laneTys.contains ty
  | .vredmin g _ _ ty => g.wf && laneTys.contains ty
  | .vredmax g _ _ ty => g.wf && laneTys.contains ty
  | .vscan g _ _ ty _ => g.wf && laneTys.contains ty
  | .vperm g _ _ _ ty => g.wf && laneTys.contains ty
  | .vbcast g _ _ ty => g.wf && laneTys.contains ty
  | .vext g _ _ _ ty => g.wf && laneTys.contains ty
  | .vins g _ _ _ ty => g.wf && laneTys.contains ty
  | .vcompress _ _ _ ty => laneTys.contains ty
  | .vexpand _ _ _ ty => laneTys.contains ty
  | .vcvt g _ _ dt sty _ h => g.wf && vcvtOk dt sty h
  | .vexp2 g _ _ _ => g.wf
  | .vrcp g _ _ _ => g.wf
  | .vrsqrt g _ _ _ => g.wf
  | .pmaskLt g d _ _ ty => g.wf && d ≠ 0 && laneTys.contains ty
  | .pand g d _ _ => g.wf && d ≠ 0
  | .por g d _ _ => g.wf && d ≠ 0
  | .pxor g d _ _ => g.wf && d ≠ 0
  | .pnot g d _ => g.wf && d ≠ 0
  | .pcnt g _ _ => g.wf
  | .pfirst g _ _ => g.wf
  | .ld g _ _ ty _ _ => g.wf && memTys.contains ty
  | .st g _ _ ty _ _ => g.wf && memTys.contains ty
  | .vld g _ _ ty _ _ => g.wf && laneTys.contains ty
  | .vst g _ _ ty _ _ => g.wf && laneTys.contains ty
  | .vldf g _ _ _ _ _ => g.wf
  | .vstq g _ _ _ _ _ _ => g.wf
  | .get g _ _ ty _ _ => g.wf && memTys.contains ty
  | .put g _ _ ty _ _ => g.wf && memTys.contains ty
  | .vget g _ fw _ _ => g.wf && fw.extractLsb' 0 3 = 0
  | .vput g _ fw _ _ => g.wf && fw.extractLsb' 0 3 = 0
  | .copy g _ _ _ _ _ => g.wf
  | .gather g _ _ _ esz _ _ _ _ => g.wf && 3 ≤ esz.toNat && esz.toNat ≤ 12
  | .scatter g _ _ _ esz _ _ _ _ => g.wf && 3 ≤ esz.toNat && esz.toNat ≤ 12
  | .amsg g _ r _ k _ _ => g.wf && k.toNat ≤ 6 && rangeOk r k.toNat
  | .own g _ _ _ _ _ => g.wf
  | .ldfe g _ _ _ _ => g.wf
  | .stef g _ _ _ _ => g.wf
  | .tagf g _ _ _ => g.wf
  | .tage g _ _ _ => g.wf
  | .amoAdd g _ _ _ ty _ _ => g.wf && intTys.contains ty
  | .amoAnd g _ _ _ ty _ _ => g.wf && intTys.contains ty
  | .amoOr g _ _ _ ty _ _ => g.wf && intTys.contains ty
  | .amoXor g _ _ _ ty _ _ => g.wf && intTys.contains ty
  | .amoMin g _ _ _ ty _ _ => g.wf && intTys.contains ty
  | .amoMax g _ _ _ ty _ _ => g.wf && intTys.contains ty
  | .amoSwap g _ _ _ ty _ _ => g.wf && intTys.contains ty
  | .amoCas g _ _ _ _ ty _ _ => g.wf && intTys.contains ty
  | .redAdd g _ _ ty _ => g.wf && [Ty.s64, .f32, .f64].contains ty
  | .redMin g _ _ ty _ => g.wf && [Ty.s64, .z64, .f32, .f64].contains ty
  | .redMax g _ _ ty _ => g.wf && [Ty.s64, .z64, .f32, .f64].contains ty
  | .csnap g _ fw _ _ => g.wf && fw.extractLsb' 0 3 = 0
  | .fenceRel g _ => g.wf
  | .fenceAcq g _ => g.wf
  | .sigRel g _ _ n _ => g.wf && n ≠ 0
  | .enq g _ _ r k _ sf => g.wf && k.toNat ≤ 3 && rangeOk r (2 ^ k.toNat) && !sf.sv
  | .enqA g _ _ r k _ _ => g.wf && k.toNat ≤ 3 && rangeOk r (2 ^ k.toNat)
  | .deq g _ _ _ k _ _ => g.wf && k.toNat ≤ 3
  | .stgClaim g _ _ => g.wf
  | .stgFree g _ _ => g.wf
  | .mma g _ _ _ _ _ sf => g.wf && !sf.fresh
  | .mmaF32 g _ _ _ _ _ sf => g.wf && !sf.fresh
  | .mmaF64 g _ _ _ _ _ sf => g.wf && !sf.fresh
  | .mmag g _ _ _ _ _ _ sf => g.wf && !sf.fresh
  | .mmas g _ _ _ _ _ sf => g.wf && !sf.fresh
  | .mscan g _ _ _ _ _ sf => g.wf && !sf.fresh
  | .mscanSeg g _ _ _ _ _ sf => g.wf && !sf.fresh
  | .accGet g _ => g.wf
  | .accGive g _ => g.wf
  | .accZero g _ => g.wf
  | .accLd g _ _ nm1 ty _ sf => g.wf && [Ty.f64, .f32].contains ty && (ty ≠ .f64 || nm1.extractLsb' 4 1 = 0) && !sf.fresh
  | .accSt g _ _ nm1 ty _ sf => g.wf && [Ty.f64, .f32, .bf16].contains ty && (ty ≠ .f64 || nm1.extractLsb' 4 1 = 0) && !sf.fresh
  | .accAdd g _ _ _ => g.wf
  | .accRed g _ _ _ => g.wf
  | .qtile g _ _ _ _ _ sf => g.wf && !sf.fresh
  | .fmtSet g _ _ => g.wf
  | .fmtGet g _ _ => g.wf
  | .sysr g _ n => g.wf && [0, 1, 2, 3, 4, 5, 8, 9, 10].contains n.toNat
  | .sysw g n _ => g.wf && [0, 1, 2, 3, 4, 5, 8, 9, 10].contains n.toNat
  | .ctrRd g _ _ => g.wf
  | .ctrCfg g _ _ => g.wf
  | .rv64imcInstruction (.full _) => true
  | .rv64imcInstruction (.comp h i) => rvcExpand h = some i && h.extractLsb' 0 2 ≠ 3
  | .cpGo _ _ => true
  | .cpWait _ _ _ => true
  | .cpStat _ _ => true
  | .lsSig _ _ => true
  | .lsRid _ _ => true
  | .lsEnd => true
  | .stgAcq _ _ _ => true
  | .stgTry _ _ _ => true
  | .stgRd _ _ _ => true
  | .epRd _ _ _ => true
  | .lsLdw _ _ _ => true
  | .lsStw _ _ => true
  | .cpGoChannelStart _ _ => true
  | .cpWaitResume _ _ => true
  | .stgAcqResume _ _ => true
  | .copyBeatComplete _ => true
  | .sliceRequest _ => true
  | .mergeWindowClose _ => true
  | .lineFill _ => true
  | .redInjectRelease _ => true
  | .stcInvAll _ _ _ => true
  | .stcInvSid _ _ _ => true
  | .stcInvPage _ _ _ => true
  | .stcInvWriteback _ => true
  | .stcInvComplete _ => true
  | .faultReplay _ _ _ => true
  | .faultFatal _ _ _ => true
  | .bankRequest _ => true
  | .bankReplay _ _ => true
  | .feRetry _ => true
  | .spillAcknowledged _ => true
  | .framePacketArrival _ => true
  | .forwardedSignal _ => true
  | .refillRequest _ => true
  | .refillReadComplete _ => true
  | .refillInstall _ => true
  | .replyDelivery _ => true
  | .tokenBind _ => true
  | .tokenPromotion _ => true
  | .amsgArrival _ => true
  | .amsgRetry _ => true
  | .spawnArrival _ => true
  | .spawnRetry _ => true
  | .enqEntryArrival _ => true
  | .enqBufferRelease _ => true
  | .creditArrival _ => true
  | .heldPacketRelease _ => true
  | .rbarArrival _ => true
  | .rbarCompletion _ => true
  | .matrixRequest _ => true
  | .matrixRequestComplete _ => true
  | .taskPush _ => true
  | .pop _ _ => true
  | .popDelivery _ => true
  | .popRetry _ => true
  | .stealRequest _ => true
  | .stealReply _ => true
  | .stealRetry _ _ => true
  | .packetArrivalRouter _ _ => true
  | .routerGrant _ _ _ => true
  | .slackTick _ => true
  | .slackExhaustion _ => true
  | .packetDelivery _ => true
  | .flitReceive _ _ _ _ => true
  | .nackReceive _ _ _ => true
  | .ackReceive _ _ _ => true
  | .laneRetire _ _ _ => true
  | .creditResyncSend _ _ _ => true
  | .creditResyncReceive _ _ _ => true
  | .launchSubmit _ _ => true
  | .launchSubmission => true
  | .descriptorReadComplete _ => true
  | .poolReservationRequest _ _ => true
  | .placementDecision => true
  | .reservingTimeout _ => true
  | .terminationSweep _ => true
  | .hangTimeout _ => true
  | .faultedEnd _ => true
  | .faultRecordAppend _ => true
  | .powerLevelApply => true
  | .supergroupPowerOff _ => true
  | .wakeComplete _ => true
  | .duskWave _ _ => true
  | .freezeInPlace _ _ => true
  | .thaw _ _ => true
  | .restore _ _ => true
  | .waveDrainComplete => true
  | .waveFailure => true
  | .restoreForward _ => true
  | .dbgGo _ _ => true
  | .dbgGoLoader _ _ => true
  | .hostAccess _ _ _ _ _ _ => true
  | .ingressWrite _ _ _ _ => true
  | .ingressClose _ _ => true
  | .ownershipClaim _ _ => true
  | .ownHandover _ _ => true
  | .ownRelease _ => true
  | .ownerTimeout => true
  | .budgetWrite _ _ => true
  | .daybreak => true
  | .svnBurn _ _ => true
  | .attestationRequest _ => true
  | .attestationComplete => true
  | .spaceRetire _ _ => true
  | .spaceRetireComplete => true
  | .cfgDataRead _ => true
  | .cfgDataWrite _ _ => true
  | .windowAccess _ => true
  | .registerWrite _ _ _ => true
  | .copyBeatIssue _ => true
  | .placementReadComplete _ => true
  | .zeroisationComplete _ => true
  | .hostInvalidationComplete _ _ => true
  | .managementHeartbeat => true
  | .linkTraining _ _ => true
  | .creditCountSoftError _ _ _ _ => true

/-- The instructions of the opcode map of R39, which a line's heads name. -/
def Instr.isShokuxel (i : Instr) : Bool := (fieldsOf i).isSome

/-- The instructions a loader or storer core executes (R84, R96). -/
def Instr.isRv (i : Instr) : Bool :=
  match i with
  | .rv64imcInstruction _ => true
  | _ => (rvWordOf i).isSome

end Sys2Proof
end

