-- ==== Sys2Proof/Certificates/Slice0/Obligations.lean ====
section
/-! DEFINITION. Obligations.lean: what is claimed of the model, statement by statement, and the spec's tables those
statements speak of. A statement over several families is the conjunction of the claims named in it. -/

namespace Sys2Proof.Claims
open Sys2Proof.Machine

/-! Heads: what a head leaves. -/

/-- The machine after a head: the block stands at its next head with working copy `w`, and nothing else differs. -/
def after (s : State) (w : Work) : State := s.setWork { w with k := s.work.k + 1 }
/-- The machine after a head that leaves registers `r` and the rest of the working copy as it was. -/
def afterRegs (s : State) (r : Regs) : State := after s { s.work with regs := r }
/-- The machine after a head that read n bytes of scratch, which notes their frames' last touch (R120), and leaves working
copy `w`. -/
def afterRead (s : State) (c o n : Nat) (w : Work) : State := (s.touchAt c o n).setWork { w with k := s.work.k + 1 }
/-- The value of `x`n in the working copy. -/
def X (s : State) (n : XReg) : Word := s.work.regs.rx n
/-- 1 where a condition holds, else 0 (R177). -/
def one (c : Bool) : Word := if c then 1#64 else 0#64
/-- The sign extension of a 16-bit immediate (R182). -/
def imm16 (i : Half) : Word := BitVec.ofInt 64 i.toInt
/-- The sign extension of a 32-bit immediate (R183). -/
def imm32 (i : BitVec 32) : Word := BitVec.ofInt 64 i.toInt

/-- The register-to-register forms of R177 with the value of x[D] as that table gives it. -/
def binaryForms : List ((Guard → XReg → XReg → XReg → Instr) × (Word → Word → Word)) :=
  [(.add, fun a b => a + b), (.sub, fun a b => a - b),
   (.mul, fun a b => a * b),
   (.mulh, fun a b => BitVec.ofInt 64 ((a.toInt * b.toInt) >>> 64)), (.mulhu, fun a b => BitVec.ofNat 64 ((a.toNat * b.toNat) >>> 64)),
   (.min, fun a b => if a.toInt ≤ b.toInt then a else b), (.max, fun a b => if a.toInt ≤ b.toInt then b else a),
   (.minu, fun a b => if a.toNat ≤ b.toNat then a else b), (.maxu, fun a b => if a.toNat ≤ b.toNat then b else a),
   (.and, fun a b => a &&& b), (.or, fun a b => a ||| b), (.xor, fun a b => a ^^^ b), (.andn, fun a b => a &&& ~~~b),
   (.sll, fun a b => a <<< (b.extractLsb' 0 6)), (.srl, fun a b => a >>> (b.extractLsb' 0 6)),
   (.sra, fun a b => BitVec.ofInt 64 (a.toInt >>> (b.extractLsb' 0 6).toNat)),
   (.rol, fun a b => (a <<< (b.extractLsb' 0 6)) ||| (a >>> (64 - (b.extractLsb' 0 6).toNat))),
   (.ror, fun a b => (a >>> (b.extractLsb' 0 6)) ||| (a <<< (64 - (b.extractLsb' 0 6).toNat))),
   (.seq, fun a b => one (a = b)), (.sne, fun a b => one (a ≠ b)),
   (.slt, fun a b => one (a.toInt < b.toInt)), (.sltu, fun a b => one (a.toNat < b.toNat))]

/-- The single-operand forms of R177. -/
def unaryForms : List ((Guard → XReg → XReg → Instr) × (Word → Word)) :=
  [(.clz, fun a => BitVec.ofNat 64 (((List.range 64).find? fun n => a.getMsbD n).getD 64)),
   (.ctz, fun a => BitVec.ofNat 64 (((List.range 64).find? fun n => a.getLsbD n).getD 64)),
   (.popc, fun a => BitVec.ofNat 64 ((List.range 64).countP fun n => a.getLsbD n)),
   (.bswap, fun a => ((((((a.extractLsb' 0 8 ++ a.extractLsb' 8 8) ++ a.extractLsb' 16 8) ++ a.extractLsb' 24 8) ++
     a.extractLsb' 32 8) ++ a.extractLsb' 40 8) ++ a.extractLsb' 48 8) ++ a.extractLsb' 56 8)]

/-- The four divisions of R178, with the cases that have no true quotient. -/
def divisionForms : List ((Guard → XReg → XReg → XReg → Instr) × (Word → Word → Word)) :=
  [(.div, fun a b => if b = 0#64 then 0xffffffffffffffff#64
                     else if a = 0x8000000000000000#64 ∧ b = 0xffffffffffffffff#64 then a
                     else BitVec.ofInt 64 (a.toInt.tdiv b.toInt)),
   (.divu, fun a b => if b = 0#64 then 0xffffffffffffffff#64 else BitVec.ofNat 64 (a.toNat / b.toNat)),
   (.rem, fun a b => if b = 0#64 then a
                     else if a = 0x8000000000000000#64 ∧ b = 0xffffffffffffffff#64 then 0#64
                     else BitVec.ofInt 64 (a.toInt.tmod b.toInt)),
   (.remu, fun a b => if b = 0#64 then a else BitVec.ofNat 64 (a.toNat % b.toNat))]

/-- The immediate forms of R182. -/
def immediateForms : List ((Guard → XReg → XReg → Half → Instr) × (Word → Word → Word)) :=
  [(.addi, fun a i => a + i), (.andi, fun a i => a &&& i), (.ori, fun a i => a ||| i),
   (.xori, fun a i => a ^^^ i), (.slti, fun a i => one (a.toInt < i.toInt)), (.sltiu, fun a i => one (a.toNat < i.toNat))]
/-- The shifts by an immediate of R182. -/
def shiftForms : List ((Guard → XReg → XReg → BitVec 6 → Instr) × (Word → BitVec 6 → Word)) :=
  [(.slli, fun a n => a <<< n), (.srli, fun a n => a >>> n), (.srai, fun a n => BitVec.ofInt 64 (a.toInt >>> n.toNat))]

/-! Floating point and lanes. -/

/-- The low half of a register for `.f32`, all of it for `.f64` (R184). -/
def fpIn (ty : FTy) (v : Word) : Nat := if ty = .f32 then (v.setWidth 32).toNat else v.toNat
/-- A result written to x[D], its flags ORed into `cf` (R175, R184). -/
def fpWrite (s : State) (d : XReg) (r : Nat × CfFlags) : State :=
  afterRegs s ((s.work.regs.wx d (BitVec.ofNat 64 r.1)).setFlags r.2)
/-- The two-operand forms with a rounding mode (R185) and the operation each performs. -/
def fpArith : List ((Guard → XReg → XReg → XReg → FTy → Rm → Instr) × (FpFmt → Rm → Nat → Nat → Nat × CfFlags)) :=
  [(.fadd, FpFmt.add), (.fsub, FpFmt.sub), (.fmul, FpFmt.mul), (.fdiv, FpFmt.div)]

/-- The number of lanes and their width in bits (R190). -/
def lanes (wide : Bool) : Nat := if wide then 8 else 16
def width (wide : Bool) : Nat := if wide then 64 else 32
/-- Lane i of a vector register (R190). -/
def lane (wide : Bool) (v : Line64) (i : Nat) : Nat := (v.extractLsb' (width wide * i) (width wide)).toNat
/-- Is lane i enabled: bit i of the guard for 32-bit lanes, bit 2i for 64-bit lanes (R26, R190)? -/
def enabled (s : State) (g : Guard) (wide : Bool) (i : Nat) : Bool :=
  (s.work.regs.guard g).getLsbD (if wide then 2 * i else i)
/-- The flags of the enabled lanes, ORed. -/
def laneFlags (s : State) (g : Guard) (wide : Bool) (f : Nat → CfFlags) : CfFlags :=
  ((List.range (lanes wide)).filter (enabled s g wide)).foldl (fun a i => a ||| f i) 0
/-- Executing the instruction writes each enabled lane of v[D] with a value modulo its width, keeps every other lane, ORs
flags into `cf`, and changes nothing else but the place of the block. -/
def WritesLanes (i : Instr) (s : State) (g : Guard) (d : VReg) (wide : Bool) (val : Nat → Int) (fl : CfFlags) : Prop :=
  ∃ v : Line64, exec i s = .next (afterRegs s ((s.work.regs.wv d v).setFlags fl)) ∧
    ∀ k < lanes wide, lane wide v k =
      if enabled s g wide k then (val k % 2 ^ width wide).toNat else lane wide (s.work.regs.rv d) k
/-- The same of an instruction that read n bytes of scratch for it (R120). -/
def ReadsLanes (i : Instr) (s : State) (c o n : Nat) (g : Guard) (d : VReg) (wide : Bool) (val : Nat → Int) (fl : CfFlags) : Prop :=
  ∃ v : Line64, exec i s = .next (afterRead s c o n { s.work with regs := (s.work.regs.wv d v).setFlags fl }) ∧
    ∀ k < lanes wide, lane wide v k =
      if enabled s g wide k then (val k % 2 ^ width wide).toNat else lane wide (s.work.regs.rv d) k
/-- Executing the instruction writes the outcome of each enabled lane to its bit of q[D], or to its two bits for 64-bit
lanes, keeps every other bit, ORs flags into `cf`, and changes nothing else but the place of the block (R193, R201). -/
def WritesBits (i : Instr) (s : State) (g : Guard) (d : QReg) (wide : Bool) (c : Nat → Bool) (fl : CfFlags) : Prop :=
  ∃ q : Half, exec i s = .next (afterRegs s ((s.work.regs.wq d q).setFlags fl)) ∧
    ∀ j < 16, q.getLsbD j =
      let k := if wide then j / 2 else j
      if enabled s g wide k then c k else (s.work.regs.rq d).getLsbD j
/-- Lane k of v[A]. -/
def L (s : State) (wide : Bool) (a : VReg) (k : Nat) : Nat := lane wide (s.work.regs.rv a) k
/-- Does a lane code give 64-bit lanes (R190)? -/
def wideOf (ty : Ty) : Bool := [Ty.f64, .s64, .z64].contains ty
/-- A lane as a signed or unsigned integer by its type (R192). -/
def intOf (ty : Ty) (n : Nat) : Int :=
  if ty = .s32 then (BitVec.ofNat 32 n).toInt else if ty = .s64 then (BitVec.ofNat 64 n).toInt else n
/-- The ends of the range of a lane type (R192). -/
def lowest (ty : Ty) : Int := if ty = .s32 then -2 ^ 31 else if ty = .s64 then -2 ^ 63 else 0
def highest (ty : Ty) : Int :=
  if ty = .s32 then 2 ^ 31 - 1 else if ty = .s64 then 2 ^ 63 - 1 else if ty = .z32 then 2 ^ 32 - 1 else 2 ^ 64 - 1
/-- An exact result replaced by the nearer end of the range where it lies outside, and SAT (R192). -/
def clamped (ty : Ty) (sat : Bool) (v : Int) : Int × CfFlags :=
  if sat ∧ v < lowest ty then (lowest ty, fSAT) else if sat ∧ highest ty < v then (highest ty, fSAT) else (v, 0)

/-- The floating-point lane operations of R191 on two registers. -/
def fpLanes : List ((Guard → VReg → VReg → VReg → FTy → Rm → Instr) × (FpFmt → Rm → Nat → Nat → Nat × CfFlags)) :=
  [(.vfadd, FpFmt.add), (.vfsub, FpFmt.sub), (.vfmul, FpFmt.mul), (.vfdiv, FpFmt.div)]
/-- The integer lane operations of R192 that never saturate. -/
def intLanes : List ((Guard → VReg → VReg → VReg → Ty → Instr) × (Ty → Int → Int → Int)) :=
  [(.vmul, fun _ x y => x * y), (.vmulh, fun ty x y => (x * y) >>> width (wideOf ty)), (.vmin, fun _ x y => if x ≤ y then x else y),
   (.vmax, fun _ x y => if x ≤ y then y else x)]
/-- The bitwise and shift lane operations of R192 on lanes of w bits. -/
def bitLanes : List ((Guard → VReg → VReg → VReg → Ty → Instr) × (Nat → Nat → Nat → Int)) :=
  [(.vand, fun _ x y => x &&& y), (.vor, fun _ x y => x ||| y), (.vxor, fun _ x y => x ^^^ y),
   (.vsll, fun w x y => (x <<< (y % w) : Nat)), (.vsrl, fun w x y => (x >>> (y % w) : Nat)),
   (.vsra, fun w x y => (BitVec.ofNat w x).toInt >>> (y % w))]

/-- The pairwise tree over 2^n values from place lo, the lower lane on the left: value and flags (R195). -/
def tree (op : Nat → Nat → Nat × CfFlags) (t : Nat → Nat) : Nat → Nat → Nat × CfFlags
  | 0, lo => (t lo, 0)
  | n + 1, lo =>
    let x := tree op t n lo
    let y := tree op t n (lo + 2 ^ n)
    ((op x.1 y.1).1, (op x.1 y.1).2 ||| (x.2 ||| y.2))
/-- The prefix tree after its levels of distance 1, 2, …, 2^(n−1), at lane i (R196). -/
def prefixTree (op : Nat → Nat → Nat × CfFlags) (t : Nat → Nat) : Nat → Nat → Nat
  | 0, i => t i
  | n + 1, i =>
    if 2 ^ n ≤ i then (op (prefixTree op t n (i - 2 ^ n)) (prefixTree op t n i)).1 else prefixTree op t n i
/-- The flags of the operations of those levels that give a lane which is on (R175, R196). -/
def prefixFlags (on : Nat → Bool) (op : Nat → Nat → Nat × CfFlags) (t : Nat → Nat) (depth count : Nat) : CfFlags :=
  (List.range depth).foldl (fun fl n => (List.range count).foldl (fun fl i =>
    if 2 ^ n ≤ i ∧ on i then fl ||| (op (prefixTree op t n (i - 2 ^ n)) (prefixTree op t n i)).2 else fl) fl) 0
/-- The operation of a reduction on two lane values (R195), integer sums modulo 2^m. -/
def reduceOp (op : RedOp) (ty : Ty) (m : Nat) (x y : Nat) : Nat × CfFlags :=
  let f := if wideOf ty then fmtF64 else fmtF32
  if ty = .f32 ∨ ty = .f64 then
    match op with
    | .sum => f.add .rne x y
    | .min => f.minmax false x y
    | .max => f.minmax true x y
  else
    match op with
    | .sum => ((x + y) % 2 ^ m, 0)
    | .min => (if intOf ty x ≤ intOf ty y then x else y, 0)
    | .max => (if intOf ty x ≤ intOf ty y then y else x, 0)
/-- The identity of a reduction as a lane (R195). -/
def identityOf (op : RedOp) (ty : Ty) : Nat :=
  let w := width (wideOf ty)
  match op with
  | .sum => if ty = .f32 then 0x80000000 else if ty = .f64 then 0x8000000000000000 else 0
  | .min => if ty = .f32 then 0x7f800000 else if ty = .f64 then 0x7ff0000000000000 else (highest ty % 2 ^ w).toNat
  | .max => if ty = .f32 then 0xff800000 else if ty = .f64 then 0xfff0000000000000 else (lowest ty % 2 ^ w).toNat
/-- A lane, or the identity where it is disabled; `ext` extends integer lanes to 64 bits by their type (R195, R196). -/
def reduceIn (s : State) (g : Guard) (op : RedOp) (ty : Ty) (ext : Bool) (a : VReg) (k : Nat) : Nat :=
  let x := L s (wideOf ty) a k
  if enabled s g (wideOf ty) k then
    if ext ∧ ¬(ty = .f32 ∨ ty = .f64) then (intOf ty x % 2 ^ 64).toNat else x
  else identityOf op ty

/-! Control, frames, threadlets and system registers. -/

/-- The head leaves a control outcome: it is the block's one taken control head (R31). -/
def takes (s : State) (c : Ctl) : State := after s { s.work with ctl := c, ctlHead := s.work.k }
/-- The head leaves something to be done at the commit of its block (R30). -/
def leaves (s : State) (a : Act) : State := after s { s.work with acts := s.work.acts ++ [(s.work.k, a)] }
/-- The head traps: the block is discarded and the trap is taken at once (R29, R322); of two heads with a trap the lower one's
is taken (R33), so that of a lower `tresume` head whose record fails comes before the head's own (R277; log 21). -/
def trapped (s : State) (t : Trap) : State :=
  s.takeTrap s.cur.core s.cur.unit (s.headTrapOf t).1 (s.headTrapOf t).2
/-- The line a displacement names (R258, R261). -/
def lineAhead (s : State) (d : BitVec 32) : Int := (s.work.line : Int) + d.toInt
/-- Is a line one of the code segment (R259)? -/
def inSegment (s : State) (t : Int) : Prop := 0 ≤ t ∧ t < s.myLaunch.clen
/-- A transfer to a line: taken when the line is in the segment and no earlier head of the block was taken, else the control
trap (R31, R259). -/
def GoesTo (i : Instr) (s : State) (t : Int) : Prop :=
  ((inSegment s t ∧ s.work.ctl = .fall) → exec i s = .next (takes s (.jump t.toNat))) ∧
  (¬(inSegment s t ∧ s.work.ctl = .fall) → exec i s = .next (trapped s { cls := .control }))
/-- The branches on two registers, on one, and on a predicate (R261), with their conditions. -/
def branch2 : List ((Guard → XReg → XReg → BitVec 32 → Instr) × (Word → Word → Bool)) :=
  [(.bEq, fun a b => a = b), (.bNe, fun a b => a ≠ b), (.bLt, fun a b => a.toInt < b.toInt), (.bGe, fun a b => b.toInt ≤ a.toInt),
   (.bLtu, fun a b => a.toNat < b.toNat), (.bGeu, fun a b => b.toNat ≤ a.toNat)]
def branch1 : List ((Guard → XReg → BitVec 32 → Instr) × (Word → Bool)) :=
  [(.bLtz, fun a => a.toInt < 0), (.bGez, fun a => 0 ≤ a.toInt)]
def branchQ : List ((Guard → QReg → BitVec 32 → Instr) × (Half → Bool)) :=
  [(.bqAny, fun q => q ≠ 0), (.bqAll, fun q => q = 0xffff)]
/-- The words of the running frame (R118). -/
def words (s : State) : Nat := 8 * 4 ^ fpCls s.me.fp
/-- Word n of the running frame as an offset in the core's scratch (R117). -/
def wordAt (s : State) (n : Nat) : Nat := 64 * fpUnit s.me.fp + 8 * n
/-- A slot a slot field names lies in the running frame (R150). -/
def slotFits (s : State) (sf : SlotField) : Prop := sf.sv = true → sf.slot.toNat < words s
/-- The heads that leave a request with one address and a frame word, the alignment each wants of its address, how many
words it names, and what it leaves (R150, R155, R159, R161, R164). -/
def wordForms (ty : Ty) (p : PktMod) (sf : SlotField) (c : XReg) (s : State) :
    List ((Guard → XReg → FWord → Instr) × Nat × Nat × (Word → Nat → Act)) :=
  [(fun g a w => .get g a w ty p sf, Ty.width ty, 1, fun v w => .get v w ty p sf),
   (fun g a w => .put g a w ty p sf, Ty.width ty, 1, fun v w => .put v w ty p sf),
   (fun g a w => .vget g a w p sf, 64, 8, fun v w => .vget v w p sf),
   (fun g a w => .vput g a w p sf, 64, 8, fun v w => .vput v w p sf),
   (fun g a w => .csnap g a w p sf, 64, 8, fun v w => .csnap v w p sf),
   (fun g a w => .own g a c w p sf, 64, 1, fun v w => .own v (X s c) w p sf),
   (fun g a w => .ldfe g a w p sf, 8, 1, fun v w => .fe .ldfe v 0 w p sf)]
/-- The atomics (R162). -/
def amoForms : List ((Guard → XReg → XReg → FWord → Ty → PktMod → SlotField → Instr) × AmoOp) :=
  [(.amoAdd, .add), (.amoAnd, .and), (.amoOr, .or), (.amoXor, .xor), (.amoMin, .min), (.amoMax, .max), (.amoSwap, .swap)]
/-- The reductions (R163). -/
def redForms : List ((Guard → XReg → XReg → Ty → PktMod → Instr) × RedOp) :=
  [(.redAdd, .sum), (.redMin, .min), (.redMax, .max)]
/-- An operand in local scratch: aligned, and within one core's scratch under R110 and R82, at core c and offset o. -/
def localTo (s : State) (a : Word) (len al : Nat) (wr : Bool) (c o : Nat) : Prop :=
  a.toNat % al = 0 ∧ s.localOk s.cur.core s.mySid a len wr = some (c, o)
/-- An operand in local scratch that one access reads and writes: one window grants both rights (R82). -/
def localBoth (s : State) (a : Word) (len al : Nat) (c o : Nat) : Prop :=
  a.toNat % al = 0 ∧ s.localAddr s.cur.core a = some (c, o) ∧ o + len ≤ 0x100000 ∧ (s.core c).grants s.mySid o len true true = true
/-- The effective address of a local load or store (R145). -/
def ea (s : State) (b : XReg) (off : BitVec 32) : Word := X s b + imm32 off
/-- Loaded bytes extended by a type (R145). -/
def loaded (ty : Ty) (bs : List Byte) : Word :=
  let n := leNat bs
  if ty = .s8 then (BitVec.ofNat 8 n).signExtend 64 else if ty = .s16 then (BitVec.ofNat 16 n).signExtend 64
  else if ty = .s32 then (BitVec.ofNat 32 n).signExtend 64 else BitVec.ofNat 64 n
/-- The scratch protection trap or the alignment trap that a local operand raises first (R110, R145). -/
def localTrap (s : State) (a : Word) (len al : Nat) (wr : Bool) : Option Trap :=
  if a.toNat % al ≠ 0 then some { cls := .alignment, addr := a }
  else if (s.localOk s.cur.core s.mySid a len wr).isNone then some { cls := .scratchProtection, addr := a }
  else none
/-- Is any lane of a vector access enabled (R146)? -/
def anyOn (s : State) (g : Guard) (wide : Bool) : Prop := ∃ k < lanes wide, enabled s g wide k = true
/-- The guard of a head that bit 0 of it governs: every guarded head outside the vector forms (R26). -/
def scalarGuard : Instr → Option Guard
  | .endT g | .next g | .nop g | .bEq g _ _ _ | .bNe g _ _ _ | .bLt g _ _ _ | .bGe g _ _ _ | .bLtu g _ _ _
  | .bGeu g _ _ _ | .bLtz g _ _ | .bGez g _ _ | .bqAny g _ _ | .bqAll g _ _ | .jal g _ _ | .jr g _ | .loop g _ _
  | .loopi g _ _ | .sarm g _ _ _ _ _ | .sig g _ _ _ _ | .sigw g _ _ _ _ _ _ | .sigv g _ _ _ _ _ _ | .falloc g _ _
  | .ffree g _ | .fpin g _ | .funpin g _ | .spawn g _ _ _ _ _ _ _ | .tspawn g _ _ _ | .launch g _ _ _ _
  | .rbar g _ _ _ _ | .rid g _ _ | .fld g _ _ _ _ | .fst g _ _ _ _ | .trap g _ | .brk g _ | .tresume g _
  | .add g _ _ _ | .sub g _ _ _ | .mul g _ _ _ | .mulh g _ _ _ | .mulhu g _ _ _ | .div g _ _ _ | .divu g _ _ _
  | .rem g _ _ _ | .remu g _ _ _ | .min g _ _ _ | .max g _ _ _ | .minu g _ _ _ | .maxu g _ _ _ | .and g _ _ _
  | .or g _ _ _ | .xor g _ _ _ | .andn g _ _ _ | .sll g _ _ _ | .srl g _ _ _ | .sra g _ _ _ | .rol g _ _ _
  | .ror g _ _ _ | .clz g _ _ | .ctz g _ _ | .popc g _ _ | .bswap g _ _ | .seq g _ _ _ | .sne g _ _ _ | .slt g _ _ _
  | .sltu g _ _ _ | .sext g _ _ _ | .zext g _ _ _ | .bfx g _ _ _ _ | .bfxu g _ _ _ _ | .bfi g _ _ _ _ _
  | .sel g _ _ _ _ | .addi g _ _ _ | .andi g _ _ _ | .ori g _ _ _ | .xori g _ _ _ | .slli g _ _ _ | .srli g _ _ _
  | .srai g _ _ _ | .slti g _ _ _ | .sltiu g _ _ _ | .lea g _ _ _ _ _ | .li g _ _ | .lih g _ _ _ | .mov g _ _
  | .fadd g _ _ _ _ _ | .fsub g _ _ _ _ _ | .fmul g _ _ _ _ _ | .fdiv g _ _ _ _ _ | .fsqrt g _ _ _ _
  | .fma g _ _ _ _ _ _ | .fmin g _ _ _ _ | .fmax g _ _ _ _ | .fcmp g _ _ _ _ _ | .fclass g _ _ _ | .fsgnj g _ _ _ _ _
  | .fcvt g _ _ _ _ _ | .pcnt g _ _ | .pfirst g _ _ | .ld g _ _ _ _ _ | .st g _ _ _ _ _ | .get g _ _ _ _ _
  | .put g _ _ _ _ _ | .vget g _ _ _ _ | .vput g _ _ _ _ | .copy g _ _ _ _ _ | .gather g _ _ _ _ _ _ _ _
  | .scatter g _ _ _ _ _ _ _ _ | .amsg g _ _ _ _ _ _ | .own g _ _ _ _ _ | .ldfe g _ _ _ _ | .stef g _ _ _ _
  | .tagf g _ _ _ | .tage g _ _ _ | .amoAdd g _ _ _ _ _ _ | .amoAnd g _ _ _ _ _ _ | .amoOr g _ _ _ _ _ _
  | .amoXor g _ _ _ _ _ _ | .amoMin g _ _ _ _ _ _ | .amoMax g _ _ _ _ _ _ | .amoSwap g _ _ _ _ _ _
  | .amoCas g _ _ _ _ _ _ _ | .redAdd g _ _ _ _ | .redMin g _ _ _ _ | .redMax g _ _ _ _ | .csnap g _ _ _ _
  | .fenceRel g _ | .fenceAcq g _ | .sigRel g _ _ _ _ | .enq g _ _ _ _ _ _ | .enqA g _ _ _ _ _ _ | .deq g _ _ _ _ _ _
  | .stgClaim g _ _ | .stgFree g _ _ | .mma g _ _ _ _ _ _ | .mmaF32 g _ _ _ _ _ _ | .mmaF64 g _ _ _ _ _ _
  | .mmag g _ _ _ _ _ _ _ | .mmas g _ _ _ _ _ _ | .mscan g _ _ _ _ _ _ | .mscanSeg g _ _ _ _ _ _ | .accGet g _
  | .accGive g _ | .accZero g _ | .accLd g _ _ _ _ _ _ | .accSt g _ _ _ _ _ _ | .accAdd g _ _ _ | .accRed g _ _ _
  | .qtile g _ _ _ _ _ _ | .fmtSet g _ _ | .fmtGet g _ _ | .sysr g _ _ | .sysw g _ _ | .ctrRd g _ _ | .ctrCfg g _ _ => some g
  | _ => none

/-! Tiles and the matrix unit. -/

/-- The first element a tile access names is on a lane boundary and its last lies in the tile (R147). -/
def startFits (wide : Bool) (start : BitVec 10) : Prop :=
  start.toNat % lanes wide = 0 ∧ start.toNat + lanes wide ≤ 1024
/-- The bytes a vector store writes: those of the enabled lanes (R146). -/
def laneBytes (s : State) (g : Guard) (wide : Bool) (v : VReg) : List (Option Byte) :=
  ((List.range (lanes wide)).map fun j =>
    if enabled s g wide j then (natLe (width wide / 8) (L s wide v j)).map some
    else List.replicate (width wide / 8) none).flatten
/-- The multiplies and scans: the instruction, its form, its rows of A, its chunks and the value of its third register
(R214 to R222). -/
def multiplies (g : Guard) (d : AccReg) (a b t : XReg) (v : VReg) (k : BitVec 4) (p : PktMod) (sf : SlotField) (s : State) :
    List (Instr × MForm × List Nat × Nat × Word) :=
  [(.mma g d a b k p sf, .mma, [], k.toNat + 1, 0), (.mmaF32 g d a b k p sf, .mmaF32, [], k.toNat + 1, 0),
   (.mmaF64 g d a b k p sf, .mmaF64, [], k.toNat + 1, 0), (.mmas g d a b k p sf, .mmas, [], k.toNat + 1, 0),
   (.mmag g d a b v k p sf, .mmag,
     (List.range 32).map fun j => ((s.work.regs.rv v).extractLsb' (16 * j) 16).toNat, k.toNat + 1, 0),
   (.mscan g d a b t p sf, .mscan, [], 1, X s t), (.mscanSeg g d a b t p sf, .mscan, [], 1, X s t)]
/-- The four words of a view record of local scratch as the block sees them (R207). -/
def viewWords (s : State) (t o : Nat) : List Word := (List.range 4).map fun n => s.loadWord s.work t (o + 8 * n)
/-- The reserved bits of a scan's third register are zero (R222). -/
def scanFits (i : Instr) (v : Word) : Prop :=
  match i with
  | .mscan .. => v.extractLsb' 37 27 = 0 ∧ v.extractLsb' 0 32 = 0
  | .mscanSeg .. => v.extractLsb' 37 27 = 0
  | _ => True
/-- What a head that hands a request over leaves: an accumulator use for each accumulator it names, then the request. -/
def handsOver (s : State) (uses : List AccReg) (m : MReq) : State :=
  after s { s.work with acts := s.work.acts ++ uses.map (fun n => (s.work.k, .accUse n.toNat)) ++ [(s.work.k, .matrix m)] }
/-- What every request carries: its frame, launch and code position. -/
def request (s : State) (form : MForm) (d : AccReg) (sf : SlotField) : MReq :=
  { form := form, d := d.toNat, fp := s.me.fp, lid := s.me.lid, sid := s.mySid, thr := s.me.thr,
    pos := BitVec.ofNat 32 (32 * s.work.line + s.work.k), slot := if sf.sv then some sf.slot.toNat else none }
/-- Element i of accumulator n in its FP32 or FP64 view (R204). -/
def accElem (x : Core) (n : Nat) (wide : Bool) (i : Nat) : Nat :=
  leNat ((List.range (width wide / 8)).map fun j => mget 0 x.acc (4096 * n + width wide / 8 * i + j))
/-- An accumulator as its 1,024 or 512 elements. -/
def accCount (wide : Bool) : Nat := if wide then 512 else 1024

/-- n bytes of a core's scratch. -/
def bytesAt (s : State) (c o n : Nat) : List Byte := (List.range n).map fun j => mget 0 (s.core c).scr (o + j)
/-- n bytes at a local address as the unit of core c reads them (R110); an address that is not local has none. -/
def localBytes (s : State) (c : Nat) (a : Word) (n : Nat) : List Byte :=
  ((s.localAddr c a).map fun p => bytesAt s p.1 p.2 n).getD []
/-- Is the record of a tile one that its format admits (R136, R210)? -/
def recordFits (s : State) (c : Nat) (fmt a : Word) : Prop :=
  (fmtRead fmt).plain = true ∨ (fmtRead fmt).recordOk (localBytes s c a (fmtRead fmt).size) = true
/-- Element i of the tile at an address, row by row: its true value (R208, R214). -/
def tileElem (s : State) (c : Nat) (fmt a : Word) (i : Nat) : FVal :=
  ((fmtRead fmt).widen (localBytes s c a (fmtRead fmt).size)).getD i (.fin false 0 0)
/-- Element (i, k) of a sparse chunk record with N_r entries in row r: the value of the entry of row i in column k times its row's
scale, and 0 where there is none (R220). -/
def sparseAt (f : Fmt) (counts : List Byte) (bs : List Byte) (i k : Nat) : FVal :=
  let first := ((counts.take i).map (·.toNat)).sum
  let total := (counts.map (·.toNat)).sum
  let v := 64 * ((total * f.bw + 511) / 512)
  let x := 64 * ((total + 63) / 64)
  let byte := fun n => (bs.getD n 0).toNat
  let scale : Int := if f.scl = 1 then byte (v + x + i) else if f.scl = 2 then byte (v + x) else 127
  match (List.range (counts.getD i 0).toNat).find? fun e => byte (v + first + e) % 32 = k with
  | some e => (f.codeVal (leNat (bs.take v) / 2 ^ (f.bw * (first + e)) % 2 ^ f.bw)).scaled (scale - 127)
  | none => .fin false 0 0
/-- Element (i, k) of A, k within chunk n: of tile (0, n), of the row that an index of `mmag` names, or of a sparse chunk record
(R208, R219, R220). -/
def aAt (s : State) (c : Nat) (m : MReq) (n i k : Nat) : FVal :=
  if m.form = .mmag then
    let g := m.rows.getD i 0
    if g = 0xffff then .fin false 0 0 else tileElem s c m.a.fmt (m.a.tile (g / 32) n) (32 * (g % 32) + k)
  else if m.form = .mmas then
    sparseAt (fmtRead m.a.fmt) m.budget (localBytes s c (m.a.tile 0 n) (aSize m)) i k
  else tileElem s c m.a.fmt (m.a.tile 0 n) (32 * i + k)
/-- No record of a request fails its check (R210, R220). -/
def allFit (s : State) (c : Nat) (m : MReq) : Prop :=
  (∀ q ∈ m.tiles, (s.localAddr c q.1).isSome) ∧ ∀ n < m.chunks, recordFits s c m.b.fmt (m.b.tile n 0) ∧
    (if m.form = .mmag then ∀ g ∈ m.rows, g ≠ 0xffff → recordFits s c m.a.fmt (m.a.tile (g / 32) n)
     else if m.form = .mmas then
      (sparseVals (fmtRead m.a.fmt) m.budget (localBytes s c (m.a.tile 0 n) (aSize m))).isSome = true
     else recordFits s c m.a.fmt (m.a.tile 0 n))
/-- The product of two elements, none where one of them is zero (R214, R215). -/
def productOf (a b : FVal) : Option FVal :=
  match a, b with
  | .fin _ 0 _, _ | _, .fin _ 0 _ => none
  | .nan _, _ | _, .nan _ => some (.nan false)
  | .inf m, y => some (.inf (m != y.neg))
  | x, .inf n => some (.inf (x.neg != n))
  | .fin m x e, .fin n y f => some (.fin (m != n) (x * y) (e + f))
/-- A finite value in units of 2^u, truncated toward zero. -/
def inUnits (u : Int) : FVal → Int
  | .fin n m e => let k : Int := if u ≤ e then m * 2 ^ (e - u).toNat else (m / 2 ^ (u - e).toNat : Nat)
                  if n then -k else k
  | _ => 0
/-- The exact sum of an FP32 pattern and v units of 2^u, rounded once; a NaN or an infinity of the pattern stays. -/
def plusExact (acc : Nat) (v u : Int) : Nat :=
  match fmtF32.val acc with
  | .nan _ => fmtF32.qnan
  | .inf _ => acc
  | .fin n m e =>
    let lo := min e u
    let t := inUnits lo (.fin n m e) + v * 2 ^ (u - lo).toNat
    if t = 0 then 0 else (fmtF32.round .rne (t < 0) t.natAbs lo false).1
/-- The aligned chunk sum of R214 with U fraction places, over the products of a chunk, added to an accumulator element. -/
def chunkSum (u : Nat) (acc : Nat) (ps : List FVal) : Nat :=
  let has := fun n => ps.contains (.inf n)
  if ps = [] then acc
  else if ps.any FVal.isNan ∨ (has true ∧ has false) then fmtF32.qnan
  else if has true then (fmtF32.add .rne acc (fmtF32.inf true)).1
  else if has false then (fmtF32.add .rne acc (fmtF32.inf false)).1
  else
    let logs : List Int := ps.map fun p => match p with
      | .fin _ m e => e + (Nat.log2 m : Int)
      | _ => 0
    let unit := 1 + (logs.foldl max (logs.headD 0)) - u
    plusExact acc (ps.map (inUnits unit)).sum unit
/-- Output (i, j) of a multiply of FP32 accumulators, chunk by chunk in ascending k: 32 at a time with U = 62, or for `mma.f32` 8
with U = 80 (R214). -/
def mulOut (s : State) (c : Nat) (m : MReq) (i j : Nat) (old : Nat) : Nat :=
  let n := if m.form = .mmaF32 then 8 else 32
  let u := if m.form = .mmaF32 then 80 else 62
  (List.range (m.chunks * 32 / n)).foldl (fun acc b =>
    let k := fun x => b * n % 32 + x
    chunkSum u acc ((List.range n).filterMap fun x =>
      productOf (aAt s c m (b * n / 32) i (k x)) (tileElem s c m.b.fmt (m.b.tile (b * n / 32) 0) (32 * k x + j)))) old
/-- The 64-bit number at place i of an FP64 tile. -/
def f64At (s : State) (c : Nat) (a : Word) (n i : Nat) : Nat := leNat (((localBytes s c a n).drop (8 * i)).take 8)
/-- A scan's pair (A, B) of step t + 1 after its levels of distance 1, 2, …, 2^(n−1) (R222). -/
def scanPair (p : Nat → Nat × Nat) : Nat → Nat → Nat × Nat
  | 0, t => p t
  | n + 1, t =>
    let x := scanPair p n t
    let y := scanPair p n (t - 2 ^ n)
    if 2 ^ n ≤ t then ((fmtF32.mul .rne x.1 y.1).1, (fmtF32.fma .rne x.1 y.2 x.2).1) else x

/-! Loader and storer cores. -/

/-- The core whose turn it is and whether it is the storer. -/
def lsHere (s : State) : Nat × Bool := (s.cur.core, s.cur.unit = 17)
/-- Nothing stops a custom form: no channel of the core's set has met a fault and no rewritten descriptor is bad (R104). -/
def lsQuiet (s : State) (c : Nat) (st : Bool) : Prop := s.chanFault c st = false ∧ s.badWritten c st = none
/-- A custom form completes on a core: its result in x[d], the pc past it, nothing waiting any more (R96). -/
def lsDone (s : State) (c : Nat) (st : Bool) (d : XReg) (v : Word) : State :=
  s.setLs c st { (s.ls c st).wx d v with pc := (s.ls c st).pc + 4, waiting := none, written := [] }
/-- The form waits: the core stands at it. -/
def lsWaits (s : State) (c : Nat) (st : Bool) (i : Instr) : State := s.setLs c st { s.ls c st with waiting := rvWordOf i }
/-- RV64I and RV64M register arithmetic (R84). -/
def rvOps : List (RvOp × (Word → Word → Word)) :=
  [(.add, fun a b => a + b), (.sub, fun a b => a - b), (.sll, fun a b => a <<< (b.extractLsb' 0 6)),
   (.slt, fun a b => one (a.toInt < b.toInt)), (.sltu, fun a b => one (a.toNat < b.toNat)), (.xor, fun a b => a ^^^ b),
   (.srl, fun a b => a >>> (b.extractLsb' 0 6)), (.sra, fun a b => BitVec.ofInt 64 (a.toInt >>> (b.extractLsb' 0 6).toNat)),
   (.or, fun a b => a ||| b), (.and, fun a b => a &&& b), (.mul, fun a b => a * b),
   (.mulh, fun a b => BitVec.ofInt 64 ((a.toInt * b.toInt) >>> 64)), (.mulhsu, fun a b => BitVec.ofInt 64 ((a.toInt * b.toNat) >>> 64)),
   (.mulhu, fun a b => BitVec.ofNat 64 ((a.toNat * b.toNat) >>> 64)),
   (.div, fun a b => if b = 0#64 then 0xffffffffffffffff#64 else BitVec.ofInt 64 (a.toInt.tdiv b.toInt)),
   (.divu, fun a b => if b = 0#64 then 0xffffffffffffffff#64 else BitVec.ofNat 64 (a.toNat / b.toNat)),
   (.rem, fun a b => if b = 0#64 then a else BitVec.ofInt 64 (a.toInt.tmod b.toInt)),
   (.remu, fun a b => if b = 0#64 then a else BitVec.ofNat 64 (a.toNat % b.toNat))]
/-- Their 32-bit forms, whose results are sign-extended (R84). -/
def rvOpWs : List (RvOpW × (BitVec 32 → BitVec 32 → BitVec 32)) :=
  [(.addw, fun a b => a + b), (.subw, fun a b => a - b), (.sllw, fun a b => a <<< (b.extractLsb' 0 5)),
   (.srlw, fun a b => a >>> (b.extractLsb' 0 5)), (.sraw, fun a b => BitVec.ofInt 32 (a.toInt >>> (b.extractLsb' 0 5).toNat)),
   (.mulw, fun a b => a * b),
   (.divw, fun a b => if b = 0#32 then 0xffffffff#32 else BitVec.ofInt 32 (a.toInt.tdiv b.toInt)),
   (.divuw, fun a b => if b = 0#32 then 0xffffffff#32 else BitVec.ofNat 32 (a.toNat / b.toNat)),
   (.remw, fun a b => if b = 0#32 then a else BitVec.ofInt 32 (a.toInt.tmod b.toInt)),
   (.remuw, fun a b => if b = 0#32 then a else BitVec.ofNat 32 (a.toNat % b.toNat))]
/-- Immediate arithmetic (R84). -/
def rvImms : List (RvImm × (Word → Word → Word)) :=
  [(.addi, fun a i => a + i), (.slti, fun a i => one (a.toInt < i.toInt)), (.sltiu, fun a i => one (a.toNat < i.toNat)),
   (.xori, fun a i => a ^^^ i), (.ori, fun a i => a ||| i), (.andi, fun a i => a &&& i)]
def rvShifts : List (RvSh × (Word → Nat → Word)) :=
  [(.slli, fun a n => a <<< n), (.srli, fun a n => a >>> n), (.srai, fun a n => BitVec.ofInt 64 (a.toInt >>> n))]
def rvShiftWs : List (RvShW × (BitVec 32 → Nat → BitVec 32)) :=
  [(.slliw, fun a n => a <<< n), (.srliw, fun a n => a >>> n), (.sraiw, fun a n => BitVec.ofInt 32 (a.toInt >>> n))]
def rvBranches : List (RvBr × (Word → Word → Bool)) :=
  [(.beq, fun a b => a = b), (.bne, fun a b => a ≠ b), (.blt, fun a b => a.toInt < b.toInt), (.bge, fun a b => b.toInt ≤ a.toInt),
   (.bltu, fun a b => a.toNat < b.toNat), (.bgeu, fun a b => b.toNat ≤ a.toNat)]
/-- Loads: bytes, and the register value of the number they hold (R84). -/
def rvLoads : List (RvLd × Nat × (Nat → Word)) :=
  [(.lb, 1, fun n => (BitVec.ofNat 8 n).signExtend 64), (.lh, 2, fun n => (BitVec.ofNat 16 n).signExtend 64),
   (.lw, 4, fun n => (BitVec.ofNat 32 n).signExtend 64), (.ld, 8, BitVec.ofNat 64), (.lbu, 1, BitVec.ofNat 64),
   (.lhu, 2, BitVec.ofNat 64), (.lwu, 4, BitVec.ofNat 64)]
def rvStores : List (RvSt × Nat) := [(.sb, 1), (.sh, 2), (.sw, 4), (.sd, 8)]
/-- A stream fault raised by an instruction: a STREAM record of the cause, the launch faulted, the core stopped (R104). -/
def streamStop (s : State) (c : Nat) (st : Bool) (cause : Nat) : State := s.streamFault c st cause 0
/-- A ring form's ring and slot pass the checks of R100. -/
def ringFits (s : State) (c : Nat) (r k : Word) : Prop :=
  r.toNat < 0x100000 ∧ (s.ring c r.toNat).ok r.toNat = true ∧ k.toNat ≤ (s.ring c r.toNat).nslot
/-- The tag an acquire takes a slot from and the tag it leaves: EMPTY to FILLING inbound, FULL to DRAINING outbound (R92). -/
def acquires (s : State) (c : Nat) (r : Word) : Nat × Nat := if (s.ring c r.toNat).outbound then (2, 3) else (0, 1)
/-- The address of a ring slot (R91). -/
def slotAt (s : State) (c : Nat) (r k : Word) : Word :=
  BitVec.ofNat 64 ((s.ring c r.toNat).base + k.toNat * (s.ring c r.toNat).slen)
/-- A custom form held at a core that is running: the event that tries it again meets it (R97, R100). -/
def held (s : State) (c : Nat) (st : Bool) (i : Instr) : Prop :=
  c < 2048 ∧ (s.ls c st).running = true ∧ (s.core c).stopped = false ∧
    ∃ w, (s.ls c st).waiting = some w ∧ decodeRv32 w = .ok i
/-- What `cp.go` does on a core in its turn, and again at the event that finds a channel idle: an event or the instruction
itself runs it (R88, R93, R97). -/
def GoesOn (i : Instr) (s : State) (c : Nat) (st : Bool) (d a : XReg) : Prop :=
  let l := s.ls c st
  let ad := (l.rx a).toNat
  let ws := (List.range 4).map fun j => bytesWord ((List.range 8).map fun k => mget 0 l.dmem (ad - 0x4000 + 8 * j + k))
  let fmt := mget 0 (s.core c).fmt ((ws.getD 2 0).extractLsb' 35 4).toNat
  (ad % 8 = 0 → 0x4000 ≤ ad → ad + 32 ≤ 0x6000 → s.xferBad c ws fmt = none →
    (∀ u ∈ lsChans st, ((s.core c).chan u).busy = false → (∀ v ∈ lsChans st, v < u → ((s.core c).chan v).busy = true) →
      (s.core c).slotCnts.length < 16 →
      ∃ t, exec i s = .next t ∧ t.ls c st = (lsDone s c st d (BitVec.ofNat 64 u)).ls c st ∧
        ((t.core c).chan u).busy = true ∧ ((t.core c).chan u).count = 0 ∧ ((t.core c).chan u).fault = false ∧
        ((t.core c).chan u).x.fmt = fmt ∧ ((t.core c).chan u).x.len = ((ws.getD 2 0).extractLsb' 0 25).toNat ∧
        (bitOf (ws.getD 2 0) 31 = false → ((t.core c).chan u).x.src = ws.getD 0 0 ∧ ((t.core c).chan u).x.dst = ws.getD 1 0 ∧
          (t.core c).slotCnts = (s.core c).slotCnts) ∧
        (∀ v, v ≠ u → (t.core c).chan v = (s.core c).chan v) ∧ t.mem = s.mem) ∧
    ((∀ u ∈ lsChans st, ((s.core c).chan u).busy = true) → exec i s = .next (lsWaits
      (if bitOf (ws.getD 2 0) 31 then s.touchRing c (bits (ws.getD 3 0) 19 0) (bits (ws.getD 3 0) 31 24) else s) c st (.cpGo d a)))) ∧
  ((ad % 8 ≠ 0 ∨ ad < 0x4000 ∨ 0x6000 < ad + 32) → exec i s = .next (streamStop s c st 2))

/-! Blocks, tokens, traps and resident frames. -/

/-- The packet that an event takes from the deliveries of a core, and the state without it. -/
def Arrives (s : State) (c : Nat) (f : Packet → Bool) (p : Packet) (s1 : State) : Prop :=
  c < 2048 ∧ ∃ rest, (s.core c).first f = some (p, rest) ∧ s1 = s.modCore c fun x => x.took rest
/-- A packet's frame is resident at its home and takes it (R117, R123). -/
def resident (s : State) (c : Nat) (f : Word) (p : Packet) : Prop :=
  let d := (s.core c).dir (fpUnit f)
  fpMalformed (s.core c) f = false ∧ (s.core c).lids.contains d.lid = true ∧ (s.launch d.lid).sid = p.sid ∧
    d.alloc = true ∧ d.gen = fpGen f ∧ d.reserved = false
/-- The reply to a request leaves the node that served it (R151): one packet more at that node's router. -/
def Replies (s t : State) (p : Packet) (b : Body) : Prop :=
  let m := mergePort p.dst p.src
  ∃ q, (t.router m.1).merge = (s.router m.1).merge ++ [(m.2, q)] ∧ q.body = b ∧ q.dst = p.src ∧ q.src = p.dst ∧ q.id = p.id ∧
    q.sid = p.sid ∧ q.lid = p.lid ∧ q.fault = false
/-- The state a core's context starts its block from, and the place of its line and head (R241). -/
def posLine (x : Ctx) : Nat := (x.pos.extractLsb' 5 27).toNat
def posHead (x : Ctx) : Nat := (x.pos.extractLsb' 0 5).toNat
/-- The debugger watches nothing (R338). -/
def noDebugger (s : State) : Prop := bitOf s.dist.dbgCtl 63 = false
/-- Word n of the frame at a location. -/
def frameWord (s : State) (c u n : Nat) : Word := (s.core c).scrWord (64 * u + 8 * n)
/-- No full/empty request waits on any core (R115). -/
def noneDeferred (s : State) : Prop := ∀ c, (s.core c).defer = []
/-- Where a block that took no control head goes (R259, R265): the line after it, or the start of the innermost loop. -/
def goesOn (s : State) (c k : Nat) (line : Nat) (r : Regs) (t : State) : Prop :=
  (t.ctx c k).regs = r ∧ (t.ctx c k).pos = BitVec.ofNat 32 (32 * line) ∧ (t.ctx c k).work = {} ∧ (t.ctx c k).bound = true ∧
    (t.ctx c k).fp = (s.ctx c k).fp
/-- A slot word with another COUNT (R242). -/
def withCount (v : Word) (n : Int) : Word := BitVec.ofInt 16 n ++ v.extractLsb' 0 48
/-- A slot word that has fired: COUNT 0, ARMED 0, ENTRY and PRIO kept (R243). -/
def firedWord (v : Word) : Word := (0#17 ++ v.extractLsb' 0 47 : BitVec 64)
/-- The record words of R323 that stand for a context, by index. -/
def recordWord (x : Ctx) (k : Nat) (t : Trap) (head : Nat) (n : Nat) : Word :=
  let r := x.regs
  if n = 0 then (((x.pos ++ t.code) ++ BitVec.ofNat 8 head) ++ BitVec.ofNat 8 t.cls.code : BitVec 64)
  else if n = 1 then x.fp else if n = 2 then t.addr
  else if n = 3 then BitVec.ofNat 64 (16 * k + r.depth.toNat)
  else if n = 4 then BitVec.ofNat 64 (r.l0.first.toNat * 2 ^ 32 + r.l0.last.toNat)
  else if n = 5 then BitVec.ofNat 64 r.l0.rem.toNat
  else if n = 6 then BitVec.ofNat 64 (r.l1.first.toNat * 2 ^ 32 + r.l1.last.toNat)
  else if n = 7 then BitVec.ofNat 64 r.l1.rem.toNat
  else if n = 8 then BitVec.ofNat 64 r.cf.toNat
  else if n = 9 then ((r.rq 3 ++ r.rq 2) ++ r.rq 1) ++ r.rq 0
  else if n = 10 then ((r.rq 7 ++ r.rq 6) ++ r.rq 5) ++ r.rq 4
  else if n = 11 then BitVec.ofNat 64 r.marks.toNat
  else if 16 ≤ n ∧ n < 48 then r.rx (BitVec.ofNat 5 (n - 16))
  else if 64 ≤ n ∧ n < 192 then (r.rv (BitVec.ofNat 4 ((n - 64) / 8))).extractLsb' (64 * ((n - 64) % 8)) 64
  else 0
/-- A block ready to commit on a core that nothing holds up: what its indivisible accesses read still stands, and there is room for
what it may ask for. -/
def Ready (s : State) (c k : Nat) : Prop :=
  c < 2048 ∧ k < 16 ∧ (s.ctx c k).bound = true ∧ (s.ctx c k).work.active = true ∧
    (∀ r ∈ (s.ctx c k).work.seen, (List.range r.2.2.length).map (fun j => mget 0 (s.core r.1).scr (r.2.1 + j)) = r.2.2) ∧
    (s.core c).park = false ∧ noDebugger s ∧ noneDeferred s ∧ (s.core c).copyQ.length ≤ 7 ∧ (s.core c).mq.length ≤ 7 ∧
    (s.core c).ni.enqBuf.length ≤ 15
/-- A ready block with this one action and no store, which no control head ends and a line follows at which it may go on. -/
def ReadyWith (s : State) (c k j : Nat) (a : Act) : Prop :=
  let w := (s.ctx c k).work
  Ready s c k ∧ w.stores = [] ∧ w.acts = [(j, a)] ∧ w.ctl = .fall ∧ w.regs.depth = 0 ∧ w.line + 1 < (s.launch (s.ctx c k).lid).clen ∧
    ∃ img, s.lineAt c (s.ctx c k).lid (w.line + 1) = some img ∧ (lineHdr img).kind ≠ 1
/-- The block of a context is discarded and a trap taken at one of its heads (R29, R322). -/
def trapsAt (s : State) (c k head : Nat) (t : Trap) : Prop :=
  exec (.blockCommit c k) s = .next ({ s with cur := ⟨c, k⟩ }.takeTrap c k t head)
/-- The block of a context commits, and its threadlet goes on. -/
def commitsTo (s : State) (c k : Nat) (f : State → Prop) : Prop :=
  ∃ t, exec (.blockCommit c k) s = .next t ∧ (t.ctx c k).pos = BitVec.ofNat 32 (32 * ((s.ctx c k).work.line + 1)) ∧
    (t.ctx c k).bound = true ∧ (t.ctx c k).fp = (s.ctx c k).fp ∧ f t
/-- The loops left where a transfer goes to a line: from the innermost out, those whose bodies the line lies outside are popped
(R264). -/
def loopsAt (t : Nat) (l : List LoopEnt) : List LoopEnt :=
  (l.reverse.dropWhile fun e => t < e.first.toNat || e.last.toNat < t).reverse
/-- Where an iteration that closes goes, and the loops left, innermost first (R265). -/
def closes : List LoopEnt → Nat × List LoopEnt
  | [] => (0, [])
  | e :: rest =>
    if 1 < e.rem.toNat then (e.first.toNat, { e with rem := e.rem - 1 } :: rest)
    else if (rest.head?.map (·.last)) = some e.last then closes rest else (e.last.toNat + 1, rest)
/-- A slot word of these fields (R242). -/
def slotOfFields (count : Int) (armed : Bool) (p : Nat) (e : BitVec 32) : Word :=
  ((((BitVec.ofInt 16 count ++ BitVec.ofBool armed) ++ BitVec.ofNat 2 p) ++ 0#13) ++ e : BitVec 64)
/-- The owner word that says a frame holds an accumulator (R205). -/
def holderWord (f : Word) : Word := BitVec.ofNat 64 (2 ^ 63 + fpUnit f * 2 ^ 8 + (fpGen f).toNat)
/-- A frame pointer's own checks at a core: well formed, its home this core, and its frame resident there (R117, R269). -/
def homeHere (s : State) (c : Nat) (f : Word) : Prop := fpMalformed (s.core c) f = false ∧ fpCore f = c ∧ fpPkg f = s.pkg

/-! Banks, messages and donation. -/

/-- A request for on-chip scratch that the protection unit of its core grants (R49, R82, R110). -/
def Granted (s : State) (c : Nat) (p : Packet) (a : Word) (n : Nat) (rd wr : Bool) : Prop :=
  onChip a = true ∧ a.extractLsb' 22 12 = 0 ∧ addrOff a + n ≤ 0x100000 ∧ (s.core c).grants p.sid (addrOff a) n rd wr = true
/-- The atomics on a word of w bits (R162). -/
def atomics (w : Nat) (signed : Bool) : List (AmoOp × (BitVec w → BitVec w → BitVec w)) :=
  let lt := fun (a b : BitVec w) => if signed then a.toInt < b.toInt else a.toNat < b.toNat
  [(.add, fun o v => o + v), (.and, fun o v => o &&& v), (.or, fun o v => o ||| v), (.xor, fun o v => o ^^^ v),
   (.min, fun o v => if lt v o then v else o), (.max, fun o v => if lt o v then v else o), (.swap, fun _ v => v)]
/-- The bytes of a core's scratch but for n of them at an offset are as before. -/
def keepsOutside (s t : State) (c o n : Nat) : Prop :=
  ∀ k, k < o ∨ o + n ≤ k → mget 0 (t.core c).scr k = mget 0 (s.core c).scr k
/-- The types of a reduction (R163). -/
def redTypes (op : RedOp) : List Ty := if op = .sum then [.s64, .f32, .f64] else [.s64, .z64, .f32, .f64]
/-- A node has one packet more for its router, of this body and destination. -/
def Sends (s t : State) (c : Nat) (dst : Node) (f : Packet → Prop) : Prop :=
  ∃ q, (t.router c).merge = (s.router c).merge ++ [(0, q)] ∧ q.dst = dst ∧ f q
/-- A class has a free frame, the next of its list, whose pointer is f (R120, R268). -/
def NextFrame (s : State) (c cls : Nat) (f : Word) : Prop :=
  ∃ u rest, mget [] (s.core c).fr.free cls = u :: rest ∧ ((s.core c).dir u).cls.toNat = cls ∧ ((s.core c).dir u).alloc = false ∧
    ((s.core c).dir u).reserved = false ∧
    fpUnit f = u ∧ f = mkFp s.pkg c u (nextGen ((s.core c).dir u) ((s.core c).dir u).spilled ((s.core c).dir u).sgen) cls
/-- A token for a frame and position is the last of a class, and the frame holds these words. -/
def Started (s t : State) (c pr : Nat) (f : Word) (e : BitVec 32) (ws : List (Nat × Word)) : Prop :=
  (∃ tk, mget [] (t.core c).ready pr = mget [] (s.core c).ready pr ++ [tk] ∧ tk.fp = f ∧ tk.pos = e) ∧
    (∀ w ∈ ws, frameWord t c (fpUnit f) w.1 = w.2 ∧ (t.core c).full (8 * fpUnit f + w.1) = true) ∧
    ((t.core c).dir (fpUnit f)).alloc = true
/-- The argument words of a handler from word 0 (R158, R271). -/
def argWords (args : List Word) : List (Nat × Word) := args.zipIdx.map fun p => (p.2, p.1)

/-! Slices. -/

/-- The request at the head of a slice's queue, and the slice without it; nothing is parked or waits in a window there. -/
def Heads (s : State) (n : Nat) (p : Packet) (s1 : State) : Prop :=
  n < 128 ∧ (s.slice n).parked = [] ∧ (s.slice n).wins = [] ∧
    ∃ rest, (s.slice n).inq = p :: rest ∧ s1 = s.modSlice n fun x => { x with inq := rest }
/-- The same, and no reduction cell is held there. -/
def AtHead (s : State) (n : Nat) (p : Packet) (s1 : State) : Prop := Heads s n p s1 ∧ (s.slice n).cells = []
/-- The directory entry of a space at a slice (R65). -/
def dirEntry (s : State) (n : Nat) (sid : Half) : Word := s.pword (bits (s.slice n).sdir 42 20 * 2 ^ 20 + 8 * sid.toNat)
/-- The only translation the slice holds is this one, and it covers the address (R72). -/
def onlyStc (s : State) (n : Nat) (p : Packet) (a : Word) (e : StcEnt) : Prop :=
  bitOf (dirEntry s n p.sid) 63 = true ∧ (s.slice n).stc = [e] ∧ e.sid = p.sid ∧ e.page = a.toNat % 2 ^ 45 / pageSize e.level
/-- A leaf lets a read or a write of resident sectors through: no restriction, not remote, in the first tier (R64, R69, R71). -/
def opens (e : StcEnt) (right : Nat) (a : Word) : Prop :=
  bitOf e.comp 63 = false ∧ bitOf e.leaf right = true ∧ bitOf e.leaf 56 = false ∧
    bitOf e.leaf 58 = false ∧ 4096 * bits e.leaf 29 0 + a.toNat % 2 ^ 45 % pageSize e.level < 2 ^ 40
/-- A whole line of the slice that holds the address, clean of poison. -/
def wholeLine (s : State) (n : Nat) (p : Packet) (a : Word) (l : L2Line) : Prop :=
  (s.slice n).lines = [l] ∧ l.sid = p.sid ∧ l.va.toNat = a.toNat / 256 ∧ l.valid = 0xff ∧ l.poison = 0
/-- The host caches no line of the device and none is being invalidated (R240). -/
def hostHolds (s : State) : Prop := s.host.cached = [] ∧ s.host.pendInv = []
/-- The party owns the device (R346). -/
def owns (s : State) (p : Party) : Prop := bitOf s.io.own 63 = true ∧ bits s.io.own 62 61 = Party.code p
/-- One fault record more, of this kind (R327). -/
def Records (s t : State) (kind : Nat) : Prop := ∃ r, t.io.recIn = s.io.recIn ++ [r] ∧ bits r.w0 63 56 = kind

/-! Launches. -/

/-- A launch is on its cores as R253 places it: each holds it alone, in its space, with the initial token at the launch's
entry and class and the argument words in the token's frame. -/
def Placed (t : State) (l : Launch) : Prop :=
  (t.launch l.lid).phase = .resident ∧ ∀ c ∈ l.cores, (t.core c).lids = [l.lid] ∧ (t.core c).sid = l.sid ∧
    ∃ tk, mget [] (t.core c).ready l.iprio = [tk] ∧ tk.pos = l.entry ∧ fpCls tk.fp = l.iclass ∧ fpCore tk.fp = c ∧
      ∀ i < l.argn, frameWord t c (fpUnit tk.fp) i = l.imgWord 3 (8 * i)
/-- The initial frame of a placed launch on one of its cores: the argument words, full, then words that are 0 and empty, none of
them a pointer (R253). -/
def InitialFrame (t : State) (l : Launch) (c u : Nat) : Prop :=
  mget 0 (t.core c).ifps l.lid.toNat = mkFp t.pkg c u (fpGen (mget 0 (t.core c).ifps l.lid.toNat)) l.iclass ∧
    ∀ i < frameSize l.iclass / 8, (t.core c).isPtr (8 * u + i) = false ∧ (t.core c).full (8 * u + i) = (i < l.argn : Bool) ∧
      frameWord t c u i = if i < l.argn then l.imgWord 3 (8 * i) else 0
/-- Nothing that a core held before zeroisation is left on it, beside what the placement of a launch puts there (R253, R353):
scratch outside the initial frame at location u reads 0, full and no pointer; accumulators and their owner words, counters and
their configurations are 0; format registers and the loader and storer stores hold what the launch gives them. -/
def Zeroised (t : State) (l : Launch) (c u : Nat) : Prop :=
  let x := t.core c
  (∀ o, o < 64 * u ∨ 64 * u + frameSize l.iclass ≤ o → mget 0 x.scr o = 0 ∧ x.full (o / 8) = true ∧ x.isPtr (o / 8) = false) ∧
    (∀ j, mget 0 x.acc j = 0 ∧ mget 0 x.owner j = 0 ∧ mget 0 x.ctr j = 0 ∧ mget 0 x.ctrCfg j = 0) ∧
    (∀ n < 16, mget 0 x.fmt n = if l.w 4 = 0 then 0 else l.imgWord 4 (8 * n)) ∧
    (∀ st, l.w (if st then 9 else 8) = 0 → ∀ j, mget 0 (x.lsCore st).imem j = 0 ∧ mget 0 (x.lsCore st).dmem j = 0)
/-- A launch whose rectangle lies on the package and whose descriptor passes the checks of R252, not nested, not failed. -/
def Sound (s : State) (l : Launch) : Prop :=
  s.hasLaunch l.lid = true ∧ s.launch l.lid = l ∧ l.fieldBad = none ∧ l.nested = false ∧ l.faulted = false ∧ l.root = l.lid ∧
    l.reserved = none ∧ l.ox + l.width ≤ 64 ∧ l.oy + l.height ≤ 32
/-- The rectangles reserved for the queued requests older than a launch (R304). -/
def earlierRects (s : State) (l : Launch) : List (Nat × Nat × Nat × Nat) :=
  s.launches.filterMap fun m => if m.phase = .queued && m.olderThan l then m.reserved.map fun o => (o.1, o.2, m.width, m.height) else none
/-- A state like another but that the party's access is noted and completes without error. -/
def heardOk (s : State) (p : Party) : State := (s.heard p).status false
/-- A command of a party that is not the owner changes nothing but the status of its access (R348). -/
def ownerOnly (s : State) (p : Party) (i : Instr) : Prop := ¬owns s p → exec i s = .next (s.status true)
/-- Word n of a record, but for SEQ, as R326 lays it out. -/
def recWordAt (r : FRec) (seq : Nat) (n : Nat) : Word := [r.w0, r.w1, r.w2, r.w3, wd seq, r.w5, r.w6, r.w7].getD n 0
/-- A launch waits in a queue (R299). -/
def waitsIn (s : State) (q : Nat) (l : Launch) : Prop :=
  l ∈ s.launches ∧ l.phase = .queued ∧ l.faulted = false ∧ bits (l.w 14) 47 44 = q
/-- A core holds a launch other than one that is not looked at: a resident one, one on its way to it, or one whose old rectangle it is of (R303,
R335). -/
def heldBut (s : State) (but : BitVec 32) (c : Nat) : Prop :=
  (s.core c).lids ≠ [] ∨ (s.core c).fwdTo ≠ none ∨ ∃ l ∈ s.launches, l.lid ≠ but ∧ l.nested = false ∧
    l.phase ∈ [.placing, .waking, .zeroing, .resident, .ending] ∧ (l.inRect c = true ∨ l.frozen = .restoring ∧ c ∈ l.goal)
def heldBy (s : State) (c : Nat) : Prop := heldBut s 0 c
/-- An aligned rectangle of a launch's size of which no core is held, that meets no rectangle reserved for another (R250, R303, R304). -/
def freeBut (s : State) (l : Launch) (but : BitVec 32) (o : Nat × Nat) : Prop :=
  o.1 % l.width = 0 ∧ o.2 % l.height = 0 ∧ o.1 + l.width ≤ 64 ∧ o.2 + l.height ≤ 32 ∧
    (∀ c ∈ rectCores o.1 o.2 l.width l.height, ¬heldBut s but c) ∧
    ∀ m ∈ s.launches, m.lid ≠ l.lid → m.phase = .queued → ∀ r, m.reserved = some r →
      meets (o.1, o.2, l.width, l.height) (r.1, r.2, m.width, m.height) = false
def freeFor (s : State) (l : Launch) (o : Nat × Nat) : Prop := freeBut s l 0 o
/-- R303's keys of a rectangle: the wake cost, the cores in use of the smallest unit that contains it and has twice its cores
(0 where none has), the number of its origin. -/
def rectKeys (s : State) (o : Nat × Nat) (w h : Nat) : Nat × Nat × Nat :=
  let touched := (rectCores o.1 o.2 w h).map sgpOf
  let wake := if touched.any fun g => s.dieOff (dieOfSgp g) then 17000 else if touched.any s.sgpOff then 1275 else 0
  let units := [(2, 2), (4, 4), (8, 8), (16, 16), (64, 32)].filter fun u => w ≤ u.1 && h ≤ u.2 && 2 * (w * h) ≤ u.1 * u.2
  let used := (units.head?.map fun u =>
    ((rectCores (o.1 - o.1 % u.1) (o.2 - o.2 % u.2) u.1 u.2).filter s.taken).length).getD 0
  (wake, used, o.2 * 64 + o.1)
/-- The order of R303's keys. -/
def keysLe (a b : Nat × Nat × Nat) : Prop :=
  a.1 < b.1 ∨ a.1 = b.1 ∧ (b.2.1 < a.2.1 ∨ b.2.1 = a.2.1 ∧ a.2.2 ≤ b.2.2)
/-- The class of a supergroup: the highest PCLASS of its resident launches, or −1 (R310). -/
def classAt (s : State) (g : Nat) : Int :=
  ((sgpCores g).flatMap fun c => (s.core c).lids.map fun l => (bits ((s.launch l).w 14) 43 42 : Int)).foldl max (-1)
/-- What makes a core active for a launch (R318): tokens and threadlets; deferred requests in its banks; requests out, from
injection to their answer; packets that wait in it; engine, copy and matrix requests not complete; a loader or storer core not done;
refills announced or not yet queued; child launches; packets that have reached it and are not yet looked at. -/
def coreKeepsRunning (s : State) (c : Nat) (lid : BitVec 32) : Prop :=
  let x := s.core c
  let undone := fun (st : Bool) => (s.env c).lid = lid ∧
    ((x.lsCore st).present = true ∧ (x.lsCore st).ended = false ∧ (x.lsCore st).faulted = false ∨
      ∃ u ∈ lsChans st, (x.chan u).busy = true)
  (∃ t ∈ x.tokens ++ x.hold, x.tagOf t.fp = lid) ∨ (∃ p ∈ x.ctxs, p.2.bound = true ∧ p.2.lid = lid) ∨ (∃ d ∈ x.defer, d.pkt.lid = lid) ∨
    (∃ o ∈ x.ni.outs, o.lid = lid) ∨ (∃ h ∈ x.ni.held, h.pkt.lid = lid) ∨ (∃ h ∈ x.ni.retry, h.pkt.lid = lid) ∨
    (∃ h ∈ x.ni.enqBuf, h.pkt.lid = lid) ∨ (∃ r ∈ x.ni.runs, r.1.lid = lid) ∨ (∃ r ∈ x.copyQ, r.lid = lid) ∨
    (∃ m ∈ x.mq ++ x.mdone, m.lid = lid) ∨ undone false ∨ undone true ∨ lid ∈ x.fr.announced ∨ (∃ r ∈ x.fr.refills, r.lid = lid) ∨
    mget 0 x.ni.children lid.toNat ≠ 0 ∨ ∃ p ∈ x.inq ++ x.inbox, p.lid = lid
/-- What makes a donation unit active for a launch (R318): the blocks it holds or is given, its steals, its pops in delivery. -/
def unitKeepsRunning (s : State) (g : Nat) (lid : BitVec 32) : Prop :=
  let u := s.unit g
  u.deque lid ≠ [] ∨ (∃ p ∈ u.pushes, p.lid = lid) ∨ (∃ x ∈ u.stealing, x.1 = lid) ∨ (∃ p ∈ u.stealIn ++ u.replies, p.lid = lid) ∨
    ∃ c ∈ groupCores g, ∃ p ∈ (s.core c).ni.pops, p.1 = lid ∧ p.2.1 ≠ none

/-! What a head may change. -/

/-- The `x` register an instruction names as its destination. -/
def destX : Instr → Option XReg
  | .jal _ d _ => some d
  | .falloc _ d _ => some d
  | .launch _ d _ _ _ => some d
  | .rid _ d _ => some d
  | .fld _ d _ _ _ => some d
  | .add _ d _ _ => some d
  | .sub _ d _ _ => some d
  | .mul _ d _ _ => some d
  | .mulh _ d _ _ => some d
  | .mulhu _ d _ _ => some d
  | .div _ d _ _ => some d
  | .divu _ d _ _ => some d
  | .rem _ d _ _ => some d
  | .remu _ d _ _ => some d
  | .min _ d _ _ => some d
  | .max _ d _ _ => some d
  | .minu _ d _ _ => some d
  | .maxu _ d _ _ => some d
  | .and _ d _ _ => some d
  | .or _ d _ _ => some d
  | .xor _ d _ _ => some d
  | .andn _ d _ _ => some d
  | .sll _ d _ _ => some d
  | .srl _ d _ _ => some d
  | .sra _ d _ _ => some d
  | .rol _ d _ _ => some d
  | .ror _ d _ _ => some d
  | .clz _ d _ => some d
  | .ctz _ d _ => some d
  | .popc _ d _ => some d
  | .bswap _ d _ => some d
  | .seq _ d _ _ => some d
  | .sne _ d _ _ => some d
  | .slt _ d _ _ => some d
  | .sltu _ d _ _ => some d
  | .sext _ d _ _ => some d
  | .zext _ d _ _ => some d
  | .bfx _ d _ _ _ => some d
  | .bfxu _ d _ _ _ => some d
  | .bfi _ d _ _ _ _ => some d
  | .sel _ d _ _ _ => some d
  | .addi _ d _ _ => some d
  | .andi _ d _ _ => some d
  | .ori _ d _ _ => some d
  | .xori _ d _ _ => some d
  | .slli _ d _ _ => some d
  | .srli _ d _ _ => some d
  | .srai _ d _ _ => some d
  | .slti _ d _ _ => some d
  | .sltiu _ d _ _ => some d
  | .lea _ d _ _ _ _ => some d
  | .li _ d _ => some d
  | .lih _ d _ _ => some d
  | .mov _ d _ => some d
  | .fadd _ d _ _ _ _ => some d
  | .fsub _ d _ _ _ _ => some d
  | .fmul _ d _ _ _ _ => some d
  | .fdiv _ d _ _ _ _ => some d
  | .fsqrt _ d _ _ _ => some d
  | .fma _ d _ _ _ _ _ => some d
  | .fmin _ d _ _ _ => some d
  | .fmax _ d _ _ _ => some d
  | .fcmp _ d _ _ _ _ => some d
  | .fclass _ d _ _ => some d
  | .fsgnj _ d _ _ _ _ => some d
  | .fcvt _ d _ _ _ _ => some d
  | .vredsum _ d _ _ => some d
  | .vredmin _ d _ _ => some d
  | .vredmax _ d _ _ => some d
  | .vext _ d _ _ _ => some d
  | .pcnt _ d _ => some d
  | .pfirst _ d _ => some d
  | .ld _ d _ _ _ _ => some d
  | .enq _ d _ _ _ _ _ => some d
  | .enqA _ d _ _ _ _ _ => some d
  | .deq _ d _ _ _ _ _ => some d
  | .fmtGet _ d _ => some d
  | .sysr _ d _ => some d
  | .ctrRd _ d _ => some d
  | _ => none
/-- The `v` register an instruction names as its destination. -/
def destV : Instr → Option VReg
  | .fldv _ d _ _ _ => some d
  | .vfadd _ d _ _ _ _ => some d
  | .vfsub _ d _ _ _ _ => some d
  | .vfmul _ d _ _ _ _ => some d
  | .vfma _ d _ _ _ _ _ => some d
  | .vfmin _ d _ _ _ => some d
  | .vfmax _ d _ _ _ => some d
  | .vfdiv _ d _ _ _ _ => some d
  | .vfsqrt _ d _ _ _ => some d
  | .vadd _ d _ _ _ _ => some d
  | .vsub _ d _ _ _ _ => some d
  | .vmul _ d _ _ _ => some d
  | .vmulh _ d _ _ _ => some d
  | .vmin _ d _ _ _ => some d
  | .vmax _ d _ _ _ => some d
  | .vand _ d _ _ _ => some d
  | .vor _ d _ _ _ => some d
  | .vxor _ d _ _ _ => some d
  | .vsll _ d _ _ _ => some d
  | .vsrl _ d _ _ _ => some d
  | .vsra _ d _ _ _ => some d
  | .vsel _ d _ _ _ _ => some d
  | .vscan _ d _ _ _ => some d
  | .vperm _ d _ _ _ => some d
  | .vbcast _ d _ _ => some d
  | .vins _ d _ _ _ => some d
  | .vcompress d _ _ _ => some d
  | .vexpand d _ _ _ => some d
  | .vcvt _ d _ _ _ _ _ => some d
  | .vexp2 _ d _ _ => some d
  | .vrcp _ d _ _ => some d
  | .vrsqrt _ d _ _ => some d
  | .vld _ d _ _ _ _ => some d
  | .vldf _ d _ _ _ _ => some d
  | _ => none
/-- The `q` register an instruction names as its destination. -/
def destQ : Instr → Option QReg
  | .vfcmp _ d _ _ _ _ => some d
  | .vcmp _ d _ _ _ _ => some d
  | .pmaskLt _ d _ _ _ => some d
  | .pand _ d _ _ => some d
  | .por _ d _ _ => some d
  | .pxor _ d _ _ => some d
  | .pnot _ d _ => some d
  | _ => none
/-- Registers but for a head's destinations are as they were, with the loop stack; flags are only added, but by `sysw` (R34, R35, R278). -/
def KeepsRegs (i : Instr) (r q : Regs) : Prop :=
  (∀ n, destX i ≠ some n → q.rx n = r.rx n ∧ q.mark n = r.mark n) ∧ (∀ n, destV i ≠ some n → q.rv n = r.rv n) ∧
    (∀ n, destQ i ≠ some n → q.rq n = r.rq n) ∧ ((∃ g n x, i = .sysw g n x) ∨ q.cf &&& r.cf = r.cf) ∧ q.depth = r.depth ∧ q.l0 = r.l0 ∧ q.l1 = r.l1
/-- A state like another but for last touches of frames (R120). -/
def LastTouchOnly (s u : State) : Prop :=
  u = { s with cores := u.cores } ∧ ∀ c, u.core c = { s.core c with fr := { (s.core c).fr with dir := (u.core c).fr.dir } } ∧
    ∀ k, { (u.core c).dir k with touch := 0 } = { (s.core c).dir k with touch := 0 }
/-- Does an event name an agent the package does not have (R10 to R14, R282): a core past 2,047, a context past 15 or a unit past
20 of a core, a slice or a donation unit past 127, a supergroup past 31, a node of the sweep past 2,175, a router past 2,048, a
port or a lane it does not have? -/
def absentAgent : Instr → Prop
  | .blockExecute c k | .blockCommit c k | .lineFetch c k => ¬(c < 2048 ∧ k < 16)
  | .bankReplay c u => ¬(c < 2048 ∧ u < 21)
  | .lineFetchArrival c | .cpGoChannelStart c _ | .cpWaitResume c _ | .stgAcqResume c _ | .copyBeatIssue c | .copyBeatComplete c
  | .redInjectRelease c | .bankRequest c | .feRetry c | .spillAcknowledged c | .framePacketArrival c | .refillRequest c
  | .refillReadComplete c | .refillInstall c | .replyDelivery c | .tokenBind c | .tokenPromotion c | .amsgArrival c | .amsgRetry c
  | .spawnArrival c | .spawnRetry c | .enqEntryArrival c | .enqBufferRelease c | .creditArrival c | .heldPacketRelease c
  | .rbarArrival c | .rbarCompletion c | .matrixRequest c | .matrixRequestComplete c | .pop c _ | .popDelivery c | .popRetry c
  | .poolReservationRequest c _ | .restoreForward c | .windowAccess c => 2048 ≤ c
  | .sliceRequest n | .forwardedSignal n | .mergeWindowClose n | .lineFill n | .stcInvWriteback n | .stcInvComplete n
  | .stcInvAll _ n _ | .stcInvSid _ n _ | .stcInvPage _ n _ | .faultReplay _ n _ | .faultFatal _ n _
  | .taskPush n | .stealRequest n | .stealReply n | .stealRetry n _ => 128 ≤ n
  | .packetArrivalRouter r p | .routerGrant r p _ => ¬(r ≤ 2048 ∧ p ≤ if r = 2048 then 6 else 4)
  | .slackTick r | .slackExhaustion r | .packetDelivery r => 2048 < r
  | .flitReceive r p l _ | .nackReceive r p l | .ackReceive r p l | .laneRetire r p l | .creditResyncSend r p l
  | .creditResyncReceive r p l | .creditCountSoftError r p l _ => ¬(r ≤ 2048 ∧ p < (if r = 2048 then 6 else 4) ∧ l < 8)
  | .terminationSweep (.node n) => 2176 ≤ n
  | .supergroupPowerOff g => 32 ≤ g
  | _ => False
/-- A state like another but for what cores have noted of the current A-cycle and of their replays (R14, R30, R111, R123). -/
def NotesOnly (s u : State) : Prop :=
  u = { s with cores := u.cores } ∧ ∀ c, u.core c = { s.core c with
    phase := (u.core c).phase, checkedAt := (u.core c).checkedAt, commitAt := (u.core c).commitAt, replays := (u.core c).replays,
    replayedAt := (u.core c).replayedAt, rrS := (u.core c).rrS, rrM := (u.core c).rrM, issueS := (u.core c).issueS, issueM := (u.core c).issueM }

/-! Rounding, order and conversion. -/

/-- The exact value m × 2^e against k × 2^q. -/
def dyadic (m : Nat) (e : Int) (k : Nat) (q : Int) : Ordering :=
  compare (m * 2 ^ (e - min e q).toNat) (k * 2 ^ (q - min e q).toNat)
/-- The magnitude of a bit pattern, its exponents going on past the largest of the format. -/
def magOf (f : FpFmt) (b : Nat) : Nat × Int :=
  if b < 2 ^ (f.p - 1) then (b, f.qmin)
  else (2 ^ (f.p - 1) + b % 2 ^ (f.p - 1), f.qmin + (b / 2 ^ (f.p - 1) : Nat) - 1)
/-- Is the magnitude above taken by the mode, of a value that is not exact, by its place against the middle (R25)? -/
def goesUp (rm : Rm) (neg odd : Bool) (middle : Ordering) : Bool :=
  match rm with
  | .rtz => false
  | .rup => !neg
  | .rdn => neg
  | .rne => middle = .gt || (middle = .eq && odd)
  | .rna => middle ≠ .lt
/-- A result is the rounding of a value, given by its place against every k × 2^q (R184): the neighbour that the mode takes, with NX
where it is not the value; tiny, with UF, where the rounding with no least exponent is below the least normal number; and past the
largest finite number an infinity or that number by the mode, with OF and NX. -/
def roundsAs (f : FpFmt) (rm : Rm) (neg : Bool) (value : Nat → Int → Ordering) (r : Nat × CfFlags) : Prop :=
  ∀ b, let k := (magOf f b).1
    let q := (magOf f b).2
    value k q ≠ .lt → value (k + 1) q = .lt →
    let exact : Bool := value k q = .eq
    let n := b + if !exact && goesUp rm neg (b % 2 = 1) (value (2 * k + 1) (q - 1)) then 1 else 0
    let normal : Bool := match rm with
      | .rne | .rna => value (2 ^ (f.p + 1) - 1) (f.qmin - 2) ≠ .lt
      | .rtz => false
      | .rup => !neg && value (2 ^ f.p - 1) (f.qmin - 1) = .gt
      | .rdn => neg && value (2 ^ f.p - 1) (f.qmin - 1) = .gt
    r = if n < f.infBits then
        (f.zero neg + n, if exact then 0 else fNX ||| if b < 2 ^ (f.p - 1) ∧ normal = false then fUF else 0)
      else (if rm = .rne ∨ rm = .rna ∨ rm = (if neg then .rdn else .rup) then f.inf neg else f.inf neg - 1, fOF ||| fNX)
/-- A finite value in units of 2^u, u no more than its exponent. -/
def units (u : Int) (n : Bool) (m : Nat) (e : Int) : Int := (if n then -(m : Int) else m) * 2 ^ (e - u).toNat
/-- A result is the rounding of a signed sum of v units of 2^u; a sum of 0 is −0 where both terms are negative, or rounding is
downward and they are not both positive (R184). -/
def sumsAs (f : FpFmt) (rm : Rm) (bothNeg bothPos : Bool) (v u : Int) (r : Nat × CfFlags) : Prop :=
  if v = 0 then r = (f.zero (bothNeg || (rm = .rdn && !bothPos)), 0) else roundsAs f rm (v < 0) (dyadic v.natAbs u) r
/-- The order of two values that are no NaN; the zeros are equal. -/
def below : FVal → FVal → Bool
  | .inf n, .inf m => n && !m
  | .inf n, _ => n
  | _, .inf m => !m
  | .fin n m e, .fin n' m' e' => units (min e e') n m e < units (min e e') n' m' e'
  | _, _ => false
/-- The ends of an integer type's range, and its value of a word (R25, R189). -/
def typeLo (t : Ty) : Int := if Ty.signed t then -2 ^ (8 * Ty.width t - 1) else 0
def typeHi (t : Ty) : Int := if Ty.signed t then 2 ^ (8 * Ty.width t - 1) - 1 else 2 ^ (8 * Ty.width t) - 1
def typeVal (t : Ty) (a : Nat) : Int :=
  let v := BitVec.ofNat (8 * Ty.width t) a
  if Ty.signed t then v.toInt else v.toNat


/-! Wait maps, images and their restore. -/

/-- A word of fields, each a value and its lowest bit. -/
def fieldsWord (fs : List (Nat × Nat)) : Word := BitVec.ofNat 64 (fs.map fun f => f.1 * 2 ^ f.2).sum
/-- Kind 1 of R337: the armed slots of a core's frames of some launches, those resident and those in spill records. -/
def armedEnts (s : State) (set : List (BitVec 32)) (c : Nat) : List (List Word) :=
  let armed := fun (f : Word) (word : Nat → Word) =>
    ((List.range (8 * 4 ^ fpCls f)).filter fun w => bitOf (word w) 47 && bits (word w) 44 32 = 0).map fun w =>
      [fieldsWord [(1, 56), (w, 16), (c, 0)], f, word w, 0]
  (s.core c).fr.dir.flatMap fun p =>
    (if p.2.alloc ∧ p.2.lid ∈ set then armed (s.residentFp c p.1) (frameWord s c p.1) else []) ++
    if p.2.spilled ∧ p.2.slid ∈ set then
      armed (mkFp s.pkg c p.1 p.2.sgen p.2.cls.toNat) fun w => bytesWord (((s.recordBytes c p.1).drop (8 * w)).take 8)
    else []
/-- Kind 2: a request parked at a slice. -/
def parkedWords (q : Nat × Nat × Packet) : List Word :=
  [fieldsWord [(2, 56), (q.2.1, 12), (q.1, 0)], hdrW0 q.2.2, hdrW1 q.2.2, bodyAddr q.2.2.body]
/-- Is a parked request's source a core? -/
def parkedFrom (s : State) (c : Nat) (q : Nat × Nat × Packet) : Bool := q.2.2.src = ⟨s.pkg, BitVec.ofNat 11 c, 0⟩ && c < 2048
/-- Kind 3: a request deferred in a core's bank. -/
def deferredWords (c : Nat) (d : Deferred) : List Word :=
  match d.pkt.body with
  | .fe .stef _ v k => [fieldsWord [(3, 56), (1, 32), (d.off, 12), (c, 0)], contFp k, v, 0]
  | b => [fieldsWord [(3, 56), (d.off, 12), (c, 0)], contFp (bodyCont b), 0, 0]
/-- Kind 4: the stage tags of a core's rings that are not EMPTY. -/
def stageEnts (s : State) (c : Nat) : List (List Word) :=
  (s.ringsOf c).flatMap fun r => ((List.range ((s.ring c r).nslot + 1)).filter fun k => s.slotTag c r k ≠ 0).map fun k =>
    [fieldsWord [(4, 56), (k, 22), (s.slotTag c r k, 12), (c, 0)], BitVec.ofNat 64 r, 0, 0]
/-- Kind 5: a core's loader, then its storer, as far as they are not done. -/
def streamEnts (s : State) (c : Nat) : List (List Word) :=
  ([false, true].filter fun st => (s.core c).lsBusy st).map fun st => let x := (s.core c).lsCore st
    [fieldsWord [(5, 56), ((if st then 1 else 0), 12), (c, 0)], x.pc, (x.waiting.map fun w => w.setWidth 64).getD 0, 0]
/-- The entries of a wait map in R337's order, behind its header. -/
def waitList (s : State) (l : Launch) (set : List (BitVec 32)) : List (List Word) :=
  let parked := sortBy (fun (a b : Nat × Nat × Packet) => a.1 < b.1 || (a.1 = b.1 && a.2.1 ≤ b.2.1)) (s.parkedOf fun p => p.lid ∈ set)
  (l.cores.flatMap fun c => armedEnts s set c ++ (parked.filter (parkedFrom s c)).map parkedWords ++
    ((s.core c).defer.filter fun d => d.pkt.lid ∈ set).map (deferredWords c) ++
    if (s.env c).lid ∈ set then stageEnts s c ++ streamEnts s c else []) ++
  (parked.filter fun q => l.cores.all fun c => !parkedFrom s c q).map parkedWords
/-- A frame pointer in image form, where it is one of the package to a core of the rectangle (R117, R334). -/
def inImage (s : State) (l : Launch) (f : Word) : Word :=
  if bits f 34 30 = 0 ∧ bits f 5 0 = 0 ∧ fpPkg f = s.pkg ∧ l.inRect (fpCore f) = true ∧ (0x100000 - l.frs) / 64 ≤ fpUnit f ∧ fpUnit f < 16384 then
    withCore f ((cyOf (fpCore f) - l.oy) * 64 + (cxOf (fpCore f) - l.ox)) + 1
  else f
/-- Where a row stands in scratch, by its number bank-major (R109, R333). -/
def rowAt (r : Nat) : Nat := r % 2048 * 512 + r / 2048 * 64
/-- The header words of an image (R333); ls: its launch list, np: how many requests are parked. -/
def imageHeader (s : State) (l : Launch) (ls : List Launch) (np listAt k : Nat) : Word :=
  match k with
  | 0 => fieldsWord [(l.lid.toNat, 32), (l.sid.toNat, 16), (l.lw, 11), (l.lh, 8), (bits (l.w 14) 41 41, 7)]
  | 1 => fieldsWord [(s.pkg.toNat, 46), (l.ox, 6), (l.oy, 0)]
  | 10 => fieldsWord [(ls.length, 32), (np, 0)]
  | 11 => BitVec.ofNat 64 listAt
  | k => if 2 ≤ k ∧ k ≤ 9 then ((ls[k - 2]?).map (·.desc)).getD 0 else 0
/-- The three checks of a firmware image (R351). -/
def imagePasses (s : State) (f : List Byte × Nat × List Byte × List Byte) : Prop :=
  Config.sha256 f.1 = Config.vkh ∧ s.io.svn ≤ f.2.1 ∧ Config.slhVerify f.1 (Config.imageBytes f.1 f.2.1 f.2.2.1 []) f.2.2.2 = true

end Sys2Proof.Claims

open Sys2Proof Sys2Proof.Machine Sys2Proof.Claims

/-- R177: each register-to-register form, executed with its guard on, writes the value of R177's table to x[D], sets no
flag, and changes nothing else but the place of the block. -/
def Obligations.ScalarFormsWriteTheTableValue : Prop :=
  (∀ p ∈ binaryForms, ∀ (g : Guard) (d a b : XReg) (s : State), s.work.regs.on g = true →
    exec (p.1 g d a b) s = .next (afterRegs s (s.work.regs.wx d (p.2 (X s a) (X s b))))) ∧
  (∀ p ∈ unaryForms, ∀ (g : Guard) (d a : XReg) (s : State), s.work.regs.on g = true →
    exec (p.1 g d a) s = .next (afterRegs s (s.work.regs.wx d (p.2 (X s a)))))

/-- R178: the four divisions, their cases without a true quotient among them. -/
def Obligations.DivisionsTruncateAndDefineEveryCase : Prop :=
  ∀ p ∈ divisionForms, ∀ (g : Guard) (d a b : XReg) (s : State), s.work.regs.on g = true →
    exec (p.1 g d a b) s = .next (afterRegs s (s.work.regs.wx d (p.2 (X s a) (X s b))))

/-- R182: the immediate forms and the shifts by an immediate. -/
def Sys2Proof.Claims.ImmediateFormsWriteTheTableValue : Prop :=
  (∀ p ∈ immediateForms, ∀ (g : Guard) (d a : XReg) (i : Half) (s : State), s.work.regs.on g = true →
    exec (p.1 g d a i) s = .next (afterRegs s (s.work.regs.wx d (p.2 (X s a) (imm16 i))))) ∧
  (∀ p ∈ shiftForms, ∀ (g : Guard) (d a : XReg) (n : BitVec 6) (s : State), s.work.regs.on g = true →
    exec (p.1 g d a n) s = .next (afterRegs s (s.work.regs.wx d (p.2 (X s a) n))))

/-- R179 to R181 and R183: the extensions, the bit fields, the select, and the address and constant forms. For each the
value of x[D]; `mov` alone carries the pointer mark. -/
def Sys2Proof.Claims.FieldSelectAndConstantForms : Prop :=
  ∀ (g : Guard) (d a b c : XReg) (s : State), s.work.regs.on g = true →
    (∀ ty, (Instr.sext g d a ty).wellFormed = true →
      exec (.sext g d a ty) s = .next (afterRegs s (s.work.regs.wx d (((X s a).setWidth (8 * Ty.width ty)).signExtend 64)))) ∧
    (∀ ty, (Instr.zext g d a ty).wellFormed = true →
      exec (.zext g d a ty) s = .next (afterRegs s (s.work.regs.wx d (((X s a).setWidth (8 * Ty.width ty)).setWidth 64)))) ∧
    (∀ l p, (Instr.bfx g d a l p).wellFormed = true →
      exec (.bfx g d a l p) s =
        .next (afterRegs s (s.work.regs.wx d (((X s a).extractLsb' p.toNat (l.toNat + 1)).signExtend 64)))) ∧
    (∀ l p, (Instr.bfxu g d a l p).wellFormed = true →
      exec (.bfxu g d a l p) s =
        .next (afterRegs s (s.work.regs.wx d (((X s a).extractLsb' p.toNat (l.toNat + 1)).setWidth 64)))) ∧
    (∀ l p, (Instr.bfi g d a b l p).wellFormed = true →
      ∃ v : Word, exec (.bfi g d a b l p) s = .next (afterRegs s (s.work.regs.wx d v)) ∧
        ∀ i < 64, v.getLsbD i =
          if p.toNat ≤ i ∧ i ≤ p.toNat + l.toNat then (X s b).getLsbD (i - p.toNat) else (X s a).getLsbD i) ∧
    exec (.sel g d a b c) s = .next (afterRegs s (s.work.regs.wx d (if X s c = 0 then X s b else X s a))) ∧
    (∀ n off, (Instr.lea g d a b n off).wellFormed = true →
      exec (.lea g d a b n off) s = .next (afterRegs s (s.work.regs.wx d (X s a + (X s b <<< n) + imm32 off)))) ∧
    (∀ i, exec (.li g d i) s = .next (afterRegs s (s.work.regs.wx d (imm32 i)))) ∧
    (∀ i, exec (.lih g d a i) s = .next (afterRegs s (s.work.regs.wx d (i ++ (X s a).setWidth 32)))) ∧
    exec (.mov g d a) s = .next (afterRegs s (s.work.regs.wxm d (X s a) (s.work.regs.mark a)))

/-- Immediate, field, select and constant forms write the value the spec gives. -/
def Obligations.ImmediateAndFieldFormsWriteTheirValue : Prop := Claims.ImmediateFormsWriteTheTableValue ∧ Claims.FieldSelectAndConstantForms

/-- R184 to R189: the scalar floating-point forms read `.f32` operands from bits [31:0], write their result, an `.f32` one with
bits [63:32] zero, and OR their flags into `cf`; `fcvt` converts between the types it names, an integer result extended by its
type. What each operation gives, FloatCornersAreFixed states. -/
def Obligations.ScalarFloatFormsComplete : Prop :=
  ∀ (g : Guard) (d a b c : XReg) (ty : FTy) (rm : Rm) (s : State), s.work.regs.on g = true →
    (∀ p ∈ fpArith, exec (p.1 g d a b ty rm) s =
      .next (fpWrite s d (p.2 (fmtOf ty) rm (fpIn ty (X s a)) (fpIn ty (X s b))))) ∧
    exec (.fsqrt g d a ty rm) s = .next (fpWrite s d ((fmtOf ty).sqrt rm (fpIn ty (X s a)))) ∧
    exec (.fma g d a b c ty rm) s =
      .next (fpWrite s d ((fmtOf ty).fma rm (fpIn ty (X s a)) (fpIn ty (X s b)) (fpIn ty (X s c)))) ∧
    exec (.fmin g d a b ty) s = .next (fpWrite s d ((fmtOf ty).minmax false (fpIn ty (X s a)) (fpIn ty (X s b)))) ∧
    exec (.fmax g d a b ty) s = .next (fpWrite s d ((fmtOf ty).minmax true (fpIn ty (X s a)) (fpIn ty (X s b)))) ∧
    (∀ cond, exec (.fcmp g d a b ty cond) s =
      let r := (fmtOf ty).cmp cond (fpIn ty (X s a)) (fpIn ty (X s b))
      .next (fpWrite s d (if r.1 then 1 else 0, r.2))) ∧
    exec (.fclass g d a ty) s = .next (fpWrite s d ((fmtOf ty).classify (fpIn ty (X s a)), 0)) ∧
    (∀ v, exec (.fsgnj g d a b ty v) s =
      .next (fpWrite s d ((fmtOf ty).sgnj v (fpIn ty (X s a)) (fpIn ty (X s b)), 0))) ∧
    (∀ dt st, (Instr.fcvt g d a dt st rm).wellFormed = true →
      exec (.fcvt g d a dt st rm) s = .next (fpWrite s d (convert dt st rm (X s a).toNat)))

/-- R184 to R186: what the arithmetic gives on special operands, for both formats and every mode: a NaN operand gives the
canonical quiet NaN, with NV when one signals; 0/0, ∞/∞, ∞ − ∞ and 0 × ∞ give NaN with NV, `fma` of ∞ × 0 whatever its addend; a
finite nonzero value divided by zero gives an infinity with DZ; √(−0) is −0, and √ of a value below −0, −∞ among them, is NaN with
NV; an infinity goes through the other operations. -/
def Sys2Proof.Claims.SpecialOperandsOfArithmetic : Prop :=
  ∀ f ∈ [fmtF32, fmtF64], ∀ (rm : Rm) (a b c : Nat),
    let nv := fun (sig : Bool) => if sig then fNV else 0
    let zeroInf := fun (x y : FVal) => (∃ n m e, x = .inf n ∧ y = .fin m 0 e) ∨ ∃ n m e, y = .inf n ∧ x = .fin m 0 e
    (((f.val a).isNan ∨ (f.val b).isNan) →
      (∀ r ∈ [f.add rm a b, f.sub rm a b, f.mul rm a b, f.div rm a b, f.minmax false a b, f.minmax true a b],
        r = (f.qnan, nv ((f.val a).isSnan || (f.val b).isSnan)))) ∧
    ((f.val a).isNan → f.sqrt rm a = (f.qnan, nv (f.val a).isSnan)) ∧
    (zeroInf (f.val a) (f.val b) → f.mul rm a b = (f.qnan, fNV) ∧ f.fma rm a b c = (f.qnan, fNV)) ∧
    (¬zeroInf (f.val a) (f.val b) → ((f.val a).isNan ∨ (f.val b).isNan ∨ (f.val c).isNan) →
      f.fma rm a b c = (f.qnan, nv ((f.val a).isSnan || (f.val b).isSnan || (f.val c).isSnan))) ∧
    (∀ n m, f.val a = .inf n → f.val b = .inf m → f.div rm a b = (f.qnan, fNV) ∧ f.mul rm a b = (f.inf (n != m), 0) ∧
      f.add rm a b = (if n = m then (f.inf n, 0) else (f.qnan, fNV)) ∧
      (b < 2 ^ (f.w + f.p) → f.sub rm a b = (if n = m then (f.qnan, fNV) else (f.inf n, 0)))) ∧
    (∀ n m k e, f.val a = .inf n → f.val b = .fin m k e → b < 2 ^ (f.w + f.p) → f.add rm a b = (f.inf n, 0) ∧ f.sub rm a b = (f.inf n, 0) ∧
      f.div rm a b = (f.inf (n != m), 0) ∧ (k ≠ 0 → f.mul rm a b = (f.inf (n != m), 0))) ∧
    (∀ n m k e, f.val a = .fin m k e → f.val b = .inf n → b < 2 ^ (f.w + f.p) → f.add rm a b = (f.inf n, 0) ∧ f.sub rm a b = (f.inf (!n), 0) ∧
      f.div rm a b = (f.zero (m != n), 0) ∧ (k ≠ 0 → f.mul rm a b = (f.inf (m != n), 0))) ∧
    (¬zeroInf (f.val a) (f.val b) → ¬((f.val a).isNan ∨ (f.val b).isNan ∨ (f.val c).isNan) →
      let prod := (∃ n, f.val a = .inf n) ∨ ∃ n, f.val b = .inf n
      let sign := (f.val a).neg != (f.val b).neg
      (∀ n, f.val c = .inf n → f.fma rm a b c = if prod ∧ n ≠ sign then (f.qnan, fNV) else (f.inf n, 0)) ∧
      (prod → (∀ n, f.val c ≠ .inf n) → f.fma rm a b c = (f.inf sign, 0))) ∧
    (∀ n e m e', f.val a = .fin n 0 e → f.val b = .fin m 0 e' → f.div rm a b = (f.qnan, fNV)) ∧
    (∀ n k e m e', k ≠ 0 → f.val a = .fin n k e → f.val b = .fin m 0 e' → f.div rm a b = (f.inf (n != m), fDZ)) ∧
    (∀ n e, f.val a = .fin n 0 e → f.sqrt rm a = (f.zero n, 0)) ∧
    (∀ k e, k ≠ 0 → f.val a = .fin true k e → f.sqrt rm a = (f.qnan, fNV)) ∧
    (∀ n, f.val a = .inf n → f.sqrt rm a = if n then (f.qnan, fNV) else (f.inf false, 0))

/-- R184: a value the format holds is the result of rounding it, in every mode, with no flag. -/
def Sys2Proof.Claims.RoundingKeepsRepresentableValues : Prop :=
  ∀ f ∈ [fmtF32, fmtF64], ∀ (rm : Rm) (a : Nat) (neg : Bool) (m : Nat) (e : Int), a < 2 ^ (f.w + f.p) →
    f.val a = .fin neg m e → f.round rm neg m e false = (a, 0)

/-- R184, R185: of finite operands each operation gives its exact result, rounded once by the mode. -/
def Sys2Proof.Claims.ResultsAreRoundedOnce : Prop :=
  ∀ f ∈ [fmtF32, fmtF64], ∀ (rm : Rm) (a b c : Nat) (na nb nc : Bool) (ma mb mc : Nat) (ea eb ec : Int), b < 2 ^ (f.w + f.p) →
    f.val a = .fin na ma ea → f.val b = .fin nb mb eb → f.val c = .fin nc mc ec →
    (ma ≠ 0 → roundsAs f rm na (dyadic ma ea) (f.round rm na ma ea false)) ∧
    sumsAs f rm (na && nb) (!na && !nb) (units (min ea eb) na ma ea + units (min ea eb) nb mb eb) (min ea eb) (f.add rm a b) ∧
    sumsAs f rm (na && !nb) (!na && nb) (units (min ea eb) na ma ea - units (min ea eb) nb mb eb) (min ea eb) (f.sub rm a b) ∧
    (if ma = 0 ∨ mb = 0 then f.mul rm a b = (f.zero (na != nb), 0)
     else roundsAs f rm (na != nb) (dyadic (ma * mb) (ea + eb)) (f.mul rm a b)) ∧
    (mb ≠ 0 → if ma = 0 then f.div rm a b = (f.zero (na != nb), 0)
     else roundsAs f rm (na != nb) (fun k q => dyadic ma ea (k * mb) (q + eb)) (f.div rm a b)) ∧
    (ma ≠ 0 → na = false → roundsAs f rm false (fun k q => dyadic ma ea (k * k) (2 * q)) (f.sqrt rm a)) ∧
    (let u := min (ea + eb) ec
     let pn := na != nb
     sumsAs f rm (pn && nc) (!pn && !nc) (units u pn (ma * mb) (ea + eb) + units u nc mc ec) u (f.fma rm a b c))

/-- R186 to R188: minimum and maximum, the comparisons, the classes and the sign injections of patterns of the format. -/
def Sys2Proof.Claims.ComparisonsAndClasses : Prop :=
  ∀ f ∈ [fmtF32, fmtF64], ∀ (a b : Nat), a < 2 ^ (f.w + f.p) → b < 2 ^ (f.w + f.p) →
    let x := f.val a
    let y := f.val b
    let un := x.isNan || y.isNan
    let nv := fun (on : Bool) => if on then fNV else 0
    let sig := nv (x.isSnan || y.isSnan)
    let top := f.w + f.p - 1
    (un = false →
      f.minmax false a b = (if below x y then a else if below y x then b else if x.neg then a else b, 0) ∧
      f.minmax true a b = (if below y x then a else if below x y then b else if x.neg then b else a, 0)) ∧
    f.cmp .eq a b = (!un && !below x y && !below y x, sig) ∧ f.cmp .ne a b = (un || below x y || below y x, sig) ∧
    f.cmp .lt a b = (!un && below x y, nv un) ∧ f.cmp .le a b = (!un && !below y x, nv un) ∧ f.cmp .un a b = (un, sig) ∧
    f.classify a = (match x with
      | .inf n => if n then 0x001 else 0x080
      | .nan s => if s then 0x100 else 0x200
      | .fin n m _ => if m = 0 then (if n then 0x008 else 0x010) else if 2 ^ (f.p - 1) ≤ m then (if n then 0x002 else 0x040)
          else if n then 0x004 else 0x020) ∧
    (∀ v, let r := f.sgnj v a b
      r < 2 ^ (f.w + f.p) ∧ (∀ k < top, r.testBit k = a.testBit k) ∧ r.testBit top = match v with
        | .sgnj => b.testBit top
        | .sgnjn => !b.testBit top
        | .sgnjx => a.testBit top != b.testBit top)

/-- R189, R199, R200: the conversions: a NaN to an integer gives 0 with NV, a value past the range its nearer end with NV and SAT,
any other the integer that the mode takes, with NX where it is not the value; the other pairs round once. `vrsqrt` and `vexp2` on
their special operands, 1/√a rounded once, and 2^a of an integer a. -/
def Sys2Proof.Claims.ConversionsRoundOnce : Prop :=
  ∀ f ∈ [fmtF32, fmtF64], ∀ (rm : Rm) (a : Nat) (t : Ty), [Ty.s8, .s16, .s32, .s64, .z8, .z16, .z32, .z64].contains t = true →
    let ft : Ty := if f = fmtF32 then .f32 else .f64
    let g := if f = fmtF32 then fmtF64 else fmtF32
    let gt : Ty := if f = fmtF32 then .f64 else .f32
    let word := fun (v : Int) => (v % 2 ^ 64).toNat
    (let v := typeVal t a
     if v = 0 then convert ft t rm a = (0, 0) else roundsAs f rm (v < 0) (dyadic v.natAbs 0) (convert ft t rm a)) ∧
    (a < 2 ^ (f.w + f.p) →
      (∀ s, f.val a = .nan s → convert t ft rm a = (0, fNV) ∧ convert gt ft rm a = (g.qnan, if s then fNV else 0) ∧
        exp2Fp f rm a = (f.qnan, if s then fNV else 0) ∧ rsqrtFp f rm a = (f.qnan, if s then fNV else 0)) ∧
      (∀ n, f.val a = .inf n → convert t ft rm a = (word (if n then typeLo t else typeHi t), fNV ||| fSAT) ∧
        convert gt ft rm a = (g.inf n, 0) ∧ exp2Fp f rm a = (if n then 0 else f.inf false, 0) ∧
        rsqrtFp f rm a = (if n then (f.qnan, fNV) else (0, 0))) ∧
      (∀ n m e, f.val a = .fin n m e →
        (∀ k, dyadic m e k 0 ≠ .lt → dyadic m e (k + 1) 0 = .lt →
          let exact : Bool := dyadic m e k 0 = .eq
          let w : Int := k + if !exact && goesUp rm n (k % 2 = 1) (dyadic m e (2 * k + 1) (-1)) then 1 else 0
          let v := if n then -w else w
          convert t ft rm a = if v < typeLo t then (word (typeLo t), fNV ||| fSAT)
            else if typeHi t < v then (word (typeHi t), fNV ||| fSAT) else (word v, if exact then 0 else fNX)) ∧
        (if m = 0 then convert gt ft rm a = (g.zero n, 0) ∧ rsqrtFp f rm a = (f.inf n, fDZ)
         else roundsAs g rm n (dyadic m e) (convert gt ft rm a) ∧
          (if n then rsqrtFp f rm a = (f.qnan, fNV)
           else roundsAs f rm false (fun k q => dyadic 1 0 (k * k * m) (2 * q + e)) (rsqrtFp f rm a))) ∧
        (∀ i : Int, units 0 n m e = i * 2 ^ (-e).toNat → roundsAs f rm false (dyadic 1 i) (exp2Fp f rm a))))

/-- Special operands, rounding, comparisons and conversions give the results of the spec. -/
def Obligations.FloatCornersAreFixed : Prop := Claims.SpecialOperandsOfArithmetic ∧ Claims.RoundingKeepsRepresentableValues ∧ Claims.ResultsAreRoundedOnce ∧ Claims.ComparisonsAndClasses ∧ Claims.ConversionsRoundOnce

/-- R190, R191: the floating-point lane operations apply the scalar operation in each enabled lane and keep the others. -/
def Sys2Proof.Claims.FloatLaneFormsWriteEnabledLanes : Prop :=
  ∀ (g : Guard) (d a b c : VReg) (ty : FTy) (rm : Rm) (s : State),
    let w := ty = .f64
    let lf := fun (r : Nat → Nat × CfFlags) (i : Instr) =>
      WritesLanes i s g d w (fun k => ((r k).1 : Int)) (laneFlags s g w fun k => (r k).2)
    (∀ p ∈ fpLanes, lf (fun k => p.2 (fmtOf ty) rm (L s w a k) (L s w b k)) (p.1 g d a b ty rm)) ∧
    lf (fun k => (fmtOf ty).fma rm (L s w a k) (L s w b k) (L s w c k)) (.vfma g d a b c ty rm) ∧
    lf (fun k => (fmtOf ty).minmax false (L s w a k) (L s w b k)) (.vfmin g d a b ty) ∧
    lf (fun k => (fmtOf ty).minmax true (L s w a k) (L s w b k)) (.vfmax g d a b ty) ∧
    lf (fun k => (fmtOf ty).sqrt rm (L s w a k)) (.vfsqrt g d a ty rm)

/-- R192: the integer lane operations, saturation among them. -/
def Sys2Proof.Claims.IntegerLaneFormsWriteEnabledLanes : Prop :=
  ∀ (g : Guard) (d a b : VReg) (ty : Ty) (s : State), laneTys.contains ty = true →
    let w := wideOf ty
    (intTys.contains ty = true → ∀ sat,
      (let r := fun k => clamped ty sat (intOf ty (L s w a k) + intOf ty (L s w b k))
       WritesLanes (.vadd g d a b ty sat) s g d w (fun k => (r k).1) (laneFlags s g w fun k => (r k).2)) ∧
      (let r := fun k => clamped ty sat (intOf ty (L s w a k) - intOf ty (L s w b k))
       WritesLanes (.vsub g d a b ty sat) s g d w (fun k => (r k).1) (laneFlags s g w fun k => (r k).2)) ∧
      ∀ p ∈ intLanes, WritesLanes (p.1 g d a b ty) s g d w (fun k => p.2 ty (intOf ty (L s w a k)) (intOf ty (L s w b k))) 0) ∧
    ∀ p ∈ bitLanes, WritesLanes (p.1 g d a b ty) s g d w (fun k => p.2 (width w) (L s w a k) (L s w b k)) 0

/-- Lane-wise vector forms write the lanes their guard enables and no other. -/
def Obligations.LaneFormsWriteEnabledLanes : Prop := Claims.FloatLaneFormsWriteEnabledLanes ∧ Claims.IntegerLaneFormsWriteEnabledLanes

/-- R193, R194, R201, R202: the comparisons into predicates, the select, `pmask.lt`, and the predicate logic. -/
def Obligations.PredicateFormsComplete : Prop :=
  ∀ (g : Guard) (d : QReg) (v : VReg) (a b : VReg) (x y : XReg) (m q : QReg) (n : XReg) (s : State), d ≠ 0 →
    (∀ ty cond, let w := ty = .f64
      let r := fun k => (fmtOf ty).cmp cond (L s w a k) (L s w b k)
      WritesBits (.vfcmp g d a b ty cond) s g d w (fun k => (r k).1) (laneFlags s g w fun k => (r k).2)) ∧
    (∀ ty, intTys.contains ty = true → ∀ cond, let w := wideOf ty
      WritesBits (.vcmp g d a b ty cond) s g d w (fun k =>
        let i := intOf ty (L s w a k)
        let j := intOf ty (L s w b k)
        match cond with
        | .eq => i = j | .ne => i ≠ j | .lt => i < j | .le => i ≤ j) 0) ∧
    (∀ ty, laneTys.contains ty = true → let w := wideOf ty
      WritesLanes (.vsel g v a b m ty) s g v w (fun k =>
        if (s.work.regs.rq m).getLsbD (if w then 2 * k else k) then L s w a k else L s w b k) 0) ∧
    (∀ ty, laneTys.contains ty = true → let w := wideOf ty
      WritesBits (.pmaskLt g d x y ty) s g d w (fun k => (X s x).toNat + k < (X s y).toNat) 0) ∧
    (let on := s.work.regs.guard g
     let old := s.work.regs.rq d
     let put := fun (r : Half) => afterRegs s (s.work.regs.wq d ((r &&& on) ||| (old &&& ~~~on)))
     exec (.pand g d m q) s = .next (put (s.work.regs.rq m &&& s.work.regs.rq q)) ∧
     exec (.por g d m q) s = .next (put (s.work.regs.rq m ||| s.work.regs.rq q)) ∧
     exec (.pxor g d m q) s = .next (put (s.work.regs.rq m ^^^ s.work.regs.rq q)) ∧
     exec (.pnot g d m) s = .next (put (~~~(s.work.regs.rq m)))) ∧
    (s.work.regs.on g = true →
      exec (.pcnt g n m) s =
        .next (afterRegs s (s.work.regs.wx n (BitVec.ofNat 64 ((List.range 16).countP fun k => (s.work.regs.rq m).getLsbD k)))) ∧
      exec (.pfirst g n m) s =
        .next (afterRegs s (s.work.regs.wx n (BitVec.ofNat 64
          (((List.range 16).find? fun k => (s.work.regs.rq m).getLsbD k).getD 16)))))

/-- R195, R196: the reductions run in the fixed pairwise tree and the scan in the fixed prefix tree, identities standing
for disabled lanes. (Which operations of a scan set flags where lanes are disabled is log entry 44.) -/
def Obligations.ReductionsRunInTheFixedTree : Prop :=
  ∀ (g : Guard) (d : XReg) (v a : VReg) (ty : Ty) (s : State), laneTys.contains ty = true →
    let w := wideOf ty
    let depth := if w then 3 else 4
    let red := fun (op : RedOp) => tree (reduceOp op ty 64) (reduceIn s g op ty (op = .sum) a) depth 0
    exec (.vredsum g d a ty) s = .next (fpWrite s d (red .sum)) ∧
    (∀ p ∈ [(Instr.vredmin, RedOp.min), (Instr.vredmax, RedOp.max)],
      exec (p.1 g d a ty) s = .next (fpWrite s d
        (if ty = .f32 ∨ ty = .f64 then (red p.2).1 else (intOf ty (red p.2).1 % 2 ^ 64).toNat, (red p.2).2))) ∧
    ∀ op, WritesLanes (.vscan g v a ty op) s g v w
      (fun k => prefixTree (reduceOp op ty (width w)) (reduceIn s g op ty false a) depth k)
      (prefixFlags (enabled s g w) (reduceOp op ty (width w)) (reduceIn s g op ty false a) depth (lanes w))

/-- R197 to R200: the permutes, the moves between files, compress and expand, the conversions and the elementary
functions. -/
def Obligations.PermuteAndConvertFormsComplete : Prop :=
  ∀ (g : Guard) (d a b : VReg) (x i n : XReg) (m : QReg) (ty : Ty) (rm : Rm) (s : State), laneTys.contains ty = true →
    let w := wideOf ty
    let mask := fun k => (s.work.regs.rq m).getLsbD (if w then 2 * k else k)
    let below := fun k => (List.range k).countP mask
    let k := (X s i).toNat
    let gate := if k < lanes w then enabled s g w k else enabled s g false 0
    WritesLanes (.vperm g d a b ty) s g d w
      (fun j => if L s w b j < lanes w then L s w a (L s w b j) else 0) 0 ∧
    WritesLanes (.vbcast g d x ty) s g d w (fun _ => (X s x).toNat) 0 ∧
    exec (.vext g n a i ty) s = .next (if gate then
        afterRegs s (s.work.regs.wx n (if k < lanes w then BitVec.ofInt 64 (intOf ty (L s w a k)) else 0))
      else after s s.work) ∧
    (∃ v, exec (.vins g d x i ty) s = .next (afterRegs s (s.work.regs.wv d v)) ∧
      ∀ j < lanes w, lane w v j =
        if j = k ∧ gate then (X s x).toNat % 2 ^ width w else L s w d j) ∧
    (∃ v, exec (.vcompress d a m ty) s = .next (afterRegs s (s.work.regs.wv d v)) ∧
      (∀ j < lanes w, mask j = true → lane w v (below j) = L s w a j) ∧
      ∀ j < lanes w, below (lanes w) ≤ j → lane w v j = 0) ∧
    (∃ v, exec (.vexpand d a m ty) s = .next (afterRegs s (s.work.regs.wv d v)) ∧
      ∀ j < lanes w, lane w v j = if mask j then L s w a (below j) else 0) ∧
    (∀ dt st h, vcvtOk dt st h = true → let o := if h then 8 else 0
      let wd := wideOf dt
      let ws := wideOf st
      let from_ := fun j => convert dt st rm (L s ws a (if wd = ws then j else if wd then o + j else j - o))
      let on := fun j => enabled s g wd j && (wd = ws || wd || (o ≤ j && j < o + 8))
      ∃ v, exec (.vcvt g d a dt st rm h) s = .next (afterRegs s ((s.work.regs.wv d v).setFlags
          (((List.range (lanes wd)).filter on).foldl (fun f j => f ||| (from_ j).2) 0))) ∧
        ∀ j < lanes wd, lane wd v j = if on j then (from_ j).1 % 2 ^ width wd else L s wd d j) ∧
    (∀ p ∈ [(Instr.vexp2, exp2Fp fmtF32 rm), (Instr.vrcp, fmtF32.div rm 0x3f800000), (Instr.vrsqrt, rsqrtFp fmtF32 rm)],
      let r := fun j => p.2 (L s false a j)
      WritesLanes (p.1 g d a rm) s g d false (fun j => ((r j).1 : Int)) (laneFlags s g false fun j => (r j).2))

/-- R26: a head that is not a vector one, predicated off by bit 0 of its guard, only lets the block go on: shown for every
guarded head outside the vector forms by its encoding's guard. -/
def Obligations.PredicatedOffHeadsChangeNothing : Prop :=
  ∀ (i : Instr) (g : Guard) (s : State), scalarGuard i = some g → s.work.regs.on g = false →
    exec i s = .next (after s s.work)

/-- R31, R258 to R263: the control heads: where the branches, `jal` and `jr` go and what makes them trap, what the loops
push, and the heads that end the block's threadlet or its iteration. A second taken control head of a block, `jal`, `jr` and
`next` among them, raises the control trap. -/
def Obligations.ControlHeadsTakeTheirTargets : Prop :=
  ∀ (g : Guard) (a b d : XReg) (q : QReg) (disp : BitVec 32) (s : State), s.work.regs.on g = true →
    exec (.nop g) s = .next (after s s.work) ∧
    (s.work.ctl = .fall → exec (.endT g) s = .next (takes s .endT) ∧
      (s.work.regs.depth ≠ 0 → exec (.next g) s = .next (takes s .next))) ∧
    (s.work.ctl ≠ .fall → exec (.endT g) s = .next (trapped s { cls := .control })) ∧
    (¬(s.work.regs.depth ≠ 0 ∧ s.work.ctl = .fall) → exec (.next g) s = .next (trapped s { cls := .control })) ∧
    (∀ p ∈ branch2, (p.2 (X s a) (X s b) = true → GoesTo (p.1 g a b disp) s (lineAhead s disp)) ∧
      (p.2 (X s a) (X s b) = false → exec (p.1 g a b disp) s = .next (after s s.work))) ∧
    (∀ p ∈ branch1, (p.2 (X s a) = true → GoesTo (p.1 g a disp) s (lineAhead s disp)) ∧
      (p.2 (X s a) = false → exec (p.1 g a disp) s = .next (after s s.work))) ∧
    (∀ p ∈ branchQ, (p.2 (s.work.regs.rq q) = true → GoesTo (p.1 g q disp) s (lineAhead s disp)) ∧
      (p.2 (s.work.regs.rq q) = false → exec (p.1 g q disp) s = .next (after s s.work))) ∧
    (inSegment s (lineAhead s disp) → s.work.ctl = .fall →
      exec (.jal g d disp) s = .next (after s { s.work with
        regs := s.work.regs.wx d (s.myLaunch.code + BitVec.ofNat 64 (64 * (s.work.line + 1))),
        ctl := .jump (lineAhead s disp).toNat, ctlHead := s.work.k })) ∧
    (¬(inSegment s (lineAhead s disp) ∧ s.work.ctl = .fall) →
      exec (.jal g d disp) s = .next (trapped s { cls := .control })) ∧
    (∀ n : Nat, n < s.myLaunch.clen → (X s a).toNat = s.myLaunch.code.toNat + 64 * n → s.myLaunch.code.toNat % 64 = 0 →
      s.work.ctl = .fall → exec (.jr g a) s = .next (takes s (.jump n))) ∧
    (((X s a).toNat % 64 ≠ 0 ∨ (X s a).toNat < s.myLaunch.code.toNat ∨
        s.myLaunch.code.toNat + 64 * s.myLaunch.clen ≤ (X s a).toNat ∨ s.work.ctl ≠ .fall) →
      exec (.jr g a) s = .next (trapped s { cls := .control }))

/-- R263: a loop instruction with count n pushes the lines after its own up to its displacement, or skips them when n is
zero; a displacement below 1, a body outside the segment, a full loop stack, a body outside the enclosing loop, a count of
2^32 or more, a skip that leaves the segment or a second taken control head raises the control trap. -/
def Obligations.LoopHeadsPushTheirBody : Prop :=
  ∀ (g : Guard) (c : XReg) (n : Half) (disp : BitVec 32) (s : State), s.work.regs.on g = true →
    let last := lineAhead s disp
    let first := s.work.line + 1
    let top := if s.work.regs.depth = 1 then s.work.regs.l0 else s.work.regs.l1
    let ok := 1 ≤ disp.toInt ∧ last < s.myLaunch.clen ∧ s.work.regs.depth.toNat < 2 ∧
      (s.work.regs.depth ≠ 0 → top.first.toNat ≤ first ∧ last ≤ top.last.toNat)
    let body := fun (k : Nat) => Ctl.loopIn first
      (some { first := BitVec.ofNat 27 first, last := BitVec.ofNat 27 last.toNat, rem := BitVec.ofNat 32 k })
    ∀ p ∈ [(Instr.loopi g n disp, n.toNat), (Instr.loop g c disp, (X s c).toNat)],
      (ok → s.work.ctl = .fall → p.2 ≠ 0 → p.2 < 2 ^ 32 → exec p.1 s = .next (takes s (body p.2))) ∧
      (ok → s.work.ctl = .fall → p.2 = 0 → last + 1 < s.myLaunch.clen →
        exec p.1 s = .next (takes s (.loopIn (last + 1).toNat none))) ∧
      (¬(ok ∧ s.work.ctl = .fall ∧ p.2 < 2 ^ 32 ∧ (p.2 = 0 → last + 1 < s.myLaunch.clen)) →
        exec p.1 s = .next (trapped s { cls := .control }))

/-- R158, R167, R266 to R272: the heads that arm, signal, free, pin, spawn and push, `sig.rel` (R167) and `amsg` (R158) leave exactly
one action for the commit, with the values they read at execute. A word outside the frame raises the index trap, a count above 32,767 the frame trap, and a
`spawn` to what is no core of the rectangle, or an `amsg` to an owner outside it, the scratch protection trap. -/
def Sys2Proof.Claims.ThreadletHeadsLeaveTheirAction : Prop :=
  ∀ (g : Guard) (a b : XReg) (v : VReg) (urg k : BitVec 4) (cls prio : BitVec 2) (i : BitVec 5) (w d : FWord) (n : BitVec 8)
    (e : BitVec 32) (p : PktMod) (s : State), s.work.regs.on g = true →
    let f := X s a
    let fits := fun (n : Nat) => n < 8 * 4 ^ fpCls f
    (w.toNat < words s → (X s a).toNat + i.toNat ≤ 32767 →
      exec (.sarm g prio a i w e) s = .next (leaves s (.arm w.toNat ((X s a).toNat + i.toNat) e prio.toNat))) ∧
    (w.toNat < words s → 32767 < (X s a).toNat + i.toNat →
      exec (.sarm g prio a i w e) s = .next (trapped s { cls := .frame })) ∧
    (fits w.toNat → exec (.sig g a urg w n) s = .next (leaves s (.sig f urg w.toNat n.toNat .none none))) ∧
    (fits w.toNat → fits d.toNat → exec (.sigw g a b urg w n d) s =
      .next (leaves s (.sig f urg w.toNat n.toNat (.word d.toNat (X s b) (s.work.regs.mark b)) none))) ∧
    (fits w.toNat → fits (d.toNat + 7) → exec (.sigv g a v urg w n d) s =
      .next (leaves s (.sig f urg w.toNat n.toNat (.vec d.toNat (s.work.regs.rv v)) none))) ∧
    (fits w.toNat → exec (.sigRel g a w n p) s =
      .next (leaves s (.sig f p.urg w.toNat n.toNat .none (some p.scope)))) ∧
    (¬w.toNat < words s → exec (.sarm g prio a i w e) s = .next (trapped s { cls := .index, addr := BitVec.ofNat 64 w.toNat })) ∧
    (¬fits w.toNat → ∀ h ∈ [Instr.sig g a urg w n, .sigw g a b urg w n d, .sigv g a v urg w n d, .sigRel g a w n p],
      exec h s = .next (trapped s { cls := .index, addr := BitVec.ofNat 64 w.toNat })) ∧
    (fits w.toNat → ¬fits d.toNat → exec (.sigw g a b urg w n d) s =
      .next (trapped s { cls := .index, addr := BitVec.ofNat 64 d.toNat })) ∧
    (fits w.toNat → ¬fits (d.toNat + 7) → exec (.sigv g a v urg w n d) s =
      .next (trapped s { cls := .index, addr := BitVec.ofNat 64 (d.toNat + 7) })) ∧
    exec (.ffree g a) s = .next (leaves s (.ffree f)) ∧
    exec (.fpin g a) s = .next (leaves s (.fpin f)) ∧
    exec (.funpin g a) s = .next (leaves s (.funpin f)) ∧
    let spawns := X s b = baseOf s.pkg (addrCore (X s b)) ∧ s.myLaunch.inRect (addrCore (X s b)) = true
    (spawns → exec (.spawn g b a urg cls prio k e) s = .next (leaves s (.spawn (addrCore (X s b))
        ((List.range k.toNat).map fun j => X s (a + BitVec.ofNat 5 j)) urg cls.toNat prio.toNat e))) ∧
    (¬spawns → exec (.spawn g b a urg cls prio k e) s = .next (trapped s { cls := .scratchProtection, addr := X s b })) ∧
    exec (.tspawn g a k e) s = .next (leaves s (.tspawn ((List.range k.toNat).map fun j => X s (a + BitVec.ofNat 5 j)) e)) ∧
    let owned := addrPkg f = s.pkg ∧ s.myLaunch.inRect (s.ownerOf f) = true
    (owned → exec (.amsg g a b prio k p e) s = .next (leaves s (.amsg (s.ownerOf f) f
        ((List.range k.toNat).map fun j => X s (b + BitVec.ofNat 5 j)) prio.toNat p e))) ∧
    (¬owned → exec (.amsg g a b prio k p e) s = .next (trapped s { cls := .scratchProtection, addr := f }))

/-- R268, R120: `falloc` takes the top of the class's free list, but for a location that is reserved, with the location's next
generation, else the least recently touched eligible victim of the class, the lowest location of equally old ones, and
writes the new frame's pointer, marked, at the next generation after the victim's; the location is reserved until the block
ends; with neither it raises the frame trap. -/
def Sys2Proof.Claims.FallocTakesTheTopOfTheFreeList : Prop :=
  ∀ (g : Guard) (d : XReg) (cls : BitVec 2) (s : State), s.work.regs.on g = true →
    let c := s.cur.core
    let dir := fun u => (s.core c).dir u
    let free := (mget [] (s.core c).fr.free cls.toNat).filter fun u => !(dir u).reserved
    let fits := fun (u : Nat) => u ∈ (s.core c).fr.dir.map (·.1) ∧ (dir u).cls = cls ∧ s.eligible c u = true
    let takes := fun (u : Nat) (gen : BitVec 8) => exec (.falloc g d cls) s =
      .next ((s.reserveFrame c u cls.toNat).setWork { s.work with
        k := s.work.k + 1, regs := s.work.regs.wxm d (mkFp s.pkg c u gen cls.toNat) true,
        acts := s.work.acts ++ [(s.work.k, .falloc u cls.toNat gen.toNat)] })
    (∀ u rest, free = u :: rest →
      takes u (if (dir u).spilled = true ∧ (dir u).sgen = (dir u).gen + 1 then (dir u).gen + 2 else (dir u).gen + 1)) ∧
    (∀ u, free = [] → fits u → (∀ v, fits v → v ≠ u → (dir u).touch < (dir v).touch ∨ (dir u).touch = (dir v).touch ∧ u < v) →
      takes u ((dir u).gen + 1)) ∧
    (free = [] → (∀ u, ¬fits u) → exec (.falloc g d cls) s = .next (trapped s { cls := .frame }))

/-- R273, R274: `launch` with a reservation left that no earlier `launch` of its block takes writes 0, without one writes 1;
`rbar` leaves its arrival where the rectangle of its shape fits and fewer than four barriers are outstanding, none of its own
shape, and otherwise raises the control trap; a slot outside the frame raises the index trap of either. -/
def Sys2Proof.Claims.LaunchAndBarrierHeads : Prop :=
  ∀ (g : Guard) (d a : XReg) (urg : BitVec 4) (p : PktMod) (lw lh : BitVec 3) (sf : SlotField) (s : State),
    s.work.regs.on g = true →
    let taken := (s.work.acts.filter fun a => match a.2 with
      | .launch _ _ _ _ => true
      | _ => false).length
    let left := mget 0 (s.core s.cur.core).ni.resv s.me.lid.toNat - taken
    let out := trapped s { cls := .index, addr := BitVec.ofNat 64 sf.slot.toNat }
    (¬slotFits s sf → exec (.launch g d a urg sf) s = .next out) ∧
    (slotFits s sf → (X s a).toNat % 128 = 0 → (s.myLaunch.depth = 7 ∨ left = 0) →
      exec (.launch g d a urg sf) s = .next (afterRegs s (s.work.regs.wx d 1))) ∧
    (slotFits s sf → (X s a).toNat % 128 = 0 → ¬(s.myLaunch.depth = 7 ∨ left = 0) →
      exec (.launch g d a urg sf) s = .next (after s { s.work with
        regs := s.work.regs.wx d 0,
        acts := s.work.acts ++ [(s.work.k, .launch (X s a) urg (if sf.sv then some sf.slot.toNat else none) sf.fresh)] })) ∧
    (slotFits s sf → (X s a).toNat % 128 ≠ 0 →
      exec (.launch g d a urg sf) s = .next (trapped s { cls := .alignment, addr := X s a })) ∧
    let fits := lw.toNat ≤ s.myLaunch.lw ∧ lh.toNat ≤ s.myLaunch.lh ∧ (s.barsOut s.work).length < 4 ∧
      (lw.toNat, lh.toNat) ∉ s.barsOut s.work
    (¬sf.slot.toNat < words s → exec (.rbar g p lw lh sf) s = .next out) ∧
    (sf.slot.toNat < words s → ¬fits → exec (.rbar g p lw lh sf) s = .next (trapped s { cls := .control })) ∧
    (sf.slot.toNat < words s → fits → exec (.rbar g p lw lh sf) s = .next (leaves s (.rbar p lw.toNat lh.toNat sf.slot.toNat sf.fresh)))

/-- Threadlet, frame, launch and barrier heads leave their action for the commit. -/
def Obligations.ThreadletHeadsLeaveTheirAction : Prop := Claims.ThreadletHeadsLeaveTheirAction ∧ Claims.FallocTakesTheTopOfTheFreeList ∧ Claims.LaunchAndBarrierHeads

/-- R144, R145, R146: loads and stores of the frame and of local scratch. A load sees the block's own earlier stores and
notes its frame's last touch (R120); a store is left to the commit; a load of an empty frame word, a misaligned address or one outside scratch or the launch's
windows traps, and so does a frame word past the frame or, for a vector of words, off a multiple of 8; a vector access with
every lane off accesses nothing. The order of the alignment and scratch checks, and that an access with every lane off
makes none, are log 26's. -/
def Obligations.LocalLoadsAndStores : Prop :=
  ∀ (g : Guard) (d x b : XReg) (v : VReg) (w : FWord) (id : LsId) (off : BitVec 32) (ty : Ty) (s : State),
    let c := s.cur.core
    let k := w.toNat + (X s b).toNat
    let put := fun (core o : Nat) (bs : List (Option Byte)) (m : Bool) =>
      after s { s.work with stores := s.work.stores ++ [{ core := core, off := o, bytes := bs, mark := m }] }
    let a := ea s b off
    (s.work.regs.on g = true →
      (k < words s → s.fullIn s.work c (wordAt s k / 8) = true → exec (.fld g d b w id) s =
        .next (afterRead s c (wordAt s k) 8 { s.work with
          regs := s.work.regs.wxm d (s.loadWord s.work c (wordAt s k)) (s.ptrIn s.work c (wordAt s k / 8)) })) ∧
      (k < words s → s.fullIn s.work c (wordAt s k / 8) = false →
        exec (.fld g d b w id) s = .next (trapped s { cls := .emptyWord, addr := BitVec.ofNat 64 k })) ∧
      (¬ k < words s → exec (.fld g d b w id) s = .next (trapped s { cls := .index, addr := BitVec.ofNat 64 k })) ∧
      (k < words s → exec (.fst g b x w id) s =
        .next (put c (wordAt s k) ((wordBytes (X s x)).map some) (s.work.regs.mark x))) ∧
      (¬ k < words s → exec (.fst g b x w id) s = .next (trapped s { cls := .index, addr := BitVec.ofNat 64 k })) ∧
      (∀ t o, localTo s a (Ty.width ty) (Ty.width ty) false t o → exec (.ld g d b ty id off) s =
        .next (afterRead s t o (Ty.width ty) { s.work with
          regs := s.work.regs.wxm d (loaded ty (s.loadBytes s.work t o (Ty.width ty))) (ty = .s64 && s.ptrIn s.work t (o / 8)) })) ∧
      (∀ t o, localTo s a (Ty.width ty) (Ty.width ty) true t o → exec (.st g b x ty id off) s =
        .next (put t o ((natLe (Ty.width ty) (X s x).toNat).map some) (ty = .s64 && s.work.regs.mark x))) ∧
      (∀ t, localTrap s a (Ty.width ty) (Ty.width ty) false = some t → exec (.ld g d b ty id off) s = .next (trapped s t)) ∧
      (∀ t, localTrap s a (Ty.width ty) (Ty.width ty) true = some t → exec (.st g b x ty id off) s = .next (trapped s t))) ∧
    (¬anyOn s g true → exec (.fldv g v b w id) s = .next (after s s.work) ∧ exec (.fstv g b v w id) s = .next (after s s.work)) ∧
    (anyOn s g true → ¬(k % 8 = 0 ∧ k + 7 < words s) → ∀ h ∈ [Instr.fldv g v b w id, .fstv g b v w id],
      exec h s = .next (trapped s { cls := .index, addr := BitVec.ofNat 64 k })) ∧
    (anyOn s g true → k % 8 = 0 → k + 7 < words s →
      (∀ j < 8, enabled s g true j = true → s.fullIn s.work c (wordAt s (k + j) / 8) = false →
        (∀ n < j, enabled s g true n = true → s.fullIn s.work c (wordAt s (k + n) / 8) = true) →
        exec (.fldv g v b w id) s = .next (trapped s { cls := .emptyWord, addr := BitVec.ofNat 64 (k + j) })) ∧
      ((∀ j < 8, enabled s g true j = true → s.fullIn s.work c (wordAt s (k + j) / 8) = true) →
        ReadsLanes (.fldv g v b w id) s c (wordAt s k) 64 g v true (fun j => (s.loadWord s.work c (wordAt s (k + j))).toNat) 0) ∧
      exec (.fstv g b v w id) s = .next (after s { s.work with stores := s.work.stores ++
        (((List.range 8).filter (enabled s g true)).map fun j =>
          { core := c, off := wordAt s (k + j), bytes := (natLe 8 (L s true v j)).map some, mark := false }) })) ∧
    (laneTys.contains ty = true → let wd := wideOf ty
      (¬anyOn s g wd → exec (.vld g v b ty id off) s = .next (after s s.work) ∧
        exec (.vst g b v ty id off) s = .next (after s s.work)) ∧
      (anyOn s g wd → ∀ t, localTrap s a 64 64 false = some t → exec (.vld g v b ty id off) s = .next (trapped s t)) ∧
      (anyOn s g wd → ∀ t, localTrap s a 64 64 true = some t → exec (.vst g b v ty id off) s = .next (trapped s t)) ∧
      (anyOn s g wd → ∀ t o, localTo s a 64 64 false t o →
        ReadsLanes (.vld g v b ty id off) s t o 64 g v wd (fun j => leNat (s.loadBytes s.work t (o + width wd / 8 * j) (width wd / 8))) 0) ∧
      (anyOn s g wd → ∀ t o, localTo s a 64 64 true t o → exec (.vst g b v ty id off) s =
        .next (put t o (((List.range (lanes wd)).map fun j =>
          if enabled s g wd j then (natLe (width wd / 8) (L s wd v j)).map some else List.replicate (width wd / 8) none).flatten) false)))

/-- R150 to R164: the split-phase heads, with their slot and frame words in the frame and their address aligned, leave one
request for the commit; a slot or a word outside the frame raises the index trap and a misaligned address the alignment trap,
in that order (log 26). That `own` has its map at a multiple of 64 is log 17. -/
def Sys2Proof.Claims.SplitPhaseHeadsLeaveTheirRequest : Prop :=
  ∀ (g : Guard) (a v c : XReg) (w : FWord) (ty : Ty) (p : PktMod) (sf : SlotField) (s : State), s.work.regs.on g = true →
    let slotTrap := trapped s { cls := .index, addr := BitVec.ofNat 64 sf.slot.toNat }
    let wordTrap := trapped s { cls := .index, addr := BitVec.ofNat 64 w.toNat }
    let off := trapped s { cls := .alignment, addr := X s a }
    (¬slotFits s sf → (∀ f ∈ wordForms ty p sf c s, exec (f.1 g a w) s = .next slotTrap) ∧
      (∀ f ∈ amoForms, exec (f.1 g a v w ty p sf) s = .next slotTrap) ∧
      ∀ h ∈ [Instr.stef g a v p sf, .tagf g a p sf, .tage g a p sf, .amoCas g a v c w ty p sf], exec h s = .next slotTrap) ∧
    (slotFits s sf → ¬ w.toNat < words s → (∀ f ∈ amoForms, exec (f.1 g a v w ty p sf) s = .next wordTrap) ∧
      exec (.amoCas g a v c w ty p sf) s = .next wordTrap) ∧
    (slotFits s sf → w.toNat < words s → (X s a).toNat % Ty.width ty ≠ 0 →
      (∀ f ∈ amoForms, exec (f.1 g a v w ty p sf) s = .next off) ∧ exec (.amoCas g a v c w ty p sf) s = .next off) ∧
    ((X s a).toNat % Ty.width ty ≠ 0 → ∀ f ∈ redForms, exec (f.1 g a v ty p) s = .next off) ∧
    (slotFits s sf → (X s a).toNat % 8 ≠ 0 → ∀ h ∈ [Instr.stef g a v p sf, .tagf g a p sf, .tage g a p sf],
      exec h s = .next off) ∧
    (slotFits s sf → ∀ f ∈ wordForms ty p sf c s,
      (w.toNat + f.2.2.1 ≤ words s → (X s a).toNat % f.2.1 = 0 →
        exec (f.1 g a w) s = .next (leaves s (f.2.2.2 (X s a) w.toNat))) ∧
      (¬ w.toNat + f.2.2.1 ≤ words s → exec (f.1 g a w) s =
        .next (trapped s { cls := .index, addr := BitVec.ofNat 64 (w.toNat + f.2.2.1 - 1) })) ∧
      (w.toNat + f.2.2.1 ≤ words s → (X s a).toNat % f.2.1 ≠ 0 →
        exec (f.1 g a w) s = .next (trapped s { cls := .alignment, addr := X s a }))) ∧
    (slotFits s sf → (X s a).toNat % 8 = 0 →
      exec (.stef g a v p sf) s = .next (leaves s (.fe .stef (X s a) (X s v) 0 p sf)) ∧
      exec (.tagf g a p sf) s = .next (leaves s (.fe .tagf (X s a) 0 0 p sf)) ∧
      exec (.tage g a p sf) s = .next (leaves s (.fe .tage (X s a) 0 0 p sf))) ∧
    (slotFits s sf → w.toNat < words s → (X s a).toNat % Ty.width ty = 0 →
      (∀ f ∈ amoForms, exec (f.1 g a v w ty p sf) s = .next (leaves s (.amo f.2 ty (X s a) (X s v) 0 w.toNat p sf))) ∧
      exec (.amoCas g a v c w ty p sf) s = .next (leaves s (.amo .cas ty (X s a) (X s v) (X s c) w.toNat p sf))) ∧
    ((X s a).toNat % Ty.width ty = 0 →
      ∀ f ∈ redForms, exec (f.1 g a v ty p) s = .next (leaves s (.red f.2 ty (X s a) (X s v) p)))

/-- R156, R157: `copy`, `gather` and `scatter` leave one request with the lengths, indices and, for `scatter`, the bytes they
read at execute (log 25). A slot outside the frame or an index at the bound raises the index trap, a misaligned address or a
length that is no multiple of 8 or above 2^24 the alignment trap, a local range not granted the scratch protection trap; the
order of the checks is log 26's. -/
def Sys2Proof.Claims.CopyGatherScatterHeads : Prop :=
  ∀ (g : Guard) (d a n : XReg) (v : VReg) (esz : BitVec 4) (bound : Half) (nm1 : BitVec 5) (p : PktMod) (sf : SlotField)
    (s : State), s.work.regs.on g = true →
    let count := nm1.toNat + 1
    let e := 2 ^ esz.toNat
    let idx := (List.range count).map fun j => ((s.work.regs.rv v).extractLsb' (16 * j) 16).toNat
    let limit := if bound = 0 then 65535 else bound.toNat
    let off := fun (x : Word) => trapped s { cls := .alignment, addr := x }
    let gat := Instr.gather g d a v esz bound nm1 p sf
    let sca := Instr.scatter g d a v esz bound nm1 p sf
    (¬slotFits s sf → ∀ h ∈ [Instr.copy g d a n p sf, gat, sca],
      exec h s = .next (trapped s { cls := .index, addr := BitVec.ofNat 64 sf.slot.toNat })) ∧
    (slotFits s sf → (X s d).toNat % 8 = 0 → (X s a).toNat % 8 = 0 → (X s n).toNat % 8 = 0 → (X s n).toNat ≤ 2 ^ 24 →
      exec (.copy g d a n p sf) s = .next (leaves s (.copy (X s d) (X s a) (X s n).toNat p sf))) ∧
    (slotFits s sf → ((X s d).toNat % 8 ≠ 0 ∨ (X s n).toNat % 8 ≠ 0 ∨ 2 ^ 24 < (X s n).toNat) →
      exec (.copy g d a n p sf) s = .next (off (X s d))) ∧
    (slotFits s sf → (X s d).toNat % 8 = 0 → (X s n).toNat % 8 = 0 → (X s n).toNat ≤ 2 ^ 24 → (X s a).toNat % 8 ≠ 0 →
      exec (.copy g d a n p sf) s = .next (off (X s a))) ∧
    (slotFits s sf → (∀ i ∈ idx, i = 65535 ∨ i < limit) →
      ((X s a).toNat % e ≠ 0 → exec gat s = .next (off (X s a))) ∧
      ((X s d).toNat % e ≠ 0 → exec sca s = .next (off (X s d))) ∧
      ((X s a).toNat % e = 0 → ∀ t, localTrap s (X s d) (count * e) (min e 64) true = some t → exec gat s = .next (trapped s t)) ∧
      ((X s d).toNat % e = 0 → ∀ t, localTrap s (X s a) (count * e) (min e 64) false = some t → exec sca s = .next (trapped s t)) ∧
      ((X s a).toNat % e = 0 → ∀ t o, localTo s (X s d) (count * e) (min e 64) true t o →
        exec gat s = .next (leaves s (.gather (X s d) (X s a) idx e p sf))) ∧
      ((X s d).toNat % e = 0 → ∀ t o, localTo s (X s a) (count * e) (min e 64) false t o →
        exec sca s =
          .next (afterRead s t o (count * e) { s.work with
            acts := s.work.acts ++ [(s.work.k, .scatter (X s d) (s.loadBytes s.work t o (count * e)) idx e p sf)] }))) ∧
    (slotFits s sf → ∀ i, idx.find? (fun i => i ≠ 65535 && limit ≤ i) = some i → ∀ h ∈ [gat, sca],
      exec h s = .next (trapped s { cls := .index, addr := BitVec.ofNat 64 i }))

/-- Split-phase, copy, gather and scatter heads leave their request after their checks. -/
def Obligations.SplitPhaseHeadsLeaveTheirRequest : Prop := Claims.SplitPhaseHeadsLeaveTheirRequest ∧ Claims.CopyGatherScatterHeads

/-- R165, R166, R169, R171, R172: the fences, the queue heads and the stage claims. `enq` writes 1 and sends nothing where
the enqueue buffer has no place left, the block's own entries counted; `deq` writes 1 where the queue holds no entry that the
block has not taken, and its block keeps w0 and HEAD as it found them (log 22); its descriptor is read in either case (R120). A slot outside the frame raises the index trap
of `enq.a`, a queue that is not VALID or of another entry size, or words outside the frame, that of `deq`. A queue's address
is a multiple of 64, else the alignment trap (log 17); one in either local form of R110, and a stage ring, is one that R110 and R82 grant, else
the scratch protection trap (the rights asked are log 51's). -/
def Obligations.FenceQueueAndStageHeads : Prop :=
  ∀ (g : Guard) (d q r : XReg) (k : BitVec 4) (w : FWord) (p : PktMod) (sf : SlotField) (sc : Scope) (fr : Bool) (s : State),
    s.work.regs.on g = true →
    let c := s.cur.core
    let room := (s.core c).ni.enqBuf.length + (s.core c).ni.pendBuffered [] s.work.acts < 16
    let here := (s.localAddr c (X s q)).isSome = true → (s.localOk c s.mySid (X s q) 64 true).isSome
    let home := if (X s q).toNat < 0x100000 then baseOf s.pkg c + X s q else X s q
    let ws := (List.range (2 ^ k.toNat)).map fun j => X s (r + BitVec.ofNat 5 j)
    (¬slotFits s sf → exec (.enqA g d q r k p sf) s =
      .next (trapped s { cls := .index, addr := BitVec.ofNat 64 sf.slot.toNat })) ∧
    exec (.fenceRel g sc) s = .next (leaves s (.fenceRel sc)) ∧
    exec (.fenceAcq g sc) s = .next (leaves s (.fenceAcq sc)) ∧
    ((X s q).toNat % 64 ≠ 0 → ∀ t, t = trapped s { cls := .alignment, addr := X s q } → exec (.enq g d q r k p sf) s = .next t ∧
      (slotFits s sf → exec (.enqA g d q r k p sf) s = .next t) ∧
      exec (.deq g d q w k p fr) s = .next t) ∧
    ((X s q).toNat % 64 = 0 → ¬here → ∀ t, t = trapped s { cls := .scratchProtection, addr := X s q } →
      exec (.enq g d q r k p sf) s = .next t ∧ (slotFits s sf → exec (.enqA g d q r k p sf) s = .next t)) ∧
    ((X s q).toNat % 64 = 0 → here → room → exec (.enq g d q r k p sf) s = .next (after s { s.work with
        regs := s.work.regs.wx d 0, acts := s.work.acts ++ [(s.work.k, .enq home ws p none sf.fresh)] }) ∧
      (slotFits s sf → exec (.enqA g d q r k p sf) s = .next (after s { s.work with
        regs := s.work.regs.wx d 0,
        acts := s.work.acts ++ [(s.work.k, .enq home ws p (if sf.sv then some sf.slot.toNat else none) sf.fresh)] }))) ∧
    ((X s q).toNat % 64 = 0 → here → ¬room → exec (.enq g d q r k p sf) s = .next (afterRegs s (s.work.regs.wx d 1)) ∧
      (slotFits s sf → exec (.enqA g d q r k p sf) s = .next (afterRegs s (s.work.regs.wx d 1)))) ∧
    ((X s q).toNat % 64 = 0 → (∀ o, ¬localBoth s (X s q) 64 64 c o) →
      exec (.deq g d q w k p fr) s = .next (trapped s { cls := .scratchProtection, addr := X s q })) ∧
    (∀ o, localBoth s (X s q) 64 64 c o →
      let qd := queueOf fun n => s.loadWord s.work c (o + 8 * n)
      (¬(qd.valid = true ∧ qd.esz = k.toNat ∧ w.toNat + 2 ^ k.toNat ≤ words s) →
        exec (.deq g d q w k p fr) s = .next (trapped s { cls := .index, addr := BitVec.ofNat 64 w.toNat })) ∧
      (qd.valid = true → qd.esz = k.toNat → w.toNat + 2 ^ k.toNat ≤ words s →
      (s.work.taken o < qd.used → exec (.deq g d q w k p fr) s = .next (afterRead s c o 64 { s.work with
        regs := s.work.regs.wx d 0, acts := s.work.acts ++ [(s.work.k, .deq o w.toNat (2 ^ k.toNat) p fr)],
        seen := s.work.seen ++ [(c, o, (s.core c).readScr o 8), (c, o + 14, (s.core c).readScr (o + 14) 2)] })) ∧
      (qd.used ≤ s.work.taken o → exec (.deq g d q w k p fr) s =
        .next (afterRead s c o 64 { s.work with regs := s.work.regs.wx d 1 })))) ∧
    ((X s q).toNat < 0x100000 → (s.core c).grants s.mySid (X s q).toNat (min 96 (0x100000 - (X s q).toNat)) true true = true →
      exec (.stgClaim g q r) s = .next (leaves s (.stage true (X s q) (X s r))) ∧
      exec (.stgFree g q r) s = .next (leaves s (.stage false (X s q) (X s r)))) ∧
    (¬((X s q).toNat < 0x100000 ∧ (s.core c).grants s.mySid (X s q).toNat (min 96 (0x100000 - (X s q).toNat)) true true = true) →
      exec (.stgClaim g q r) s = .next (trapped s { cls := .scratchProtection, addr := X s q }) ∧
      exec (.stgFree g q r) s = .next (trapped s { cls := .scratchProtection, addr := X s q }))

/-- R275 to R279, R143: identity, system and format registers, counters, and the heads that trap or resume. A register only
a privileged launch may touch raises the privilege trap to another. A `brk` whose stop the debugger has armed parks its
threadlet at the block's start into the hold list and tells the owner, or goes on, told as skipped, where that cannot be
(R340; the notices' numbers are log 14's). -/
def Obligations.SystemHeadsReadAndWriteTheirRegisters : Prop :=
  ∀ (g : Guard) (d a : XReg) (n i : BitVec 5) (c : BitVec 4) (m : FmtReg) (code : Half) (s : State),
    s.work.regs.on g = true →
    let priv := s.myLaunch.priv
    let core := s.core s.cur.core
    (i.toNat ≤ 17 → exec (.rid g d i) s = .next (afterRegs s (s.work.regs.wxm d
      (identity s s.myLaunch s.cur.core i.toNat s.me.fp s.cur.unit (BitVec.ofNat 64 s.work.regs.cf.toNat)) (i.toNat = 12)))) ∧
    ((n.toNat ≤ 5 ∨ 8 ≤ n.toNat ∧ n.toNat ≤ 10) →
      (priv = true ∨ n.toNat < 8 → exec (.sysr g d n) s = .next (afterRegs s (s.work.regs.wx d (sysRead s s.work n.toNat)))) ∧
      (¬(priv = true ∨ n.toNat < 8) → exec (.sysr g d n) s = .next (trapped s { cls := .privilege })) ∧
      (n ≠ 0 → priv = true → exec (.sysw g n a) s = .next (leaves s (.sysw n.toNat (X s a)))) ∧
      (n ≠ 0 → priv = false → exec (.sysw g n a) s = .next (trapped s { cls := .privilege }))) ∧
    exec (.sysw g 0 a) s = .next (afterRegs s { s.work.regs with cf := (X s a).setWidth 7 }) ∧
    sysRead s s.work 0 = s.work.regs.cf.setWidth 64 ∧ sysRead s s.work 4 = BitVec.ofNat 64 s.myLaunch.depth ∧
    sysRead s s.work 5 = BitVec.ofNat 64 (mget 0 core.ni.resv s.me.lid.toNat) ∧
    exec (.ctrRd g d c) s = .next (afterRegs s (s.work.regs.wx d
      (if (mget 0 core.ctrCfg c.toNat).extractLsb' 8 16 = s.mySid then mget 0 core.ctr c.toNat else 0))) ∧
    (priv = true → exec (.ctrCfg g c a) s = .next (leaves s (.ctrCfg c.toNat (X s a)))) ∧
    (priv = false → exec (.ctrCfg g c a) s = .next (trapped s { cls := .privilege })) ∧
    (fmtMalformed (X s a) = false → exec (.fmtSet g m a) s = .next (after s { s.work with
      fmt := mput m.toNat (X s a) s.work.fmt, acts := s.work.acts ++ [(s.work.k, .fmtSet m.toNat (X s a))] })) ∧
    (fmtMalformed (X s a) = true → exec (.fmtSet g m a) s = .next (trapped s { cls := .format })) ∧
    (fmtMalformed (s.fmtOf m.toNat) = false → exec (.fmtGet g d m) s = .next (afterRegs s (s.work.regs.wx d (s.fmtOf m.toNat)))) ∧
    (fmtMalformed (s.fmtOf m.toNat) = true → exec (.fmtGet g d m) s = .next (trapped s { cls := .format })) ∧
    exec (.trap g code) s = .next (trapped s { cls := .software, code := code }) ∧
    ((s.debugged s.me.lid = false ∨ bitOf s.dist.dbgCtl 62 = false) → exec (.brk g code) s = .next (after s s.work)) ∧
    (s.debugged s.me.lid = true → bitOf s.dist.dbgCtl 62 = true →
      let here := s.discard s.cur.core s.cur.unit
      let stop := here.park s.cur.core s.cur.unit s.me.regs s.me.pos true false
      (∀ t, stop = some t →
        exec (.brk g code) s = .next (t.stopNote s.cur.core s.me.fp false (2 + 16 * code.toNat)) ∧
        t.ctx s.cur.core s.cur.unit = {} ∧ ∃ tk : Token, (t.core s.cur.core).hold = (here.core s.cur.core).hold ++ [tk] ∧
          tk.pos = 0xffffffff ∧ tk.kind = .park s.me.handler ∧ tk.pass = false) ∧
      (stop = none → exec (.brk g code) s = .next (after (s.stopNote s.cur.core s.me.fp true 2) s.work))) ∧
    (s.me.handler = false → exec (.tresume g a) s = .next (trapped s { cls := .control })) ∧
    (s.me.handler = true → s.work.ctl = .fall →
      exec (.tresume g 0) s = .next (takes s (.resume none))) ∧
    (s.me.handler = true → a ≠ 0 → let line := (X s a).toNat / 32
      let names := (X s a).toNat < 2 ^ 32 ∧ (X s a).toNat % 32 = 0 ∧ line < s.myLaunch.clen
      (¬names → exec (.tresume g a) s = .next (trapped s { cls := .control })) ∧
      (names → ∀ img, s.lineAt s.cur.core s.me.lid line = some img →
        ((lineHdr img).kind ≠ 2 → exec (.tresume g a) s = .next (trapped s { cls := .control })) ∧
        ((lineHdr img).kind = 2 → s.work.ctl = .fall →
          exec (.tresume g a) s = .next (takes s (.resume (some ((X s a).setWidth 32)))))) ∧
      (names → s.lineAt s.cur.core s.me.lid line = none → (s.core s.cur.core).frozen = false →
        exec (.tresume g a) s = .next (s.fetchLine s.cur.core s.me.lid line)))

/-- R147, R148: `vldf` and `vstq` with a well-formed format, an aligned record in local scratch and a start on a lane
boundary; a malformed format, an address off a multiple of 64, one that no window grants, and a start off a lane boundary raise their
traps in this order. A plain tile is read and written lane by lane; a record that passes its check is widened, and for a store
re-quantised whole with the enabled lanes replaced. A record that fails the check raises the format trap, an election that overflows
the list the list-overflow trap, and with every lane off nothing is accessed. A store keeps what it read for its
commit, and asks for a window with both rights (log 51). -/
def Obligations.TileLoadsAndStores : Prop :=
  ∀ (g : Guard) (v : VReg) (b : XReg) (n : FmtReg) (id : LsId) (start : BitVec 10) (topk : Bool) (s : State),
    let f := fmtRead (s.fmtOf n.toNat)
    let wd : Bool := f.kind = .f64
    let a := X s b
    let nb := width wd / 8
    let load := Instr.vldf g v b n id start
    let keep := Instr.vstq g b v n id start topk
    let put := fun (t o : Nat) (bs : List (Option Byte)) (fl : CfFlags) (old : List (Nat × Nat × List Byte)) => Host.Outcome.next (after s { s.work with
      seen := s.work.seen ++ old, stores := s.work.stores ++ [{ core := t, off := o, bytes := bs, mark := false }], regs := s.work.regs.setFlags fl })
    (¬anyOn s g wd → exec load s = .next (after s s.work) ∧ exec keep s = .next (after s s.work)) ∧
    (anyOn s g wd → fmtMalformed (s.fmtOf n.toNat) = true →
      exec load s = .next (trapped s { cls := .format, addr := a }) ∧ exec keep s = .next (trapped s { cls := .format, addr := a })) ∧
    (anyOn s g wd → fmtMalformed (s.fmtOf n.toNat) = false →
      (∀ e, localTrap s a f.size 64 false = some e → exec load s = .next (trapped s e)) ∧
      (a.toNat % 64 ≠ 0 → exec keep s = .next (trapped s { cls := .alignment, addr := a })) ∧
      (a.toNat % 64 = 0 → (∀ t o, ¬localBoth s a f.size 64 t o) → exec keep s = .next (trapped s { cls := .scratchProtection, addr := a })) ∧
      (¬startFits wd start → ∀ t o,
        (localTo s a f.size 64 false t o → exec load s = .next (trapped s { cls := .index, addr := BitVec.ofNat 64 start.toNat })) ∧
        (localBoth s a f.size 64 t o → exec keep s = .next (trapped s { cls := .index, addr := BitVec.ofNat 64 start.toNat })))) ∧
    (anyOn s g wd → fmtMalformed (s.fmtOf n.toNat) = false → startFits wd start → ∀ t o,
      let bs := s.loadBytes s.work t o f.size
      let vals := fun (j : Nat) => toF32 ((f.widen bs).getD (start.toNat + j) (.fin false 0 0))
      let merged := (f.widen bs).zipIdx.map fun p =>
        if start.toNat ≤ p.2 ∧ p.2 < start.toNat + 16 ∧ enabled s g false (p.2 - start.toNat) = true
        then L s false v (p.2 - start.toNat) else (toF32 p.1).1
      (localTo s a f.size 64 false t o →
        (f.plain = true → ReadsLanes load s t o f.size g v wd
          (fun j => leNat (s.loadBytes s.work t (o + nb * (start.toNat + j)) nb)) 0) ∧
        (f.plain = false → f.recordOk bs = true →
          ReadsLanes load s t o f.size g v false (fun j => (vals j).1) (laneFlags s g false fun j => (vals j).2)) ∧
        (f.plain = false → f.recordOk bs = false → exec load s = .next (trapped s { cls := .format, addr := a }))) ∧
      (localBoth s a f.size 64 t o →
        (f.plain = true → exec keep s = put t (o + nb * start.toNat) (laneBytes s g wd v) 0 []) ∧
        (f.plain = false → f.recordOk bs = true →
          (∀ r fl, f.quantise topk merged = some (r, fl) → exec keep s = put t o (r.map some) fl [(t, o, (s.core t).readScr o f.size)]) ∧
          (f.quantise topk merged = none → exec keep s = .next (trapped s { cls := .listOverflow }))) ∧
        (f.plain = false → f.recordOk bs = false → exec keep s = .next (trapped s { cls := .format, addr := a }))))

/-- R205 to R209, R214 to R222: a multiply or scan whose views, formats, rows, operands and slot pass the checks of R209
leaves the use of its accumulator and one request that holds the views as the block saw them, and the first check that fails
raises its trap: a view's address, a view or a format, a row or a scan's reserved bits, an operand, the slot. That A is
checked whole before B in step 1, and that a bad AUX makes the view malformed, is log 53's. -/
def Sys2Proof.Claims.MultiplyHeadsLeaveTheirRequest : Prop :=
  ∀ (g : Guard) (d : AccReg) (a b t : XReg) (v : VReg) (k : BitVec 4) (p : PktMod) (sf : SlotField) (s : State),
    s.work.regs.on g = true → ∀ f ∈ multiplies g d a b t v k p sf s,
      (∀ e, localTrap s (X s a) 32 32 false = some e → exec f.1 s = .next (trapped s e)) ∧
      (∀ e ca oa, localTo s (X s a) 32 32 false ca oa → localTrap s (X s b) 32 32 false = some e →
        exec f.1 s = .next (trapped s e)) ∧
      ∀ ca oa cb ob, localTo s (X s a) 32 32 false ca oa → localTo s (X s b) 32 32 false cb ob →
      let wa := viewWords s ca oa
      let wb := viewWords s cb ob
      let va := viewOf s wa
      let vb := viewOf s wb
      let sparse := f.2.1 = .mmas
      let bud := if f.2.1 = .mmas then
          (match s.localOk s.cur.core s.mySid va.aux 32 false with
          | some (c, o) => s.loadBytes s.work c o 32
          | none => [])
        else []
      let m := { request s f.2.1 d sf with
        a := va, b := vb, rows := f.2.2.1, budget := bud, chunks := f.2.2.2.1, t := f.2.2.2.2, p := p }
      let views := viewFits f.2.1 wa va sparse = true ∧ viewFits f.2.1 wb vb false = true
      let small := sparse → bitOf va.fmt 26 = false ∧ ∀ n ∈ bud, n.toNat ≤ 32
      let outside := fun r => r ≠ 65535 && viewBound wa ≤ r
      let stops := fun (c : TrapClass) (x : Word) => exec f.1 s = .next (trapped s { cls := c, addr := x })
      (views → small → f.2.2.1.find? outside = none → scanFits f.1 f.2.2.2.2 → s.badOperand m.operands = none →
        slotFits s sf → exec f.1 s = .next (handsOver (s.touchLocal s.cur.core
          ([(X s a, 32), (X s b, 32)] ++ if f.2.1 = .mmas then [(va.aux, 32)] else [])) [d] m)) ∧
      (viewFits f.2.1 wa va sparse = false → stops .format (X s a)) ∧
      (viewFits f.2.1 wa va sparse = true → viewFits f.2.1 wb vb false = false → stops .format (X s b)) ∧
      (views → ¬small → stops .format (X s a)) ∧
      (views → small → ∀ r, f.2.2.1.find? outside = some r → stops .index (BitVec.ofNat 64 r)) ∧
      (views → small → f.2.2.1.find? outside = none → ¬scanFits f.1 f.2.2.2.2 → stops .index f.2.2.2.2) ∧
      (views → small → f.2.2.1.find? outside = none → scanFits f.1 f.2.2.2.2 →
        (∀ o, s.badOperand m.operands = some o → stops .scratchProtection o.1) ∧
        (s.badOperand m.operands = none → ¬slotFits s sf → stops .index (BitVec.ofNat 64 sf.slot.toNat)))

/-- R205, R206, R223 to R225: the heads of the accumulators. `acc.ld` and `acc.st` move whole rows between an aligned local
address and an accumulator; `qtile` waits until the unit has taken every request and then leaves the quantised record for
the commit, or raises the list-overflow trap. -/
def Sys2Proof.Claims.AccumulatorHeadsLeaveTheirAction : Prop :=
  ∀ (g : Guard) (d e : AccReg) (a : XReg) (nm1 : BitVec 5) (ty : Ty) (fty : FTy) (fm : FmtReg) (topk : Bool) (p : PktMod)
    (sf : SlotField) (s : State), s.work.regs.on g = true →
    let ty2 := if fty = .f64 then Ty.f64 else .f32
    let row := if ty = .f64 then 256 else if ty = .bf16 then 64 else 128
    let move := fun (form : MForm) => { request s form d sf with ty := ty, n := nm1.toNat + 1, addr := X s a, p := p }
    let two := fun (form : MForm) => { request s form d ⟨false, false, 0⟩ with s := e.toNat, ty := ty2 }
    let f := fmtRead (s.fmtOf fm.toNat)
    let xs := ((s.core s.cur.core).accElems d.toNat false).toList
    exec (.accGet g d) s = .next (leaves s (.accGet d.toNat)) ∧
    exec (.accGive g d) s = .next (leaves s (.accGive d.toNat)) ∧
    exec (.accZero g d) s = .next (handsOver s [d] (request s .accZero d ⟨false, false, 0⟩)) ∧
    exec (.accAdd g d e fty) s = .next (handsOver s [d, e] (two .accAdd)) ∧
    exec (.accRed g d e fty) s = .next (handsOver s [d, e] (two .accRed)) ∧
    (slotFits s sf →
      (∀ t o, localTo s (X s a) ((nm1.toNat + 1) * row) 64 false t o →
        exec (.accLd g d a nm1 ty p sf) s = .next (handsOver s [d] (move .accLd))) ∧
      (∀ t o, localTo s (X s a) ((nm1.toNat + 1) * row) 64 true t o →
        exec (.accSt g a d nm1 ty p sf) s = .next (handsOver s [d] (move .accSt))) ∧
      ((s.core s.cur.core).mq ≠ [] → exec (.qtile g a d fm topk p sf) s = .next s) ∧
      ((s.core s.cur.core).mq = [] → fmtMalformed (s.fmtOf fm.toNat) = false → f.kind ≠ .f64 → ∀ t o,
        localTo s (X s a) f.size 64 true t o →
        let leave := fun (r : List Byte) (fl : CfFlags) => Host.Outcome.next (after s { s.work with
          acts := s.work.acts ++ [(s.work.k, .accUse d.toNat),
            (s.work.k, .tile t o r p (if sf.sv then some sf.slot.toNat else none))],
          regs := s.work.regs.setFlags fl })
        (f.kind = .f32 → exec (.qtile g a d fm topk p sf) s =
          leave ((List.range 4096).map fun j => mget 0 (s.core s.cur.core).acc (4096 * d.toNat + j)) 0) ∧
        (f.kind ≠ .f32 → ∀ r fl, f.quantise topk xs = some (r, fl) → exec (.qtile g a d fm topk p sf) s = leave r fl) ∧
        (f.kind ≠ .f32 → f.quantise topk xs = none →
          exec (.qtile g a d fm topk p sf) s = .next (trapped s { cls := .listOverflow }))))

/-- Multiplies and accumulator heads leave their request after their checks. -/
def Obligations.MatrixHeadsLeaveTheirRequest : Prop := Claims.MultiplyHeadsLeaveTheirRequest ∧ Claims.AccumulatorHeadsLeaveTheirAction

/-- R203, R210, R212, R223, R224: the unit carries out the oldest request of its core: `acc.zero` leaves zeros, `acc.add` the
sums in the type's format, `acc.red` the pairwise sum of each row in row 0, column r for row r of the source; every other
accumulator keeps its value. A request done waits for its completion, which signals its slot once. -/
def Sys2Proof.Claims.MatrixUnitCarriesOutRequests : Prop :=
  ∀ (c : Nat) (s : State) (m : MReq) (rest : List MReq), c < 2048 →
    (s.core c).mq = m :: rest → m.d < 8 → m.s < 8 →
    let wide : Bool := m.ty = .f64
    let f := if wide then fmtF64 else fmtF32
    let old := s.core c
    (m.form ∈ [MForm.accZero, .accAdd, .accRed] → ∃ t, exec (.matrixRequest c) s = .next t ∧
      (t.core c).mq = rest ∧ (t.core c).mdone = old.mdone ++ [m] ∧ t.mem = s.mem ∧ (t.core c).scr = old.scr ∧
      (∀ n < 8, n ≠ m.d → ∀ i < 1024, accElem (t.core c) n false i = accElem old n false i) ∧
      (m.form = .accZero → ∀ i < 1024, accElem (t.core c) m.d false i = 0) ∧
      (m.form = .accAdd → ∀ i < accCount wide,
        accElem (t.core c) m.d wide i = (f.add .rne (accElem old m.d wide i) (accElem old m.s wide i)).1) ∧
      (m.form = .accRed → ∀ i < accCount wide, accElem (t.core c) m.d wide i =
        if i < accCount wide / 32 then (tree (f.add .rne) (fun k => accElem old m.s wide (32 * i + k)) 5 0).1
        else accElem old m.d wide i)) ∧
    let taken := (s.modCore c fun x => { x with mq := rest }).touchLocal c m.reads
    (∀ s', mRun taken c m = .ok s' →
      exec (.matrixRequest c) s = .next ((s'.mCount c m).modCore c fun x => { x with mdone := x.mdone ++ [m] })) ∧
    (∀ a, mRun taken c m = .error a → ∃ t, exec (.matrixRequest c) s = .next t ∧
      (t.core c).mq = rest ∧ (t.core c).mdone = old.mdone ++ [{ m with fault := true }] ∧ (t.core c).acc = old.acc ∧
      t.mem = s.mem ∧ (s.hasLaunch m.lid = true → (t.launch m.lid).faulted = true))

/-- R204, R208, R214 to R217, R219, R220, R222, R223: what the requests leave in the accumulators and in scratch: the multiplies the
aligned chunk sums of their products, or for FP64 one fused step for each k; a scan its recurrence by the fixed tree, its last step
in row 0; a load the bytes of scratch, a store the bytes of the accumulator or their BF16 values. -/
def Sys2Proof.Claims.MatrixRequestsLeaveTheirValues : Prop :=
  ∀ (c : Nat) (s : State) (m : MReq) (rest : List MReq), c < 2048 → (s.core c).mq = m :: rest → m.d < 8 →
    let old := s.core c
    let gives := fun (f : State → Prop) => ∃ t, exec (.matrixRequest c) s = .next t ∧ (t.core c).mq = rest ∧
      (t.core c).mdone = old.mdone ++ [m] ∧ t.mem = s.mem ∧ f t
    let others := fun (t : State) => (t.core c).scr = old.scr ∧ ∀ n < 8, n ≠ m.d → ∀ i < 1024, accElem (t.core c) n false i = accElem old n false i
    (m.form ∈ [MForm.mma, .mmag, .mmas, .mmaF32] → allFit s c m → (m.form = .mmag → m.rows.length = 32) →
      (m.form = .mmas → m.budget.length = 32 ∧ ∀ n ∈ m.budget, n.toNat ≤ 32) → gives fun t => others t ∧
      ∀ i < 32, ∀ j < 32, accElem (t.core c) m.d false (32 * i + j) = mulOut s c m i j (accElem old m.d false (32 * i + j))) ∧
    (m.form = .mmaF64 → (∀ q ∈ m.tiles, (s.localAddr c q.1).isSome) → gives fun t => others t ∧
      ∀ i < 16, ∀ j < 32, accElem (t.core c) m.d true (32 * i + j) =
        (List.range (32 * m.chunks)).foldl (fun x k => (fmtF64.fma .rne (f64At s c (m.a.tile 0 (k / 32)) 4096 (32 * i + k % 32))
          (f64At s c (m.b.tile (k / 32) 0) 8192 (32 * (k % 32) + j)) x).1) (accElem old m.d true (32 * i + j))) ∧
    (m.form = .mscan → (∀ q ∈ m.tiles, (s.localAddr c q.1).isSome) → recordFits s c m.a.fmt (m.a.tile 0 0) →
      recordFits s c m.b.fmt (m.b.tile 0 0) → gives fun t => others t ∧
      let steps := bits m.t 36 32 + 1
      ∀ j < 32,
        let pair := fun n => (if bitOf m.t n then 0 else (toF32 (tileElem s c m.a.fmt (m.a.tile 0 0) (32 * n + j))).1,
          (toF32 (tileElem s c m.b.fmt (m.b.tile 0 0) (32 * n + j))).1)
        (∀ n < steps, accElem (t.core c) m.d false (32 * ((n + 1) % steps) + j) =
          (fmtF32.fma .rne (scanPair pair 5 n).1 (accElem old m.d false j) (scanPair pair 5 n).2).1) ∧
        ∀ i < 32, steps ≤ i → accElem (t.core c) m.d false (32 * i + j) = accElem old m.d false (32 * i + j)) ∧
    (m.form = .accLd → m.ty ∈ [Ty.f64, .f32] → ∀ d o, s.localAddr c m.addr = some (d, o) → let len := m.n * (if m.ty = .f64 then 256 else 128)
      len ≤ 4096 → gives fun t => others t ∧ ∀ j < 4096,
        mget 0 (t.core c).acc (4096 * m.d + j) = if j < len then mget 0 (s.core d).scr (o + j) else mget 0 old.acc (4096 * m.d + j)) ∧
    (m.form = .accSt → ∀ d o, s.localAddr c m.addr = some (d, o) → noneDeferred s → o % 64 = 0 → 1 ≤ m.n → m.n ≤ 32 → m.ty ∈ [Ty.f64, .f32, .bf16] →
      let len := m.n * (if m.ty = .f64 then 256 else if m.ty = .bf16 then 64 else 128)
      gives fun t => (t.core c).acc = old.acc ∧ keepsOutside s t d o len ∧ (∀ j < len / 8, (t.core d).full (o / 8 + j) = true) ∧
        (m.ty ≠ .bf16 → ∀ j < len, mget 0 (t.core d).scr (o + j) = mget 0 old.acc (4096 * m.d + j)) ∧
        (m.ty = .bf16 → ∀ i < 32 * m.n, leNat (bytesAt t d (o + 2 * i) 2) = (fpToFp fmtF32 fmtBf16 .rne (accElem old m.d false i)).1 % 2 ^ 16))

/-- R203, R212, R232: the completion of the oldest request carried out: without a slot it only leaves the list, with one it
applies a signal of one to that slot of the request's frame, at the slack of the instruction's urgency, or holds that signal
while what its threadlet's earlier fences wait for is outstanding. -/
def Sys2Proof.Claims.MatrixRequestsComplete : Prop :=
  ∀ (c : Nat) (s : State) (m : MReq) (rest : List MReq), c < 2048 → (s.core c).mdone = m :: rest →
    let s1 := (s.modCore c fun x => { x with mdone := rest }).settle c m.id
    (m.slot = none → exec (.matrixRequestComplete c) s = .next s1) ∧
    (∀ w, m.slot = some w → fpMalformed (s1.core c) m.fp = false → (s1.core c).lids.contains ((s1.core c).dir (fpUnit m.fp)).lid →
      (s1.launch ((s1.core c).dir (fpUnit m.fp)).lid).sid = m.sid → ((s1.core c).dir (fpUnit m.fp)).alloc = true →
      ((s1.core c).dir (fpUnit m.fp)).gen = fpGen m.fp → ((s1.core c).dir (fpUnit m.fp)).reserved = false →
      (∀ o ∈ (s1.core c).ni.outs, o.id ∉ m.wait) → ∃ q : Packet, q.src = ⟨s.pkg, BitVec.ofNat 11 c, 0⟩ ∧ q.sid = m.sid ∧ q.lid = m.lid ∧ q.fault = m.fault ∧
        q.slack = slackOf (s1.env c) m.p.urg ∧ exec (.matrixRequestComplete c) s = .next (s1.applySig c m.fp w 1 .none q)) ∧
    (∀ w, m.slot = some w → (∃ o ∈ (s1.core c).ni.outs, o.id ∈ m.wait) →
      ∃ t h, exec (.matrixRequestComplete c) s = .next t ∧ (t.core c).ni.held = (s1.core c).ni.held ++ [h] ∧
        h.pkt.body = .sig m.fp w 1 .none ∧ h.pkt.dst = fpNode m.fp ∧ h.pkt.fault = m.fault ∧
        (∀ i, i ∈ h.wait ↔ i ∈ m.wait ∧ ∃ o ∈ (s1.core c).ni.outs, o.id = i) ∧ (t.core c).scr = (s.core c).scr)

/-- The matrix unit carries out its requests in order and signals them. -/
def Obligations.MatrixUnitCarriesOutRequests : Prop := Claims.MatrixUnitCarriesOutRequests ∧ Claims.MatrixRequestsLeaveTheirValues ∧ Claims.MatrixRequestsComplete

/-- R84: what each base instruction of a loader or storer core does, at 4 bytes, or at 2 where it was fetched compressed:
registers (x0 stays 0), the pc, loads from either store, stores to the data store, and the stream faults of a bad access,
`ecall` and an `ebreak` that no debugger armed; one that it armed stops the core and tells the owner (R340; the notice's number
is log 14's). -/
def Obligations.BaseInstructionsOfTheLoader : Prop :=
  ∀ (w : RvWord) (i : RvInstr) (n : Nat) (d a b : XReg) (imm : BitVec 12) (up : BitVec 20) (sh : BitVec 6) (shw : BitVec 5)
    (s : State), (w = .full i ∧ n = 4 ∨ ∃ h, w = .comp h i ∧ n = 2) →
    let c := (lsHere s).1
    let st := (lsHere s).2
    let l := s.ls c st
    let next := l.pc + BitVec.ofNat 64 n
    let goes := fun (l' : LsCore) => exec (.rv64imcInstruction w) s = .next (s.setLs c st l')
    let sets := fun (v : Word) => goes { l.wx d v with pc := next }
    let ea := l.rx a + imm.signExtend 64
    let low := fun (r : XReg) => (l.rx r).setWidth 32
    (∀ p ∈ rvOps, i = .op p.1 d a b → sets (p.2 (l.rx a) (l.rx b))) ∧
    (∀ p ∈ rvOpWs, i = .opw p.1 d a b → sets ((p.2 (low a) (low b)).signExtend 64)) ∧
    (∀ p ∈ rvImms, i = .imm p.1 d a imm → sets (p.2 (l.rx a) (imm.signExtend 64))) ∧
    (∀ p ∈ rvShifts, i = .sh p.1 d a sh → sets (p.2 (l.rx a) sh.toNat)) ∧
    (∀ p ∈ rvShiftWs, i = .shw p.1 d a shw → sets ((p.2 (low a) shw.toNat).signExtend 64)) ∧
    (i = .addiw d a imm → sets ((low a + imm.signExtend 32).signExtend 64)) ∧
    (i = .lui d up → sets ((up ++ 0#12).signExtend 64)) ∧
    (i = .auipc d up → sets (l.pc + (up ++ 0#12).signExtend 64)) ∧
    (i = .jal d up → goes { l.wx d next with pc := l.pc + (up ++ 0#1).signExtend 64 }) ∧
    (i = .jalr d a imm → goes { l.wx d next with pc := ea &&& ~~~1#64 }) ∧
    (∀ p ∈ rvBranches, i = .br p.1 a b imm →
      goes { l with pc := if p.2 (l.rx a) (l.rx b) then l.pc + (imm ++ 0#1).signExtend 64 else next }) ∧
    (∀ p ∈ rvLoads, i = .load p.1 d a imm →
      (ea.toNat % p.2.1 = 0 → ea.toNat + p.2.1 ≤ 0x4000 →
        sets (p.2.2 (leNat ((List.range p.2.1).map fun k => mget 0 l.imem (ea.toNat + k))))) ∧
      (ea.toNat % p.2.1 = 0 → 0x4000 ≤ ea.toNat → ea.toNat + p.2.1 ≤ 0x6000 →
        sets (p.2.2 (leNat ((List.range p.2.1).map fun k => mget 0 l.dmem (ea.toNat - 0x4000 + k))))) ∧
      ((ea.toNat % p.2.1 ≠ 0 ∨ 0x6000 < ea.toNat + p.2.1) →
        exec (.rv64imcInstruction w) s = .next (streamStop s c st 2))) ∧
    (∀ p ∈ rvStores, i = .store p.1 a b imm →
      (ea.toNat % p.2 = 0 → 0x4000 ≤ ea.toNat → ea.toNat + p.2 ≤ 0x6000 →
        ∃ m, goes { l with pc := next, dmem := m } ∧ ∀ k, mget 0 m k =
          if ea.toNat - 0x4000 ≤ k ∧ k < ea.toNat - 0x4000 + p.2
          then (l.rx b).extractLsb' (8 * (k - (ea.toNat - 0x4000))) 8 else mget 0 l.dmem k) ∧
      ((ea.toNat % p.2 ≠ 0 ∨ ea.toNat < 0x4000 ∨ 0x6000 < ea.toNat + p.2) →
        exec (.rv64imcInstruction w) s = .next (streamStop s c st 2))) ∧
    (i = .fence d a imm → goes { l with pc := next }) ∧
    (i = .ecall → exec (.rv64imcInstruction w) s = .next (streamStop s c st 1)) ∧
    (i = .ebreak → s.debugged (s.env c).lid = true → bitOf s.dist.dbgCtl 59 = true →
      exec (.rv64imcInstruction w) s = .next ((s.setLs c st { l with running := false, halted := true }).stopNote c
        (mget 0 (s.core c).ifps (s.env c).lid.toNat) false 5)) ∧
    (i = .ebreak → (s.debugged (s.env c).lid = false ∨ bitOf s.dist.dbgCtl 59 = false) →
      exec (.rv64imcInstruction w) s = .next (streamStop s c st 1))

/-- R96 to R102, R104: the custom forms of a loader or storer core in its turn, none of its channels faulted. -/
def Obligations.CustomFormsOfTheLoader : Prop :=
  ∀ (d a b : XReg) (i : BitVec 12) (s : State),
    let c := (lsHere s).1
    let st := (lsHere s).2
    let l := s.ls c st
    let va := l.rx a
    let vb := l.rx b
    lsQuiet s c st →
    (∀ u ∈ lsChans st, va.toNat = u → let ch := (s.core c).chan u
      (ch.busy = false ∨ vb.toNat ≤ ch.count.toNat → exec (.cpWait d a b) s = .next (lsDone s c st d ch.status)) ∧
      (ch.busy = true → ch.count.toNat < vb.toNat → exec (.cpWait d a b) s = .next (lsWaits s c st (.cpWait d a b))) ∧
      exec (.cpStat d a) s = .next (lsDone s c st d ch.status)) ∧
    (va.toNat ∉ lsChans st → exec (.cpWait d a b) s = .next (streamStop s c st 3) ∧
      exec (.cpStat d a) s = .next (streamStop s c st 3)) ∧
    (vb.extractLsb' 24 40 = 0 → vb.extractLsb' 0 8 ≠ 0 → ∀ sc, scopeOfCode (vb.extractLsb' 17 3) = some sc →
      exec (.lsSig a b) s = .next (lsDone (s.post (s.lsWho c) ⟨va.extractLsb' 46 18, va.extractLsb' 35 11, 0⟩
        (slackOf (s.env c) (vb.extractLsb' 20 4)) (s.lsUnacked c sc)
        (.sig va (vb.extractLsb' 8 9).toNat (vb.extractLsb' 0 8).toNat .none)) c st 0 0)) ∧
    (i.toNat < 18 → exec (.lsRid d i) s = .next (lsDone s c st d (identity s (s.env c) c i.toNat
      (mget 0 (s.core c).ifps (s.env c).lid.toNat) (if st then 1 else 0) 0))) ∧
    (l.faulted = false → exec .lsEnd s = .next ((lsDone s c st 0 0).setLs c st
      { (lsDone s c st 0 0).ls c st with running := false, ended := true })) ∧
    (ringFits s c va vb →
      let seen := s.touchRing c va.toNat vb.toNat
      (s.slotTag c va.toNat vb.toNat = (acquires s c va).1 →
        exec (.stgAcq d a b) s = .next (lsDone (seen.setSlotTag c va.toNat vb.toNat (acquires s c va).2) c st d (slotAt s c va vb)) ∧
        exec (.stgTry d a b) s = .next (lsDone (seen.setSlotTag c va.toNat vb.toNat (acquires s c va).2) c st d (slotAt s c va vb))) ∧
      (s.slotTag c va.toNat vb.toNat ≠ (acquires s c va).1 →
        exec (.stgAcq d a b) s = .next (lsWaits seen c st (.stgAcq d a b)) ∧
        exec (.stgTry d a b) s = .next (lsDone seen c st d 0xffffffffffffffff#64)) ∧
      exec (.stgRd d a b) s = .next (lsDone seen c st d (BitVec.ofNat 64 (s.slotTag c va.toNat vb.toNat)))) ∧
    (¬ringFits s c va vb → exec (.stgAcq d a b) s = .next (streamStop s c st 3) ∧
      exec (.stgTry d a b) s = .next (streamStop s c st 3) ∧ exec (.stgRd d a b) s = .next (streamStop s c st 3)) ∧
    (i.toNat < 3 → exec (.epRd d a i) s = .next (lsDone s c st d ((s.env c).endpoint va.toNat i.toNat))) ∧
    (va.toNat % 8 = 0 → va.toNat < 0x100000 →
      ((s.core c).permits (s.env c).sid va.toNat 8 false = true →
        exec (.lsLdw d a b) s = .next (lsDone (s.touchAt c va.toNat 8) c st d
          (bytesWord ((List.range 8).map fun k => mget 0 (s.core c).scr (va.toNat + k))))) ∧
      ((s.core c).permits (s.env c).sid va.toNat 8 true = true →
        exec (.lsStw a b) s = .next (lsDone (s.scrWrite c va.toNat ((wordBytes vb).map some) false) c st 0 0))) ∧
    ((va.toNat % 8 ≠ 0 ∨ 0x100000 ≤ va.toNat) → exec (.lsLdw d a b) s = .next (streamStop s c st 2) ∧
      exec (.lsStw a b) s = .next (streamStop s c st 2))

/-- R88, R93, R97: `cp.go` on a descriptor that passes every check starts the lowest idle channel of its core's set, with
COUNT 0 and the transfer's format register, and answers its number; a slot of a ring that has no count yet gets one at 0.
With every channel busy it waits; a descriptor off the data store or a multiple of 8 is a stream fault of cause 2. The checks'
order past R88's list is log 28's, and that a form that waited has them made again, on its descriptor as it is then, log 54's. -/
def Sys2Proof.Claims.CpGoStartsTheLowestIdleChannel : Prop :=
  ∀ (d a : XReg) (s : State), lsQuiet s (lsHere s).1 (lsHere s).2 → GoesOn (.cpGo d a) s (lsHere s).1 (lsHere s).2 d a

/-- R97, R100: a form that waited completes when its event finds its condition met, as it would in its core's turn: a `cp.go`
with its checks made again on its descriptor as it is then, which R97 leaves open (log 54). -/
def Sys2Proof.Claims.WaitingFormsResume : Prop :=
  ∀ (c : Nat) (st : Bool) (d a b : XReg) (s : State), lsQuiet s c st →
    let l := s.ls c st
    let va := l.rx a
    let vb := l.rx b
    (held s c st (.cpWait d a b) → ∀ u ∈ lsChans st, va.toNat = u →
      (((s.core c).chan u).busy = false ∨ vb.toNat ≤ ((s.core c).chan u).count.toNat →
        exec (.cpWaitResume c st) s = .next (lsDone s c st d ((s.core c).chan u).status))) ∧
    (held s c st (.stgAcq d a b) → ringFits s c va vb → s.slotTag c va.toNat vb.toNat = (acquires s c va).1 →
      exec (.stgAcqResume c st) s =
        .next (lsDone ((s.touchRing c va.toNat vb.toNat).setSlotTag c va.toNat vb.toNat (acquires s c va).2) c st d
          (slotAt s c va vb))) ∧
    (held s c st (.cpGo d a) → GoesOn (.cpGoChannelStart c st) s c st d a)

/-- A transfer starts on the lowest idle channel and a waiting form resumes once its condition holds. -/
def Obligations.ChannelsStartAndWaitingFormsResume : Prop := Claims.CpGoStartsTheLowestIdleChannel ∧ Claims.WaitingFormsResume

/-- R86, R89: the engine issues the next beat of its only busy channel: at most 64 bytes, up to a 64-byte boundary of the
destination, counting as outstanding of its own (R98); of a converting transfer the next 64 bytes of the tile under way (how
a beat is cut, and which lines of the source it reads, is log 29's). -/
def Sys2Proof.Claims.BeatsIssueInTurn : Prop :=
  ∀ (c u : Nat) (s : State), c < 2048 → u < 8 → (s.core c).stopped = false → (s.core c).copyQ = [] →
    let x := ((s.core c).chan u).x
    let n := min (64 - (x.dst.toNat + x.issued) % 64) (x.len - x.issued)
    let beat := fun (t : State) (d : Word) (m id : Nat) =>
      ∃ o ∈ (t.core c).ni.outs, o.id = id ∧ o.beat = true ∧ o.isWrite = true ∧ o.addr = d ∧ o.len = m
    (∀ v < 8, ((s.core c).chan v).busy = true ↔ v = u) → x.stopped = false → x.issued < x.len → x.srcEp = false →
    (∀ q ∈ x.pieces, q.id ≤ s.nextId) →
    (x.conv ≠ 0 → ∀ q, x.pieces.find? (fun p => p.sent < p.dLen) = some q →
      (∀ k < q.sLen, s.badAddr (q.src + BitVec.ofNat 64 k) = false) →
      let m := min 64 (q.dLen - q.sent)
      ∃ t id, exec (.copyBeatIssue c) s = .next t ∧ ((t.core c).chan u).x.issued = x.issued + m ∧
        ((t.core c).chan u).x.pieces = x.pieces.map (fun p =>
          if p.id = q.id then { p with sent := p.sent + m, beats := p.beats ++ [(q.sent / 64, id)] } else p) ∧
        ((t.core c).chan u).x.count = x.count ∧ beat t (q.dst + BitVec.ofNat 64 q.sent) m id) ∧
    (x.conv = 0 → x.dstEp = false → x.ring = none → (∀ q ∈ x.pieces, q.dLen ≤ q.sent) →
    (∀ k < n, s.badAddr (x.src + BitVec.ofNat 64 x.issued + BitVec.ofNat 64 k) = false) →
    ∃ t, exec (.copyBeatIssue c) s = .next t ∧ ((t.core c).chan u).x.issued = x.issued + n ∧
      ((t.core c).chan u).x.count = x.count ∧ ((t.core c).chan u).busy = true ∧
      ∃ p id, ((t.core c).chan u).x.pieces = x.pieces ++ [p] ∧ p.src = x.src + BitVec.ofNat 64 x.issued ∧
        p.dst = x.dst + BitVec.ofNat 64 x.issued ∧ p.dLen = n ∧ p.need = n ∧ p.sent = n ∧ p.left = n ∧ p.beats = [(0, id)] ∧
        beat t p.dst n id)

/-- R86: eight channels and the compute queue take their turns: of those with a beat to issue, the first from the turn's place on
issues one, the turn passes behind it, and no other transfer moves; the queue's turn is that of its first copy with beats left. -/
def Sys2Proof.Claims.UnitsTakeTurns : Prop :=
  ∀ (c e k : Nat) (s : State), c < 2048 → k < 9 → e < 9 → (s.core c).stopped = false → (s.core c).engPtr = e →
    let x := s.core c
    let left := fun (t : Xfer) => !t.stopped && t.issued < t.len
    let ready := fun j => if j < 8 then (x.chan j).busy else x.copyQ.any left
    let size := fun (t : Xfer) => min (64 - (t.dst.toNat + t.issued) % 64) (t.len - t.issued)
    let plain := fun (t : Xfer) => t.conv = 0 ∧ t.srcEp = false ∧ t.dstEp = false ∧ t.ring = none ∧ (∀ q ∈ t.pieces, q.dLen ≤ q.sent) ∧
      ∀ j < size t, s.badAddr (t.src + BitVec.ofNat 64 t.issued + BitVec.ofNat 64 j) = false
    (∀ v < 8, (x.chan v).busy = true → left (x.chan v).x = true) → ready k = true →
    (∀ j < 9, ready j = true → (k + 9 - e) % 9 ≤ (j + 9 - e) % 9) →
    (k < 8 → plain (x.chan k).x → ∃ t, exec (.copyBeatIssue c) s = .next t ∧ (t.core c).engPtr = (k + 1) % 9 ∧
      ((t.core c).chan k).x.issued = (x.chan k).x.issued + size (x.chan k).x ∧
      (∀ v < 8, v ≠ k → (t.core c).chan v = x.chan v) ∧ (t.core c).copyQ = x.copyQ) ∧
    (k = 8 → (x.copyQ.map (·.id)).Nodup → ∀ y, x.copyQ.find? left = some y → plain y → ∃ t, exec (.copyBeatIssue c) s = .next t ∧
      (t.core c).engPtr = 0 ∧ (∀ v < 8, (t.core c).chan v = x.chan v) ∧
      ((t.core c).copyQ.map fun q => (q.id, q.issued)) = x.copyQ.map fun q => (q.id, if q.id = y.id then q.issued + size y else q.issued))

/-- R89, R98, R325: an acknowledged beat advances COUNT by its bytes and is outstanding no more, and a channel with nothing left to
issue or under way goes idle. A reply to a piece that is no more, as of a launch that has ended, is stale. -/
def Sys2Proof.Claims.AcknowledgedBeatsCount : Prop :=
  ∀ (c u q off n : Nat) (s : State) (p : Packet) (rest : List Packet) (fired : Option (BitVec 32 × Nat)), c < 2048 → u < 8 →
    let ch := (s.core c).chan u
    (s.core c).first isEngReply = some (p, rest) → p.body = .ack (.engWrite u q off n) fired →
    ((∀ k ∈ ch.x.pieces, k.id ≠ q) → exec (.copyBeatComplete c) s = .next ((s.modCore c fun x => x.took rest).settle c p.id)) ∧
    ((∃ k ∈ ch.x.pieces, k.id = q) → p.fault = false → ch.x.ring = none →
    ∃ t, exec (.copyBeatComplete c) s = .next t ∧ (t.core c).inq = rest ∧
      ((t.core c).chan u).x.count = ch.x.count + n ∧ ((t.core c).chan u).count = BitVec.ofNat 25 (ch.x.count + n) ∧
      (∀ k, ch.x.pieces.find? (fun p => p.id = q) = some k → ∀ b ∈ k.beats, b.1 = off / 64 →
        ∀ o ∈ (t.core c).ni.outs, o.id ≠ b.2) ∧
      (ch.x.stopped = true ∨ ch.x.len ≤ ch.x.issued → (∃ k, ch.x.pieces = [k] ∧ k.id = q ∧ k.left = n) →
        ((t.core c).chan u).busy = false ∧ ((t.core c).chan u).x.pieces = []) ∧
      ((∃ k ∈ ch.x.pieces, k.id ≠ q) ∨ (ch.x.stopped = false ∧ ch.x.issued < ch.x.len) →
        ((t.core c).chan u).busy = ch.busy))

/-- The copy engine issues beats in turn and counts acknowledged ones. -/
def Obligations.BeatsIssueAndCount : Prop := Claims.BeatsIssueInTurn ∧ Claims.UnitsTakeTurns ∧ Claims.AcknowledgedBeatsCount

/-- R29, R241, R371: a bound context with no block in progress, at a line the core holds that is well formed and decodes,
begins that block at its head with its own registers; a line's format and decode traps come before a bad position or loop
stack (R33), which raise the control trap at that head (log 21), as does a loop line outside the loop on top of the stack, or a
transfer or new position still to be checked that fails (log 57); at a line of the segment the core does not hold it asks the
line's slice for it; a position past the segment raises the control trap, and a malformed line the line-format trap. -/
def Sys2Proof.Claims.BlocksBeginAtTheirPosition : Prop :=
  ∀ (c k : Nat) (s : State), c < 2048 → k < 16 →
    let x := s.ctx c k
    let l := s.launch x.lid
    let n := posLine x
    x.bound = true → x.work.active = false → l.phase ≠ .ending → (s.core c).park = false → noDebugger s →
    (n < l.clen →
      (∀ img, s.lineAt c x.lid n = some img → lineOk img = true → decodeTrap l.priv (lineDecode img) 0 = none →
        posHead x < (lineHdr img).h → loopsOk x.regs.depth.toNat x.regs.l0 x.regs.l1 = true →
        let kind := (lineHdr img).kind
        let top := if x.regs.depth = 1 then x.regs.l0 else x.regs.l1
        let enters := (kind = 1 → x.regs.depth ≠ 0 ∧ top.first.toNat ≤ n ∧ n ≤ top.last.toNat) ∧
          (x.owed = .transfer → (enterLine n kind x.regs.loops).isSome = true) ∧ (x.owed = .resume → kind = 2)
        (enters → exec (.blockExecute c k) s = .next (s.setCtx c k { x with pass := false, owed := .no, work :=
          { active := true, line := n, image := img, k := posHead x, regs := x.regs } })) ∧
        (¬enters → exec (.blockExecute c k) s = .next (s.takeTrap c k { cls := .control } (posHead x)))) ∧
      (∀ img, s.lineAt c x.lid n = some img → lineOk img = false →
        exec (.blockExecute c k) s = .next (s.takeTrap c k { cls := .lineFormat } 31)) ∧
      (∀ img, s.lineAt c x.lid n = some img → lineOk img = true → decodeTrap l.priv (lineDecode img) 0 = none →
        (lineHdr img).h ≤ posHead x ∨ loopsOk x.regs.depth.toNat x.regs.l0 x.regs.l1 = false →
        exec (.blockExecute c k) s = .next (s.takeTrap c k { cls := .control } (posHead x))) ∧
      (∀ img j t, s.lineAt c x.lid n = some img → lineOk img = true →
        decodeTrap l.priv (lineDecode img) 0 = some (j, t) →
        exec (.blockExecute c k) s = .next (s.takeTrap c k { cls := t } j)) ∧
      (s.lineAt c x.lid n = none →
        exec (.blockExecute c k) s = .next (s.fetchLine c x.lid n) ∧
        exec (.lineFetch c k) s = .next (s.fetchLine c x.lid n))) ∧
    (l.clen ≤ n → exec (.blockExecute c k) s = .next (s.takeTrap c k { cls := .control } (posHead x)))

/-- R371: a line fetched for a resident launch enters the core's line store and is asked for no more. -/
def Sys2Proof.Claims.FetchedLinesEnterTheStore : Prop :=
  ∀ (c : Nat) (s s1 : State) (p : Packet) (bs : List Byte) (lid : BitVec 32) (n : Nat),
    Arrives s c isLineReply p s1 → p.body = .data bs (.line lid n) → (s.core c).lids.contains lid = true →
    ∃ t, exec (.lineFetchArrival c) s = .next t ∧ t.lineAt c lid n = some (bytesLine bs) ∧
      lid.toNat * 2 ^ 27 + n ∉ (t.core c).lineReq ∧ ∀ o ∈ (t.core c).ni.outs, o.id ≠ p.id

/-- A block begins at its context’s position once its line is fetched. -/
def Obligations.BlocksBeginAndFetchTheirLine : Prop := Claims.BlocksBeginAtTheirPosition ∧ Claims.FetchedLinesEnterTheStore

/-- R29, R30: a block with no action but stores and register writes commits whole: the context has the working copy's
registers and stands at the next line, or at the start of its innermost loop while iterations remain, and every byte of
every core's scratch reads as the block's loads would have read it last. -/
def Sys2Proof.Claims.BlocksCommitTheirWorkingCopyAndStores : Prop :=
  ∀ (c k : Nat) (s : State), c < 2048 → k < 16 → (s.ctx c k).bound = true →
    let x := s.ctx c k
    let w := x.work
    let l := s.launch x.lid
    let n := w.line + 1
    let top := if w.regs.depth = 1 then w.regs.l0 else w.regs.l1
    let commits := fun (line : Nat) (r : Regs) => ∃ t, exec (.blockCommit c k) s = .next t ∧ goesOn s c k line r t ∧
      ∀ d o, mget 0 (t.core d).scr o = w.byteAt d o (mget 0 (s.core d).scr o)
    w.active = true → w.acts = [] → w.seen = [] → w.ctl = .fall → (s.core c).park = false → noDebugger s → noneDeferred s →
    (s.core c).copyQ.length ≤ 8 → (s.core c).mq.length ≤ 8 → (s.core c).ni.enqBuf.length ≤ 16 →
    (w.regs.depth = 0 → n < l.clen → ∀ img, s.lineAt c x.lid n = some img → (lineHdr img).kind ≠ 1 →
      commits n (w.regs.setLoops [])) ∧
    (w.regs.depth = 1 ∨ w.regs.depth = 2 → top.last.toNat = w.line → 1 < top.rem.toNat → top.first.toNat < l.clen →
      commits top.first.toNat (w.regs.setLoops ((w.regs.loops.take (w.regs.depth.toNat - 1)) ++
        [{ top with rem := top.rem - 1 }])))

/-- R31, R258 to R265: at the commit of a block without actions its control outcome takes effect: a taken jump, a loop's entry behind
its push, or the fall to the next line, to a line of the kind that the loops left allow (R264), else the control trap of its head;
and the close of an iteration by `next`, or by the fall from the last line of the innermost body (R265). -/
def Sys2Proof.Claims.ControlOutcomesTakeEffect : Prop :=
  ∀ (c k : Nat) (s : State), Ready s c k →
    let x := s.ctx c k
    let w := x.work
    let n := (s.launch x.lid).clen
    let head := if w.ctl = .fall then (lineHdr w.image).h - 1 else w.ctlHead
    let goes := fun (line : Nat) (l : List LoopEnt) => ∃ t, exec (.blockCommit c k) s = .next t ∧ goesOn s c k line (w.regs.setLoops l) t ∧
      ∀ d o, mget 0 (t.core d).scr o = w.byteAt d o (mget 0 (s.core d).scr o)
    let traps := trapsAt s c k head { cls := .control }
    let atLast := w.regs.loops.getLast?.map (·.last.toNat) = some w.line
    w.acts = [] →
    (∀ t l, (w.ctl = .jump t ∧ l = w.regs.loops ∨ (∃ push, w.ctl = .loopIn t push ∧ l = w.regs.loops ++ push.toList ∧ l.length ≤ 2) ∨
        w.ctl = .fall ∧ ¬atLast ∧ t = w.line + 1 ∧ l = w.regs.loops) →
      (n ≤ t → traps) ∧
      (t < n → s.lineAt c x.lid t = none → (s.core c).frozen = false →
        exec (.blockCommit c k) s = .next ({ s with cur := ⟨c, k⟩ }.fetchLine c x.lid t)) ∧
      (t < n → ∀ img, s.lineAt c x.lid t = some img →
        let inLoop := loopsAt t l ≠ []
        ((lineHdr img).kind = 1 ↔ inLoop) → goes t (loopsAt t l)) ∧
      (t < n → ∀ img, s.lineAt c x.lid t = some img → ¬((lineHdr img).kind = 1 ↔ loopsAt t l ≠ []) → traps)) ∧
    (w.regs.loops ≠ [] → (∀ e ∈ w.regs.loops, e.rem ≠ 0) → (w.ctl = .next ∨ w.ctl = .fall ∧ atLast) →
      let r := closes w.regs.loops.reverse
      if r.1 < n then goes r.1 r.2.reverse else traps)

/-- R30, R134, R150, R171, R172, R205, R206, R243, R266, R269, R270, R278, R279: what each kind of action does in place at the commit
of its block: arming, the owner words, frames freed, pinned and unpinned, stage tags, entries removed, system, counter and format
registers; or the trap of its head, with nothing done. That an `fpin` waits for its frame is R270's. -/
def Sys2Proof.Claims.ActionsTakeEffect : Prop :=
  ∀ (c k j n m p : Nat) (e : BitVec 32) (f v : Word) (s : State) (a : Act), ReadyWith s c k j a →
    let x := s.ctx c k
    let old := s.core c
    let u := fpUnit x.fp
    let does := commitsTo s c k
    let traps := fun (t : TrapClass) => trapsAt s c k j { cls := t }
    let slot := frameWord s c u n
    let count := (slot.extractLsb' 48 16).toInt
    (a = .arm n m e p → p < 4 →
      (slot.extractLsb' 32 13 ≠ 0 ∨ bitOf slot 47 = true ∧ m ≠ 0 ∨ bitOf slot 47 = false ∧ (count + m < 0 ∨ 32767 < count + m) →
        traps .frame) ∧
      (slot.extractLsb' 32 13 = 0 → bitOf slot 47 = true → m = 0 → does fun t => frameWord t c u n = slotOfFields count true p e ∧
        (t.core c).ready = old.ready) ∧
      (slot.extractLsb' 32 13 = 0 → bitOf slot 47 = false → 0 ≤ count + m → count + m ≤ 32767 →
        (count + m ≠ 0 → does fun t => frameWord t c u n = slotOfFields (count + m) true p e ∧ (t.core c).ready = old.ready) ∧
        (count + m = 0 → old.tokens.length < 256 → does fun t => frameWord t c u n = slotOfFields 0 false p e ∧
          mget [] (t.core c).ready p = mget [] old.ready p ++ [{ fp := s.residentFp c u, pos := e, since := s.acyc }]))) ∧
    (let own := mget 0 old.owner n
     let mine := holderWord x.fp
     let owns := fun (v : Word) => does fun t => ∀ i, mget 0 (t.core c).owner i = if i = n then v else mget 0 old.owner i
     (a = .accGet n → (bitOf own 63 = true → own ≠ mine → traps .accumulator) ∧ ((bitOf own 63 = false ∨ own = mine) → owns mine)) ∧
     (a = .accGive n → (own ≠ mine → traps .accumulator) ∧ (own = mine → owns 0)) ∧
     (a = .accUse n → (own ≠ mine → traps .accumulator) ∧ (own = mine → owns own))) ∧
    (let d := old.dir (fpUnit f)
     let here := homeHere s c f ∧ d.alloc = true ∧ d.gen = fpGen f
     let spilled := homeHere s c f ∧ d.spilled = true ∧ d.sgen = fpGen f
     let others := (∃ q ∈ old.tokens ++ old.hold, sameFrame q.fp f = true) ∨ (∃ q ∈ old.tfps, sameFrame q.2 f = true) ∨
       ∃ i < 16, i ≠ k ∧ (s.ctx c i).bound = true ∧ sameFrame (s.ctx c i).fp f = true
     let holder := ∃ i < 8, mget 0 old.owner i = holderWord f
     (a = .ffree f →
       (¬(here ∨ spilled) ∨ others ∨ sameFrame f x.fp = true → traps .frame) ∧
       (here → ¬others → sameFrame f x.fp = false → holder → traps .accumulator) ∧
       (here → ¬spilled → ¬others → sameFrame f x.fp = false → ¬holder → (∀ r ∈ old.fr.refills, sameFrame r.fp f = false) → does fun t =>
         ((t.core c).dir (fpUnit f)).alloc = false ∧ ((t.core c).dir (fpUnit f)).pin = false ∧ ((t.core c).dir (fpUnit f)).gen = d.gen + 1 ∧
           (d.reserved = false → d.refill = false → mget [] (t.core c).fr.free d.cls.toNat = fpUnit f :: mget [] old.fr.free d.cls.toNat)) ∧
       (spilled → ¬here → ¬others → sameFrame f x.fp = false → d.refill = false → (∀ r ∈ old.fr.refills, sameFrame r.fp f = false) →
         does fun t => ((t.core c).dir (fpUnit f)).spilled = false ∧ (t.core c).fr.free = old.fr.free)) ∧
     (a = .fpin f ∨ a = .funpin f → ¬(here ∨ spilled) → traps .frame) ∧
     (a = .fpin f → here → ¬spilled → d.reserved = false → does fun t => ((t.core c).dir (fpUnit f)).pin = true) ∧
     (a = .fpin f → spilled → (∀ r ∈ old.fr.refills, sameFrame r.fp f = false) → ∃ t r, exec (.blockCommit c k) s = .next t ∧
       t.ctx c k = x ∧ (t.core c).fr.refills = old.fr.refills ++ [r] ∧ r.forPin = true ∧ sameFrame r.fp f = true) ∧
     (a = .funpin f → here → does fun t => ((t.core c).dir (fpUnit f)).pin = false)) ∧
    (∀ claim, a = .stage claim f v →
      let need := if bitOf ((s.core c).scrWord f.toNat) 63 then (if claim then (0, 1) else (1, 2)) else if claim then (2, 3) else (3, 0)
      (¬ringFits s c f v ∨ s.slotTag c f.toNat v.toNat ≠ need.1 → f.toNat < 0x100000 → trapsAt s c k j { cls := .stage, addr := f }) ∧
      (ringFits s c f v → s.slotTag c f.toNat v.toNat = need.1 → does fun t => t.slotTag c f.toNat v.toNat = need.2)) ∧
    (a = .sysw n v → s.hasLaunch x.lid = true → does fun t => (t.launch x.lid).lhang =
      if n = 10 ∧ 16 ≤ v.toNat ∧ v.toNat ≤ 31 then v.toNat else (s.launch x.lid).lhang) ∧
    (a = .ctrCfg n v → does fun t => ∀ i, mget 0 (t.core c).ctrCfg i = if i = n then v &&& 0x80ffffff else mget 0 old.ctrCfg i) ∧
    (a = .fmtSet n v → does fun t => ∀ i, mget 0 (t.core c).fmt i = if i = n then v else mget 0 old.fmt i) ∧
    (∀ q pm fr, a = .deq q n m pm fr → old.ni.fences = [] →
      let d := s.queue c q
      let o := 64 * u + 8 * n
      let from_ := leNat (bytesAt s c (d.sender d.head) 4)
      (q + 64 ≤ o ∨ o + 8 * m ≤ q) → does fun t => (t.queue c q).head = (d.head + 1) % 65536 ∧ (t.queue c q).tail = d.tail ∧
        bytesAt t c o (8 * m) = bytesAt s c (d.entry d.head) (8 * m) ∧
        Sends s t c ⟨BitVec.ofNat 18 (from_ / 2048), BitVec.ofNat 11 from_, 0⟩
          fun y => y.body = .credit (baseOf s.pkg c + BitVec.ofNat 64 q))

/-- R30, R150, R155, R158, R169, R203, R267, R271: what each kind of action sends or hands over at the commit of its block: a `put` its
word, once that is full; signals, spawns and messages their packet; `enq` its entry, with a credit, else into the buffer, a queue's
first behind the read of its RES; copies and matrix requests their place in their queue, for which the block waits while it is
full. -/
def Sys2Proof.Claims.ActionsLeaveTheCore : Prop :=
  ∀ (c k j w n : Nat) (f q : Word) (urg : BitVec 4) (args : List Word) (p : PktMod) (sf : SlotField) (s : State) (a : Act),
    let x := s.ctx c k
    let old := s.core c
    let o := 64 * fpUnit x.fp + 8 * w
    let does := commitsTo s c k
    let sends := fun (dst : Node) (b : Body) => does fun t => Sends s t c dst fun y => y.body = b ∧ y.lid = x.lid ∧ y.thr = x.thr
    (ReadyWith s c k j a → old.ni.fences = [] →
      (∀ ty, a = .put q w ty p sf → s.badAddr q = false →
        (old.full (o / 8) = false → trapsAt s c k j { cls := .emptyWord, addr := BitVec.ofNat 64 w }) ∧
        (old.full (o / 8) = true → does fun t => (t.core c).scr = old.scr ∧ ∃ r, (t.core c).ni.outs = old.ni.outs ++ [r] ∧ r.addr = q ∧
          r.isWrite = true ∧ r.thr = x.thr ∧ r.lid = x.lid)) ∧
      (∀ d, a = .sig f urg w n d none → sends ⟨fpPkg f, f.extractLsb' 35 11, 0⟩ (.sig f w n d)) ∧
      (∀ cls pr e, a = .spawn n args urg cls pr e → sends ⟨s.pkg, BitVec.ofNat 11 n, 0⟩ (.spawn args cls pr e x.fp)) ∧
      (∀ pr e, a = .amsg n q args pr p e → sends ⟨s.pkg, BitVec.ofNat 11 n, 0⟩ (.amsg q args pr e x.fp)) ∧
      (a = .enq q args p none sf.fresh → s.badAddr q = false → old.ni.enqBuf = [] → old.ni.held = [] →
        (∀ m r, old.ni.credits = [⟨q, some (m + 1), r⟩] → does fun t => (t.core c).ni.credits = [⟨q, some m, r⟩] ∧
          (t.core c).ni.enqBuf = [] ∧ ∃ y, (t.router c).merge = (s.router c).merge ++ [(0, y)] ∧ y.body = .entry q args x.fp none) ∧
        (∀ r, old.ni.credits = [⟨q, some 0, r⟩] → does fun t => (t.router c).merge = (s.router c).merge ∧
          (t.core c).ni.enqBuf.map (fun e => (e.q, e.pkt.body)) = [(q, .entry q args x.fp none)]) ∧
        (old.ni.credits = [] → does fun t => (t.core c).ni.credits = [⟨q, none, 0⟩] ∧
          (t.core c).ni.enqBuf.map (fun e => (e.q, e.pkt.body)) = [(q, .entry q args x.fp none)] ∧
          ∃ y, (t.router c).merge = (s.router c).merge ++ [(0, y)] ∧ y.body = .read q 64 .data (.qdesc q))) ∧
      (a = .copy f q n p sf → n ≠ 0 → does fun t => ∃ y, (t.core c).copyQ = old.copyQ ++ [y] ∧ y.dst = f ∧ y.src = q ∧ y.len = n ∧
        y.fp = x.fp ∧ y.slot = slotOf sf) ∧
      (∀ m, a = .matrix m → does fun t => ∃ id, (t.core c).mq = old.mq ++ [{ m with id := id, wait := [] }])) ∧
    (∀ m, a = .matrix m → (s.ctx c k).work.acts = [(j, a)] → (s.ctx c k).work.stores = [] → x.work.seen = [] → x.work.ctl = .endT →
      c < 2048 → k < 16 → x.work.active = true → old.mq.length = 8 → old.copyQ.length ≤ 8 → old.ni.enqBuf.length ≤ 16 →
      exec (.blockCommit c k) s = .next { s with cur := ⟨c, k⟩ })

/-- A commit takes the working copy, its stores, its actions and its control outcome. -/
def Obligations.BlocksCommitTheirWorkingCopy : Prop := Claims.BlocksCommitTheirWorkingCopyAndStores ∧ Claims.ControlOutcomesTakeEffect ∧ Claims.ActionsTakeEffect ∧ Claims.ActionsLeaveTheCore

/-- R30, R150, R249: at the commit of a block that ends its threadlet, `get` sends one read of its address and empties its
destination word, and the context is free; nothing of it happens before. -/
def Sys2Proof.Claims.ThreadletEndsAndItsReadLeaves : Prop :=
  ∀ (c k j w : Nat) (a : Word) (ty : Ty) (p : PktMod) (sf : SlotField) (s : State), c < 2048 → k < 16 →
    let x := s.ctx c k
    let o := 64 * fpUnit x.fp + 8 * w
    x.bound = true → x.handler = false → x.work.active = true → x.work.stores = [] → x.work.ctl = .endT →
    x.work.acts = [(j, .get a w ty p sf)] → x.work.seen = [] → noneDeferred s → s.badAddr a = false →
    (s.core c).ni.enqBuf.length ≤ 16 →
    (s.core c).copyQ.length ≤ 8 → (s.core c).mq.length ≤ 8 →
    ∃ t, exec (.blockCommit c k) s = .next t ∧ t.ctx c k = {} ∧ (t.core c).full (o / 8) = false ∧
      ∃ r, (t.core c).ni.outs = (s.core c).ni.outs ++ [r] ∧ r.addr = a ∧ r.isWrite = false ∧ r.thr = x.thr ∧ r.lid = x.lid

/-- R34, R246 to R248: the head of the highest class that has waited an A-cycle binds to the lowest-numbered free context:
its frame and position, and every register 0; one token an A-cycle, and none while packets that a thawed core's inbox held are
still to be delivered (R335). Promotion moves a token that has waited
4,096 A-cycles to the tail of the next class. -/
def Sys2Proof.Claims.TokensBindAndArePromoted : Prop :=
  ∀ (c : Nat) (s : State), c < 2048 →
    (∀ (k pr : Nat) (tk : Token) (rest : List Token), (s.core c).stopped = false → (s.core c).bindAt ≠ some s.acyc →
      (s.core c).due = 0 →
      k < 16 → (s.ctx c k).bound = false → (∀ j < k, (s.ctx c j).bound = true) →
      pr < 4 → mget [] (s.core c).ready pr = tk :: rest → tk.since < s.acyc →
      (∀ q, pr < q → q < 4 → ∀ y ∈ (mget [] (s.core c).ready q).head?, s.acyc ≤ y.since) →
      (s.launch ((s.core c).dir (fpUnit tk.fp)).lid).phase ≠ .ending →
      tk.kind = .plain ∨ tk.kind = .handler →
      ∃ t, exec (.tokenBind c) s = .next t ∧ mget [] (t.core c).ready pr = rest ∧
        (t.ctx c k).bound = true ∧ (t.ctx c k).fp = tk.fp ∧ (t.ctx c k).pos = tk.pos ∧ (t.ctx c k).regs = {} ∧
        (t.ctx c k).lid = ((s.core c).dir (fpUnit tk.fp)).lid ∧ ((t.ctx c k).handler = true ↔ tk.kind = .handler) ∧
        ∀ j, j ≠ k → t.ctx c j = s.ctx c j) ∧
    ((s.core c).stopped = true ∨ (s.core c).bindAt = some s.acyc ∨ (s.core c).due ≠ 0 → exec (.tokenBind c) s = .next s) ∧
    (∃ t, exec (.tokenPromotion c) s = .next t ∧
      (∀ p < 4, mget [] (t.core c).ready p =
        (mget [] (s.core c).ready p).filter (fun y => p = 3 ∨ s.acyc < y.since + 4096) ++
          if p = 0 then [] else ((mget [] (s.core c).ready (p - 1)).filter fun y => y.since + 4096 ≤ s.acyc).map
            fun y => { y with since := s.acyc }) ∧
      t.mem = s.mem ∧ (t.core c).ctxs = (s.core c).ctxs)

/-- A threadlet ends at its commit, tokens are promoted by age and bind to the first free context. -/
def Obligations.TokensBindAndThreadletsEnd : Prop := Claims.ThreadletEndsAndItsReadLeaves ∧ Claims.TokensBindAndArePromoted

/-- R322, R323: taking a trap at head n of a block that reserved no frame: with a class-3 frame on the free list, that frame
holds the record of the context as it stood at the start of its block, the context is free, and the launch's trap token on
that frame is the last of class 3. Where a `tresume` at a lower head stands over a record that fails, that head's control trap
is the one taken (R33, R277; log 21). -/
def Sys2Proof.Claims.TrapsLeaveTheirRecord : Prop :=
  ∀ (g : Guard) (code : Half) (s : State) (u : Nat) (rest : List Nat), s.work.regs.on g = true →
    let c := s.cur.core
    let k := s.cur.unit
    let x := s.me
    let d := (s.core c).dir u
    let gen := if d.spilled = true ∧ d.sgen = d.gen + 1 then d.gen + 2 else d.gen + 1
    let f := mkFp s.pkg c u gen 3
    s.work.acts = [] → x.handler = false → (s.env c).counts.getD 3 0 ≠ 0 → mget [] (s.core c).fr.free 3 = u :: rest →
    d.cls = 3 → d.alloc = false → d.reserved = false → noneDeferred s → (s.core c).tokens.length < 256 → noDebugger s →
    fpUnit f = u → s.work.k < 256 →
    (∀ p, s.work.ctl = .resume p → s.work.stores = [] →
      loopsOk (bits (frameWord s c (fpUnit x.fp) 3) 1 0) (wordLoop (frameWord s c (fpUnit x.fp) 4) (frameWord s c (fpUnit x.fp) 5))
        (wordLoop (frameWord s c (fpUnit x.fp) 6) (frameWord s c (fpUnit x.fp) 7)) = false →
      exec (.trap g code) s = .next (s.takeTrap c k { cls := .control } s.work.ctlHead)) ∧
    ((∀ p, s.work.ctl ≠ .resume p) → ∃ t, exec (.trap g code) s = .next t ∧ t.ctx c k = {} ∧
      (∀ n < 192, frameWord t c u n = recordWord x k { cls := .software, code := code } s.work.k n) ∧
      (∃ tk, mget [] (t.core c).ready 3 = mget [] (s.core c).ready 3 ++ [tk] ∧ tk.fp = f ∧ tk.pos = s.myLaunch.trapPos ∧
        tk.kind = .handler) ∧
      (f, x.fp) ∈ (t.core c).tfps ∧ t.mem = s.mem)

/-- R277, R323: the return from a trap. At the commit of a block whose control head is `tresume` with no position, the
context takes the registers, the loop stack, the frame and the position from the words of its record frame, is no handler
any more, and the record frame is free; a record with a bad loop stack, as the block's stores leave it, raises the control
trap at that head (log 21). -/
def Sys2Proof.Claims.ResumeRestoresTheRecord : Prop :=
  ∀ (c k : Nat) (s : State), c < 2048 → k < 16 →
    let x := s.ctx c k
    let u := fpUnit x.fp
    let word := fun n => frameWord s c u n
    let ok := loopsOk (bits (word 3) 1 0) (wordLoop (word 4) (word 5)) (wordLoop (word 6) (word 7))
    x.bound = true → x.work.active = true → x.work.acts = [] → x.work.stores = [] → x.work.seen = [] → x.work.ctl = .resume none →
    (s.core c).ni.enqBuf.length ≤ 16 →
    (ok = false → exec (.blockCommit c k) s =
      .next ({ s with cur := ⟨c, k⟩ }.takeTrap c k { cls := .control } x.work.ctlHead)) ∧
    (ok = true → (s.core c).park = false → noDebugger s → (s.core c).copyQ.length ≤ 8 → (s.core c).mq.length ≤ 8 →
    ∃ t, exec (.blockCommit c k) s = .next t ∧
      (∀ n : XReg, (t.ctx c k).regs.rx n = if n = 0 then 0 else word (16 + n.toNat)) ∧
      (∀ (n : VReg) (j : Nat), j < 8 → ((t.ctx c k).regs.rv n).extractLsb' (64 * j) 64 = word (64 + 8 * n.toNat + j)) ∧
      (∀ n : QReg, (t.ctx c k).regs.rq n =
        if n = 0 then 0xffff else (word (9 + n.toNat / 4)).extractLsb' (16 * (n.toNat % 4)) 16) ∧
      (t.ctx c k).regs.cf = (word 8).extractLsb' 0 7 ∧ (t.ctx c k).regs.depth = (word 3).extractLsb' 0 2 ∧
      (t.ctx c k).fp = word 1 ∧ (t.ctx c k).pos = (word 0).extractLsb' 32 32 ∧ (t.ctx c k).handler = false ∧
      ((t.core c).dir u).alloc = false ∧ ((t.core c).dir u).gen = ((s.core c).dir u).gen + 1)

/-- A trap leaves its record in a class-3 frame and tresume restores it. -/
def Obligations.TrapsLeaveTheirRecordAndResume : Prop := Claims.TrapsLeaveTheirRecord ∧ Claims.ResumeRestoresTheRecord

/-- R243, R244: a signal packet of count n, w being any word, also one past the frame's (log 50), on a slot word of a resident frame: it counts down; at zero on an armed slot it
clears ARMED and queues the token of the frame that stands there at the slot's class; below zero on an armed slot it is an OVERSHOOT, on a
malformed word a SLOT fault, and below −32,768 an UNDERFLOW: recorded, the word unchanged. -/
def Sys2Proof.Claims.SignalsCountAndFire : Prop :=
  ∀ (c w n : Nat) (f : Word) (s s1 : State) (p : Packet), Arrives s c isSig p s1 → p.body = .sig f w n .none →
    p.src.port ≠ 2 → resident s1 c f p → n ≠ 0 → noneDeferred s → noDebugger s →
    let u := fpUnit f
    let v := frameWord s c u w
    let count := (v.extractLsb' 48 16).toInt
    let armed := bitOf v 47
    let go := exec (.framePacketArrival c) s
    let faults := fun kind => go = .next (s1.packetRecord p (mkRec kind 0 p.sid ((s.core c).dir u).lid ⟨s.pkg, BitVec.ofNat 11 c, 0⟩ f
      (BitVec.ofNat 64 (p.src.pkg.toNat * 2 ^ 46 + p.src.core.toNat * 2 ^ 35 + n * 2 ^ 9 + w))))
    (v.extractLsb' 32 13 ≠ 0 → faults 20) ∧
    (v.extractLsb' 32 13 = 0 →
      (armed = true → count < n → faults 18) ∧
      (armed = false → count - n < -32768 → faults 19) ∧
      ((armed = true ∧ n < count) ∨ (armed = false ∧ -32768 ≤ count - n) → ∃ t, go = .next t ∧
        frameWord t c u w = withCount v (count - n) ∧ (t.core c).ready = (s.core c).ready) ∧
      (armed = true → count = n → (s.core c).tokens.length < 256 → ∃ t, go = .next t ∧ frameWord t c u w = firedWord v ∧
        let pr := (v.extractLsb' 45 2).toNat
        mget [] (t.core c).ready pr = mget [] (s.core c).ready pr ++
          [{ fp := s.residentFp c u, pos := v.extractLsb' 0 32, since := s.acyc }]))

/-- R123, R151, R267: a frame-addressed packet at its home, its words not bounded by the frame's (log 50). A word of data is written with F := 1 and its pointer mark; a
packet for a frame that is reserved waits; a malformed or stale pointer is a STALE fault, recorded, that changes no scratch. -/
def Sys2Proof.Claims.FramePacketsFindTheirFrame : Prop :=
  ∀ (c w k : Nat) (f v : Word) (m : Bool) (s s1 : State) (p : Packet), Arrives s c isSig p s1 →
    p.body = .sig f w 0 (.word k v m) → p.src.port ≠ 2 → noneDeferred s →
    let u := fpUnit f
    let d := (s.core c).dir u
    (resident s1 c f p → ∃ t, exec (.framePacketArrival c) s = .next t ∧ frameWord t c u k = v ∧
      (t.core c).full (8 * u + k) = true ∧ (t.core c).isPtr (8 * u + k) = m ∧
      ∀ o, o < 64 * u + 8 * k ∨ 64 * u + 8 * k + 8 ≤ o → mget 0 (t.core c).scr o = mget 0 (s.core c).scr o) ∧
    (fpMalformed (s.core c) f = false → (s.core c).lids.contains d.lid = true → (s.launch d.lid).sid = p.sid →
      d.alloc = true → d.gen = fpGen f → d.reserved = true → ∃ t, exec (.framePacketArrival c) s = .next t ∧
        (t.core c).fr.heldPkts = (s.core c).fr.heldPkts ++ [(u, p)] ∧ (t.core c).scr = (s.core c).scr) ∧
    (fpMalformed (s.core c) f = true → ∃ t, exec (.framePacketArrival c) s = .next t ∧
      (t.core c).scr = (s.core c).scr ∧ ∃ r, t.io.recIn = s.io.recIn ++ [r] ∧ bits r.w0 63 56 = 11)

/-- Signals count a slot down and fire it, and packets find their resident frame. -/
def Obligations.SignalsCountAndFindTheirFrame : Prop := Claims.SignalsCountAndFire ∧ Claims.FramePacketsFindTheirFrame

/-- R82, R155, R161 to R164: a granted request at its bank. A read answers with the bytes; a write and a `red` of each type it
has change the addressed bytes and are acknowledged; an atomic of 64 or 32 bits answers with the old value and `csnap` with the
block it clears; a request the protection unit does not grant changes nothing, is recorded and ends fatal. -/
def Sys2Proof.Claims.BanksServeGrantedRequests : Prop :=
  ∀ (c : Nat) (s s1 : State) (p : Packet) (k : Cont), Arrives s c isBankReq p s1 → noneDeferred s →
    let word := fun (a : Word) => (s.core c).scrWord (addrOff a)
    (∀ a n kd, p.body = .read a n kd k → Granted s c p a n true false →
      ∃ t, exec (.bankRequest c) s = .next t ∧ Replies s t p (.data ((List.range n).map fun j => mget 0 (s.core c).scr (addrOff a + j)) k) ∧
        (t.core c).scr = (s.core c).scr) ∧
    (∀ a (bs : List Byte), p.body = .write a (bs.map some) k → Granted s c p a bs.length false true →
      ∃ t, exec (.bankRequest c) s = .next t ∧ Replies s t p (.ack k none) ∧
        (∀ j < bs.length, mget 0 (t.core c).scr (addrOff a + j) = bs.getD j 0) ∧ keepsOutside s t c (addrOff a) bs.length) ∧
    (∀ a v cmp, Granted s c p a 8 true true → addrOff a % 8 = 0 → ∀ ty ∈ [Ty.s64, Ty.z64],
      (∀ op ∈ atomics 64 (ty = .s64), p.body = .amo op.1 ty a v cmp k → ∃ t, exec (.bankRequest c) s = .next t ∧
        Replies s t p (.data (wordBytes (word a)) k) ∧ (t.core c).scrWord (addrOff a) = op.2 (word a) v ∧
          keepsOutside s t c (addrOff a) 8) ∧
      (p.body = .amo .cas ty a v cmp k → ∃ t, exec (.bankRequest c) s = .next t ∧
        Replies s t p (.data (wordBytes (word a)) k) ∧
          (t.core c).scrWord (addrOff a) = (if word a = cmp then v else word a) ∧ keepsOutside s t c (addrOff a) 8)) ∧
    (∀ a v cmp, Granted s c p a 4 true true → addrOff a % 4 = 0 → ∀ ty ∈ [Ty.s32, Ty.z32],
      let old := BitVec.ofNat 32 (leNat (bytesAt s c (addrOff a) 4))
      let f := fun (x : State) => (x.core c).full (addrOff a / 8)
      let leaves := fun (new : BitVec 32) (written : Bool) => ∃ t, exec (.bankRequest c) s = .next t ∧
        Replies s t p (.data (bytesAt s c (addrOff a) 4) k) ∧ bytesAt t c (addrOff a) 4 = natLe 4 new.toNat ∧
          keepsOutside s t c (addrOff a) 4 ∧ f t = (written || f s)
      (∀ op ∈ atomics 32 (ty = .s32), p.body = .amo op.1 ty a v cmp k → leaves (op.2 old (v.setWidth 32)) true) ∧
      (p.body = .amo .cas ty a v cmp k → leaves (if old = cmp.setWidth 32 then v.setWidth 32 else old) (old = cmp.setWidth 32))) ∧
    (∀ op ty a v rg, p.body = .red op ty a v rg k → ty ∈ redTypes op →
      let n := Ty.width ty
      Granted s c p a n true true → addrOff a % n = 0 → ∃ t, exec (.bankRequest c) s = .next t ∧ Replies s t p (.ack k none) ∧
        bytesAt t c (addrOff a) n =
          natLe n (reduceOp op ty 64 (leNat (bytesAt s c (addrOff a) n)) (v.toNat % 2 ^ (8 * n))).1 ∧
        keepsOutside s t c (addrOff a) n ∧ (t.core c).full (addrOff a / 8) = true) ∧
    (∀ a, p.body = .csnap a k → Granted s c p a 64 true true → addrOff a % 64 = 0 → ∃ t, exec (.bankRequest c) s = .next t ∧
      Replies s t p (.data ((List.range 64).map fun j => mget 0 (s.core c).scr (addrOff a + j)) k) ∧
        (∀ j < 64, mget 0 (t.core c).scr (addrOff a + j) = 0) ∧ keepsOutside s t c (addrOff a) 64) ∧
    (∀ a n kd, p.body = .read a n kd k → ¬Granted s c p a n true false → exec (.bankRequest c) s = .next (s1.addressRefusal p))

/-- R114 to R116, R161: the full/empty operations at a bank: `ldfe` of a full word answers with it and empties it, `stef` of
an empty word fills it, `tagf` and `tage` set the tag; an `ldfe` of an empty word and a `stef` of a full one wait in the
word's order while their bank has room for them. -/
def Sys2Proof.Claims.FullEmptyRequestsWaitForTheirTag : Prop :=
  ∀ (c : Nat) (s s1 : State) (p : Packet) (k : Cont) (op : FeOp) (a v : Word), Arrives s c isBankReq p s1 → noneDeferred s →
    p.body = .fe op a v k → Granted s c p a 8 true true → addrOff a % 8 = 0 →
    let w := addrOff a / 8
    let full := (s.core c).full w
    (op = .ldfe → full = true → ∃ t, exec (.bankRequest c) s = .next t ∧ (t.core c).full w = false ∧
      Replies s t p (.data (wordBytes ((s.core c).scrWord (addrOff a))) k)) ∧
    (op = .stef → full = false → ∃ t, exec (.bankRequest c) s = .next t ∧ (t.core c).full w = true ∧
      (t.core c).scrWord (addrOff a) = v ∧ Replies s t p (.ack k none)) ∧
    (op = .tagf ∨ op = .tage → ∃ t, exec (.bankRequest c) s = .next t ∧ ((t.core c).full w = true ↔ op = .tagf) ∧
      (t.core c).scr = (s.core c).scr ∧ Replies s t p (.ack k none)) ∧
    (op = .ldfe ∧ full = false ∨ op = .stef ∧ full = true → ∃ t, exec (.bankRequest c) s = .next t ∧
      (t.core c).defer = [{ off := addrOff a, pkt := p }] ∧ (t.core c).scr = (s.core c).scr ∧ (t.core c).full w = full)

/-- R82, R155: the event of a core's banks completes in every state of a core the package has. With no request in its
queue nothing happens; else the first request leaves the queue, and a granted read of it is answered with the bytes it
names, a granted write is made, and one that the protection unit does not grant is refused. -/
def Sys2Proof.Claims.BankRequestsComplete : Prop :=
  ∀ (c : Nat) (s : State), c < 2048 →
    (∃ t, exec (.bankRequest c) s = .next t) ∧
    ((∀ p ∈ (s.core c).inq, isBankReq p = false) → exec (.bankRequest c) s = .next s) ∧
    (∀ (p : Packet) (rest : List Packet) (a : Word) (k : Cont), (s.core c).inq = p :: rest →
      (∀ n kd, p.body = .read a n kd k → Granted s c p a n true false → addrOff a < 0x100000 →
        ∃ t, exec (.bankRequest c) s = .next t ∧ (t.core c).inq = rest ∧ (t.core c).scr = (s.core c).scr ∧
          Replies s t p (.data ((List.range n).map fun j => mget 0 (s.core c).scr (addrOff a + j)) k)) ∧
      (∀ bs : List Byte, p.body = .write a (bs.map some) k → Granted s c p a bs.length false true → addrOff a < 0x100000 →
        noneDeferred s → ∃ t, exec (.bankRequest c) s = .next t ∧ (t.core c).inq = rest ∧
          (∀ j < bs.length, mget 0 (t.core c).scr (addrOff a + j) = bs.getD j 0) ∧ keepsOutside s t c (addrOff a) bs.length) ∧
      (∀ n kd, p.body = .read a n kd k → ¬Granted s c p a n true false → addrOff a < 0x100000 →
        exec (.bankRequest c) s = .next ((s.modCore c fun x => x.took rest).addressRefusal p)))

/-- Banks serve granted requests, atomics and full/empty requests. -/
def Obligations.BanksServeRequests : Prop := Claims.BanksServeGrantedRequests ∧ Claims.FullEmptyRequestsWaitForTheirTag ∧ Claims.BankRequestsComplete

/-- R111, R115, R122, R151: a refused bank access arbitrates again in the next A-cycle, at most 63 times in a row, and holds
its context, or its engine or queue of packets, until then; a returned full/empty request is sent again; a reply completes its request, its data in the frame word it names, extended by
its type; a spill write acknowledged is outstanding no more. -/
def Sys2Proof.Claims.RepliesAndRetriesComplete : Prop :=
  ∀ (c : Nat) (s s1 : State) (p : Packet),
    (∀ k < 16, c < 2048 → (s.ctx c k).work.active = true → (s.ctx c k).replayAt ≠ some s.acyc →
      (mget 0 (s.core c).replays k < 63 → ∃ t, exec (.bankReplay c k) s = .next t ∧
        mget 0 (t.core c).replays k = mget 0 (s.core c).replays k + 1 ∧ t.ctx c k = { s.ctx c k with replayAt := some s.acyc } ∧
        (∀ j, j ≠ k → t.ctx c j = s.ctx c j) ∧ (t.core c).scr = (s.core c).scr) ∧
      (63 ≤ mget 0 (s.core c).replays k → exec (.bankReplay c k) s = .next s)) ∧
    (∀ k sid, 16 ≤ k → k < 21 → c < 2048 → s.unitAccess c k = some sid → mget 0 (s.core c).replayedAt k ≠ s.acyc + 1 →
      (mget 0 (s.core c).replays k < 63 → ∃ t, exec (.bankReplay c k) s = .next t ∧
        mget 0 (t.core c).replays k = mget 0 (s.core c).replays k + 1 ∧ (t.core c).unitFree s.acyc k = false ∧
        (t.core c).ctxs = (s.core c).ctxs ∧ (t.core c).scr = (s.core c).scr) ∧
      (63 ≤ mget 0 (s.core c).replays k → exec (.bankReplay c k) s = .next s)) ∧
    (∀ r rest, c < 2048 → (s.core c).ni.retry = r :: rest → isFe r.pkt = true → r.due ≤ s.acyc →
      ∃ t, exec (.feRetry c) s = .next t ∧ (t.core c).ni.retry = rest ∧
        (t.router (mergePort r.pkt.src r.pkt.dst).1).merge =
          (s.router (mergePort r.pkt.src r.pkt.dst).1).merge ++ [((mergePort r.pkt.src r.pkt.dst).2, r.pkt)]) ∧
    (Arrives s c isReply p s1 → ∀ bs f w ty, p.body = .data bs (.word f w ty none) → p.fault = false → noneDeferred s →
      resident s1 c f p → ∃ t, exec (.replyDelivery c) s = .next t ∧ frameWord t c (fpUnit f) w = extendTy ty bs ∧
        (t.core c).full (8 * fpUnit f + w) = true ∧ (∀ o ∈ (t.core c).ni.outs, o.id ≠ p.id)) ∧
    (Arrives s c isSpillAck p s1 → ∀ u fired, p.body = .ack (.spill u) fired → (s.core c).ni.held = [] →
      ∃ t, exec (.spillAcknowledged c) s = .next t ∧ p.id ∉ mget [] (t.core c).fr.spills u ∧
        (∀ o ∈ (t.core c).ni.outs, o.id ≠ p.id) ∧ (t.core c).scr = (s.core c).scr)

/-- R123, R124, R243, R269: a refill. A request for a frame that its location neither holds nor has spilled is stale; another starts at once where its location holds no frame, and asks for the frame's bytes and tags; the
bytes reach the buffer of the refill; with all of them there and the location free, the frame is resident again under its
generation, with the bytes of its record, and its token is queued. -/
def Sys2Proof.Claims.RefillsBringTheirFrameBack : Prop :=
  ∀ (c : Nat) (s s1 : State) (p : Packet), noneDeferred s →
    (∀ f e pr w, Arrives s c isRefill p s1 → p.body = .refill f e pr w → (s.core c).fr.refills = [] →
      let d := (s.core c).dir (fpUnit f)
      fpMalformed (s.core c) f = false → (s.core c).lids.contains d.lid = true → (s.launch d.lid).sid = p.sid →
      (¬(d.alloc = true ∧ d.gen = fpGen f) → ¬(d.spilled = true ∧ d.sgen = fpGen f) →
        ∃ t, exec (.refillRequest c) s = .next t ∧ (t.core c).fr.refills = [] ∧ Records s t 11 ∧
          (t.core c).fr.announced = (s.core c).fr.announced.erase p.lid ∧ (t.core c).scr = (s.core c).scr) ∧
      (d.alloc = false → d.reserved = false → d.refill = false → d.spilled = true → d.sgen = fpGen f →
      mget 0 (s.core c).fr.fwds (fpUnit f) = 0 →
      ∃ t r, exec (.refillRequest c) s = .next t ∧ (t.core c).fr.refills = [r] ∧ r.fp = f ∧ r.entry = e ∧ r.prio = pr ∧ r.word = w ∧
        r.reading = true ∧ r.need = frameSize d.cls.toNat + frameSize d.cls.toNat / 32 ∧
        ((t.core c).dir (fpUnit f)).refill = true)) ∧
    (∀ u off bs r, Arrives s c isRefillData p s1 → p.body = .data bs (.refill u off) → p.fault = false →
      (s.core c).fr.refills = [r] → r.u = u → r.lid = p.lid → r.reading = true →
      ∃ t q, exec (.refillReadComplete c) s = .next t ∧ (t.core c).fr.refills = [q] ∧ q.need = r.need - bs.length ∧
        ∀ j < bs.length, mget 0 q.buf (off + j) = bs.getD j 0) ∧
    (∀ r, c < 2048 → (s.core c).fr.refills = [r] → r.reading = true → r.need = 0 → r.forPin = false → (s.core c).fr.heldPkts = [] → noDebugger s →
      let d := (s.core c).dir r.u
      d.alloc = false → (s.core c).tokens.length < 256 →
      ∃ t, exec (.refillInstall c) s = .next t ∧ (t.core c).fr.refills = [] ∧ ((t.core c).dir r.u).alloc = true ∧
        ((t.core c).dir r.u).gen = fpGen r.fp ∧ ((t.core c).dir r.u).refill = false ∧ ((t.core c).dir r.u).spilled = false ∧
        (∀ j < frameSize d.cls.toNat, mget 0 (t.core c).scr (64 * r.u + j) = mget 0 r.buf j) ∧
        ∃ tk, mget [] (t.core c).ready r.prio = mget [] (s.core c).ready r.prio ++ [tk] ∧
          tk.fp = mkFp s.pkg c r.u (fpGen r.fp) d.cls.toNat ∧ tk.pos = r.entry)

/-- Replies complete the request they belong to and a refill brings its frame back. -/
def Obligations.RepliesAndRefillsComplete : Prop := Claims.RepliesAndRetriesComplete ∧ Claims.RefillsBringTheirFrameBack

/-- R158, R271: an active message takes a class-0 frame and a spawn one of its class, fills it with the arguments, the
message's address and the sender's frame, and queues the token; with no frame to take it is tried again 64 A-cycles later,
and the retry does the same. -/
def Sys2Proof.Claims.MessagesAndSpawnsStartTokens : Prop :=
  ∀ (c : Nat) (s s1 : State) (p : Packet) (args : List Word) (e : BitVec 32) (a fr f : Word) (pr cls : Nat),
    args.length ≤ 6 → (s.core c).tokens.length < 256 → noneDeferred s →
    (Arrives s c isAmsg p s1 → p.body = .amsg a args pr e fr → NextFrame s c 0 f → ∃ t, exec (.amsgArrival c) s = .next t ∧
      Started s t c pr f e (argWords args ++ [(6, a), (7, fr)])) ∧
    (Arrives s c isSpawn p s1 → p.body = .spawn args cls pr e fr → NextFrame s c cls f → ∃ t, exec (.spawnArrival c) s = .next t ∧
      Started s t c pr f e (argWords args ++ [(7, fr)])) ∧
    (Arrives s c isAmsg p s1 → p.body = .amsg a args pr e fr → s1.chooseFrame c 0 = none → ∃ t,
      exec (.amsgArrival c) s = .next t ∧ (t.core c).ni.retry = (s.core c).ni.retry ++ [⟨p, s.acyc + 64⟩] ∧
        (t.core c).ready = (s.core c).ready) ∧
    (Arrives s c isSpawn p s1 → p.body = .spawn args cls pr e fr → s1.chooseFrame c cls = none → ∃ t,
      exec (.spawnArrival c) s = .next t ∧ (t.core c).ni.retry = (s.core c).ni.retry ++ [⟨p, s.acyc + 64⟩] ∧
        (t.core c).ready = (s.core c).ready) ∧
    (∀ due, c < 2048 → (s.core c).ni.retry = [⟨p, due⟩] → due ≤ s.acyc →
      (p.body = .amsg a args pr e fr → NextFrame s c 0 f → ∃ t, exec (.amsgRetry c) s = .next t ∧
        Started s t c pr f e (argWords args ++ [(6, a), (7, fr)]) ∧ (t.core c).ni.retry = []) ∧
      (p.body = .spawn args cls pr e fr → NextFrame s c cls f → ∃ t, exec (.spawnRetry c) s = .next t ∧
        Started s t c pr f e (argWords args ++ [(7, fr)]) ∧ (t.core c).ni.retry = []))

/-- R169 to R171: an entry that arrives at a queue with room goes to the place its TAIL names, with its sender beside it, and
TAIL advances; an entry of another size, or for a queue that is not valid or is full, is a QUEUE fault and changes no
scratch. A credit that returns is counted, and a waiting entry leaves once there is a credit. -/
def Sys2Proof.Claims.QueueEntriesAndCredits : Prop :=
  ∀ (c : Nat) (s s1 : State) (p : Packet) (q f : Word) (ws : List Word), noneDeferred s →
    let off := addrOff q
    let d := s.queue c off
    let size := 8 * 2 ^ d.esz
    (Arrives s c isEntry p s1 → p.body = .entry q ws f none → off + 64 ≤ 0x100000 →
      (d.valid = true → 8 * ws.length = size → d.used < d.n → d.nfp = 0 → d.entry d.tail + size ≤ 0x100000 →
        d.sender d.tail + 4 ≤ 0x100000 → (s.core c).permits p.sid off 64 true = true →
        (s.core c).permits p.sid (d.entry d.tail) size true = true → (s.core c).permits p.sid (d.sender d.tail) 4 true = true →
        (off + 64 ≤ d.entry 0 ∨ d.sender 0 + 4 * d.n ≤ off) →
        ∃ t, exec (.enqEntryArrival c) s = .next t ∧ (t.queue c off).tail = (d.tail + 1) % 65536 ∧
          (t.queue c off).head = d.head ∧ (∀ j < ws.length, (t.core c).scrWord (d.entry d.tail + 8 * j) = ws.getD j 0) ∧
          leNat (bytesAt t c (d.sender d.tail) 4) = 2048 * p.src.pkg.toNat + p.src.core.toNat) ∧
      (d.valid = false ∨ 8 * ws.length ≠ size ∨ d.used = d.n → ∃ t, exec (.enqEntryArrival c) s = .next t ∧
        (t.core c).scr = (s.core c).scr ∧ ∃ r, t.io.recIn = s.io.recIn ++ [r] ∧ bits r.w0 63 56 = 12)) ∧
    (∀ r k, Arrives s c isCredit p s1 → p.body = .credit q → (s.core c).ni.credits = [⟨q, some k, r⟩] →
      ∃ t, exec (.creditArrival c) s = .next t ∧ (t.core c).ni.credits = [⟨q, some (k + 1), r⟩]) ∧
    (∀ r k e, c < 2048 → (s.core c).ni.credits = [⟨q, some (k + 1), r⟩] → (s.core c).ni.enqBuf = [e] → e.q = q →
      (s.core c).ni.held = [] → (∀ o ∈ (s.core c).ni.outs, o.id ∉ e.wait) → ∃ t, exec (.enqBufferRelease c) s = .next t ∧ (t.core c).ni.enqBuf = [] ∧
        (t.core c).ni.credits = [⟨q, some k, r⟩] ∧
        (t.router (mergePort e.pkt.src e.pkt.dst).1).merge =
          (s.router (mergePort e.pkt.src e.pkt.dst).1).merge ++ [((mergePort e.pkt.src e.pkt.dst).2, e.pkt)])

/-- Messages and spawns start tokens, queue entries take their place and credits return. -/
def Obligations.MessagesAndQueueEntriesArrive : Prop := Claims.MessagesAndSpawnsStartTokens ∧ Claims.QueueEntriesAndCredits

/-- R61, R165 to R167, R274: a packet held by a fence leaves once nothing it waits for is outstanding, and one to a reduction
region likewise; a barrier counts its arrivals at its corner, sends nothing before the last of them, answers every core of its
sub-rectangle at that one, with its count back at none, and each core then signals its slot. -/
def Obligations.HeldPacketsAndBarriers : Prop :=
  ∀ (c : Nat) (s s1 : State) (p : Packet),
    (∀ h, c < 2048 → (s.core c).ni.held = [h] → (∀ o ∈ (s.core c).ni.outs, o.id ∉ h.wait) →
      let m := mergePort h.pkt.src h.pkt.dst
      let leaves := fun (t : State) => (t.core c).ni.held = [] ∧ (t.router m.1).merge = (s.router m.1).merge ++ [(m.2, h.pkt)]
      (isRegionRed h.pkt = false → ∃ t, exec (.heldPacketRelease c) s = .next t ∧ leaves t) ∧
      (isRegionRed h.pkt = true → ∃ t, exec (.redInjectRelease c) s = .next t ∧ leaves t)) ∧
    (∀ lw lh k n, Arrives s c isBara p s1 → p.body = .bara lw lh k →
      (n = 0 ∧ (s.core c).ni.barCnt = [] ∨ 0 < n ∧ (s.core c).ni.barCnt = [⟨p.lid, lw, lh, n⟩]) →
      (n + 1 < 2 ^ (lw + lh) → ∃ t, exec (.rbarArrival c) s = .next t ∧ (t.core c).ni.barCnt = [⟨p.lid, lw, lh, n + 1⟩] ∧
        (t.router c).merge = (s.router c).merge) ∧
      (2 ^ (lw + lh) ≤ n + 1 → (s.core c).ni.fences = [] → ∃ t l, exec (.rbarArrival c) s = .next t ∧ (t.core c).ni.barCnt = [] ∧
        (t.router c).merge = (s.router c).merge ++ l ∧
        l.map (fun q => q.2.dst) = (rectCores (cxOf c) (cyOf c) (2 ^ lw) (2 ^ lh)).map (fun d => ⟨s.pkg, BitVec.ofNat 11 d, 0⟩) ∧
        ∀ q ∈ l, q.1 = 0 ∧ q.2.body = .barc lw lh ∧ q.2.lid = p.lid)) ∧
    (∀ lw lh b, Arrives s c isBarc p s1 → p.body = .barc lw lh → (s.core c).ni.bars = [b] → b.lid = p.lid → b.lw = lw →
      b.lh = lh → exec (.rbarCompletion c) s =
        .next ((s1.modNi c fun ni => { ni with bars := [] }).frameArrive c b.fp b.slot 1 .none p))

/-- R57, R58, R64, R71, R155: a read and a write that a slice's translation and line answer at once, whether or not the page
is moving: the reply carries the line's
bytes; the written bytes stand in the line, whose written sectors are dirty, and the write is acknowledged. -/
def Sys2Proof.Claims.SlicesServeHits : Prop :=
  ∀ (n : Nat) (s s1 : State) (p : Packet) (a : Word) (e : StcEnt) (l : L2Line) (k : Cont), AtHead s n p s1 →
    onlyStc s n p a e → wholeLine s n p a l → a.toNat < 2 ^ 63 →
    (∀ m, 0 < m → a.toNat % 256 + m ≤ 256 → opens e 61 a → p.body = .read a m .data k →
      ∃ t, exec (.sliceRequest n) s = .next t ∧
        Replies s t p (.data ((List.range m).map fun j => mget 0 l.data (a.toNat % 256 + j)) k) ∧ (t.slice n).lines = [l] ∧
        t.mem = s.mem) ∧
    (∀ bs : List Byte, 0 < bs.length → a.toNat % 256 + bs.length ≤ 256 → opens e 60 a → p.body = .write a (bs.map some) k →
      hostHolds s → s.noAlloc p = false →
      ∃ t q, exec (.sliceRequest n) s = .next t ∧ Replies s t p (.ack k none) ∧ (t.slice n).lines = [q] ∧
        (∀ j < 256, mget 0 q.data j =
          if a.toNat % 256 ≤ j ∧ j < a.toNat % 256 + bs.length then bs.getD (j - a.toNat % 256) 0 else mget 0 l.data j) ∧
        (∀ j < 8, q.dirty.getLsbD j = (l.dirty.getLsbD j || (a.toNat % 256 < 32 * j + 32 && 32 * j < a.toNat % 256 + bs.length))) ∧
        t.mem = s.mem)

/-- R58, R59: the merge window of a line closes 16 A-cycles after its first miss; its fill puts the memory's bytes into a
line, whole and clean. -/
def Sys2Proof.Claims.MissesFillTheirLine : Prop :=
  ∀ (n : Nat) (s : State) (w : MWin), n < 128 → (s.slice n).wins = [w] →
    (w.issued = false → w.at_ + 16 ≤ s.acyc → ∃ t, exec (.mergeWindowClose n) s = .next t ∧
      (t.slice n).wins = [{ w with issued := true }] ∧ t.mem = s.mem) ∧
    (w.issued = false → s.acyc < w.at_ + 16 → w.wanted ≠ 0xff → exec (.mergeWindowClose n) s = .next s) ∧
    (w.issued = true → w.noalloc = false → w.reqs = [] → (s.slice n).lines = [] → w.pa % 256 = 0 → s.poison = [] →
      ∃ t l, exec (.lineFill n) s = .next t ∧ (t.slice n).wins = [] ∧ (t.slice n).lines = [l] ∧ l.sid = w.sid ∧
        l.va = w.va ∧ l.pa = w.pa ∧ l.valid = 0xff ∧ l.dirty = 0 ∧ l.poison = 0 ∧
        (∀ j < 256, mget 0 l.data j = Memory.read s.mem (w.pa + j)) ∧ t.mem = s.mem)

/-- R62, R163: a reduction to a region goes to a new cell of its contributor, or is applied to the cell the contributor has;
it leaves memory alone and is acknowledged. -/
def Sys2Proof.Claims.RegionReductionsTakeACell : Prop :=
  ∀ (n : Nat) (s s1 : State) (p : Packet) (op : RedOp) (ty : Ty) (a v : Word) (k : Cont) (l : Trs)
    (s2 : State), Heads s n p s1 → p.body = .red op ty a v true k → hostHolds s →
    s1.translateAll (fun _ => n) p (reqPieces p.body) = (l, s2) → l.failed = none →
    let cell := fun (v : Nat) => { sid := p.sid, va := a, who := p.src.pkg.toNat * 2048 + p.src.core.toNat, op := op, ty := ty,
                                   v := BitVec.ofNat 64 v : RCell }
    ((s.slice n).cells = [] → ∃ t, exec (.sliceRequest n) s = .next t ∧ Replies s t p (.ack k none) ∧ t.mem = s.mem ∧
      (t.slice n).cells = [cell (truncTy ty v)]) ∧
    (∀ old, (s.slice n).cells = [cell old] → ∃ t, exec (.sliceRequest n) s = .next t ∧ Replies s t p (.ack k none) ∧ t.mem = s.mem ∧
      (t.slice n).cells = [cell (redNew op ty (truncTy ty (BitVec.ofNat 64 old)) (truncTy ty v))])

/-- R62: a read that reaches an element with cells folds them first: their values are applied to the memory value of the element
one after another in ascending order of contributor, the read sees the result, and the cells are free. -/
def Sys2Proof.Claims.ReadsFoldTheirElement : Prop :=
  ∀ (n : Nat) (s s1 : State) (p : Packet) (a : Word) (e : StcEnt) (l : L2Line) (k : Cont) (op : RedOp) (ty : Ty) (cs : List RCell),
    Heads s n p s1 → onlyStc s n p a e → wholeLine s n p a l → a.toNat < 2 ^ 63 → opens e 61 a →
    a.toNat % Ty.width ty = 0 → p.body = .read a (Ty.width ty) .data k → (s.slice n).cells.Perm cs →
    (cs.Pairwise fun c d => c.who < d.who) → (∀ c ∈ cs, c.sid = p.sid ∧ c.va = a ∧ c.op = op ∧ c.ty = ty) →
    let old := leNat ((List.range (Ty.width ty)).map fun j => mget 0 l.data (a.toNat % 256 + j))
    let v := cs.foldl (fun m c => redNew op ty m (truncTy ty c.v)) old
    ∃ t, exec (.sliceRequest n) s = .next t ∧ (t.slice n).cells = [] ∧ Replies s t p (.data (natLe (Ty.width ty) v) k)

/-- Slices serve hits, fill misses and fold reductions to regions. -/
def Obligations.SlicesServeTheirLines : Prop := Claims.SlicesServeHits ∧ Claims.MissesFillTheirLine ∧ Claims.RegionReductionsTakeACell ∧ Claims.ReadsFoldTheirElement

/-- R70, R71, R74 to R76, R80: a read of no resident byte whose translation fails is parked under a ticket, for its page, with
a record of the first check that fails: no space 1, the restriction 4, the right 5, the poison bit 6; a migrating page parks
it without a record. A host access is not parked for a fault: it completes with the fault's kind. That the ticket is the next
one of the slice is log 9's. -/
def Sys2Proof.Claims.TranslationFaultsParkTheRequest : Prop :=
  ∀ (n m : Nat) (s s1 : State) (p : Packet) (a : Word) (k : Cont), AtHead s n p s1 → 0 < m → p.body = .read a m .data k →
    let parks := fun (kind : Nat) => ∃ t q, exec (.sliceRequest n) s = .next t ∧
      (t.slice n).parked = [q] ∧ q.pkt = p ∧ q.ticket = (s.slice n).nextTicket ∧ q.kind = kind ∧ q.place = none ∧ q.behind = [] ∧
      a.toNat / 4096 ∈ q.pages ∧ t.mem = s.mem ∧ (kind ≠ 0 → Records s t kind)
    ((∀ port j, k ≠ .host port j) →
      (bitOf (dirEntry s n p.sid) 63 = false → parks 1) ∧
      (∀ e, onlyStc s n p a e → (s.slice n).lines = [] →
        (bitOf e.leaf 55 = true → parks 0) ∧
        (bitOf e.leaf 55 = false → s.admits e.comp p.src = false → parks 4) ∧
        (bitOf e.leaf 55 = false → s.admits e.comp p.src = true → bitOf e.leaf 61 = false → parks 5) ∧
        (bitOf e.leaf 55 = false → s.admits e.comp p.src = true → bitOf e.leaf 61 = true → bitOf e.leaf 56 = true → parks 6))) ∧
    (∀ port j, k = .host port j → bitOf (dirEntry s n p.sid) 63 = false →
      exec (.sliceRequest n) s = .next (s1.reply p (.ack (.host port 1) none) true))

/-- R78: the owner resolves a ticket: replayed, its request is translated and served again; fatal, it completes with the
fault bit and its launch, where it is one of this package, ends faulted. Either way nothing holds the ticket any more. -/
def Sys2Proof.Claims.TicketsAreResolved : Prop :=
  ∀ (p : Party) (n : Nat) (tk : BitVec 20) (s : State) (k : Parked), n < 128 → owns s p → (s.slice n).parked = [k] →
    k.ticket = tk.toNat → k.behind = [] →
    let s1 := ((s.heard p).status false).modSlice n fun x => { x with
      fres := BitVec.ofNat 64 (2 ^ 62 + tk.toNat), parked := [] }
    exec (.faultReplay p n tk) s = .next (s1.sliceServe n k.pkt) ∧
    ∃ t, exec (.faultFatal p n tk) s = .next t ∧ (t.slice n).parked = [] ∧ t.mem = s.mem ∧
      (s.hasLaunch k.pkt.lid = true → k.pkt.src.port ≠ 2 → k.pkt.src.pkg = s.pkg → (t.launch k.pkt.lid).faulted = true) ∧
      ∃ q ∈ (t.router (mergePort k.pkt.dst k.pkt.src).1).merge, q.2.id = k.pkt.id ∧ q.2.dst = k.pkt.src ∧ q.2.fault = true

/-- A translation fault parks its request under a ticket that the owner resolves. -/
def Obligations.TranslationFaultsAreParkedAndResolved : Prop := Claims.TranslationFaultsParkTheRequest ∧ Claims.TicketsAreResolved

/-- R123, R124, R243: a signal forwarded to a spill record that no line holds counts the record's slot word down in memory
and is acknowledged; when it fires, the home core is asked for a refill. -/
def Sys2Proof.Claims.ForwardedSignalsReachTheirRecord : Prop :=
  ∀ (n : Nat) (s s1 s2 : State) (p : Packet) (f rec : Word) (w k home u : Nat) (l : Trs),
    AtHead s n p s1 → p.body = .fwd f w k .none rec home u → 0 < k → rec.toNat % 64 = 0 →
    (∀ m, (s.slice m).lines = [] ∧ (s.slice m).cells = []) → s.poison = [] → hostHolds s →
    s1.translateAll (s1.homes n p) p (reqPieces p.body) = (l, s2) → l.failed = none →
    let pcs := l.pieces
    let a := paOf pcs (rec.toNat + 8 * w)
    let b := paOf pcs (rec.toNat + frameSize (fpCls f) + w / 4)
    let v := s.pword a
    let count := (v.extractLsb' 48 16).toInt
    (b < a ∨ a + 8 ≤ b) → v.extractLsb' 32 13 = 0 → bitOf v 47 = true →
    (k < count → ∃ t, exec (.forwardedSignal n) s = .next t ∧ t.pword a = withCount v (count - k) ∧
      Replies s t p (.ack (.fwd u) none)) ∧
    (k = count → ∃ t, exec (.forwardedSignal n) s = .next t ∧ t.pword a = firedWord v ∧
      ∃ q ∈ (t.router (mergePort p.dst ⟨s.pkg, BitVec.ofNat 11 home, 0⟩).1).merge, q.2.dst = ⟨s.pkg, BitVec.ofNat 11 home, 0⟩ ∧
        q.2.body = .refill f (v.extractLsb' 0 32) (v.extractLsb' 45 2).toNat w)

/-- R72 to R74: a command of the owner drops the translations it selects and shows BUSY; the write-back puts the dirty bytes
of the selected lines into memory and drops them; the completion clears BUSY. A party that is not the owner changes nothing. -/
def Sys2Proof.Claims.InvalidationsDropWhatTheySelect : Prop :=
  ∀ (p : Party) (n : Nat) (v : Word) (s : State), n < 128 →
    let cmds := [(Instr.stcInvAll p n v, 0), (Instr.stcInvSid p n v, 1), (Instr.stcInvPage p n v, 2)]
    let hits := fun (e : StcEnt) (mode : Nat) => mode = 0 ∨ e.sid = v.extractLsb' 45 16 ∧
      (mode = 2 → e.page = bits v 44 12 * 4096 / pageSize e.level)
    (∀ i ∈ cmds, owns s p → bitOf (s.slice n).stcinv 63 = false → bits v 62 61 = i.2 → ∃ t, exec i.1 s = .next t ∧
      (∀ e, e ∈ (t.slice n).stc ↔ e ∈ (s.slice n).stc ∧ ¬hits e i.2) ∧ bitOf (t.slice n).stcinv 63 = true ∧ (t.slice n).inv = 1 ∧
      t.mem = s.mem) ∧
    (∀ i ∈ cmds, ¬owns s p → ∃ t, exec i.1 s = .next t ∧ t.slices = s.slices ∧ t.host.error = true) ∧
    (∀ l, (s.slice n).inv = 1 → bitOf (s.slice n).stcinv 11 = true → (s.slice n).wins = [] → (s.slice n).wbs = [] → bits (s.slice n).stcinv 62 61 = 0 →
      (s.slice n).lines = [l] → l.dirty = 0xff → ∃ t, exec (.stcInvWriteback n) s = .next t ∧ (t.slice n).lines = [] ∧
        (t.slice n).inv = 2 ∧ ∀ j < 256, Memory.read t.mem (l.pa + j) = mget 0 l.data j) ∧
    ((s.slice n).inv = 2 → (s.slice n).wins = [] → (s.slice n).parked = [] → (s.slice n).wbs = [] → ∃ t, exec (.stcInvComplete n) s = .next t ∧
      (t.slice n).inv = 0 ∧ bitOf (t.slice n).stcinv 63 = false ∧ t.mem = s.mem)

/-- Forwarded signals reach spill records, and invalidations write back and drop what they select. -/
def Obligations.SlicesForwardAndInvalidate : Prop := Claims.ForwardedSignalsReachTheirRecord ∧ Claims.InvalidationsDropWhatTheySelect

/-- R272, R312 to R316: a push goes on the bottom of its launch's deque, or, where there is no room, its core runs the TCB;
a hungry core's pop takes the bottom TCB, delivered after 2 A-cycles into a class-0 frame, or asks again 64 A-cycles after an
empty one. -/
def Sys2Proof.Claims.PushesAndPops : Prop :=
  ∀ (n c : Nat) (s : State) (lid : BitVec 32), n < 128 → c < 2048 →
    (∀ p t rest, (s.unit n).pushes = p :: rest → p.body = .task [t] → p.src.core.toNat = c → s.unitFree n = true → (s.unit n).stealIn = [] → s.asking n = none →
      let l := (s.unit n).deque t.lid
      let room := ((s.unit n).deques.map fun d => d.2.length).sum < 64 ∧
        ((s.unit n).hasDeque t.lid = true ∨ (s.unit n).deques.length < 4)
      (room → ∃ q, exec (.taskPush n) s = .next q ∧ (q.unit n).deque t.lid = l ++ [t] ∧ (q.unit n).pushes = rest ∧
        (∀ m, m ≠ t.lid → (q.unit n).deque m = (s.unit n).deque m) ∧ q.cores = s.cores) ∧
      (¬room → ∃ q, exec (.taskPush n) s = .next q ∧ (q.unit n).deques = (s.unit n).deques ∧ (q.unit n).pushes = rest ∧
        (q.core c).ni.runs = (s.core c).ni.runs ++ [(t, s.acyc)])) ∧
    (let g := groupOf c
     let pops := fun (i : Instr) => ∃ q, exec i s = .next q ∧
       (q.core c).ni.pops = [(lid, ((s.unit g).deque lid).getLast?, s.acyc + 2)] ∧
       (q.unit g).deque lid = ((s.unit g).deque lid).dropLast
     (s.asks c lid = true → s.unitFree g = true → s.asking g = some c →
      (mhas (s.core c).ni.popAt lid.toNat = false → pops (.pop c lid)) ∧
      (∀ due, (s.core c).ni.popAt = [(lid.toNat, due)] → due ≤ s.acyc → pops (.popRetry c))) ∧
     (∀ due, s.hungry c lid = false → (s.core c).ni.popAt = [(lid.toNat, due)] → due ≤ s.acyc →
      ∃ q, exec (.popRetry c) s = .next q ∧ (q.core c).ni.popAt = [] ∧ q.units = s.units)) ∧
    (∀ t at_ rest f, (s.core c).ni.pops = (lid, some t, at_) :: rest → at_ ≤ s.acyc → NextFrame s c 0 f → t.args.length ≤ 6 →
      (s.core c).tokens.length < 256 → noneDeferred s → ∃ q, exec (.popDelivery c) s = .next q ∧ Started s q c 0 f t.entry (argWords t.args) ∧
        (q.core c).ni.pops = rest) ∧
    (∀ at_ rest, (s.core c).ni.pops = (lid, none, at_) :: rest → at_ ≤ s.acyc → ∃ q, exec (.popDelivery c) s = .next q ∧
      (q.core c).ni.pops = rest ∧ mget 0 (q.core c).ni.popAt lid.toNat = s.acyc + 64) ∧
    (∀ t at_ rest, (s.core c).ni.pops = (lid, t, at_) :: rest → s.acyc < at_ → exec (.popDelivery c) s = .next s)

/-- R315, R316: an idle group asks its victims in order; a victim ships half of its TCBs, at most four, from the top; the
thief puts them on the bottom of its deque, as a push that gives way to pops and requests (log 38), goes on to the next victim after an empty reply, and waits 1,024 A-cycles after
the last. -/
def Sys2Proof.Claims.IdleGroupsSteal : Prop :=
  ∀ (n : Nat) (s : State) (lid : BitVec 32), n < 128 →
    let l := (s.unit n).deque lid
    let asksFrom := fun (k : Nat) (i : Instr) =>
      (∀ j v, k ≤ j → j < 8 → victim (s.launch lid) n j = some v → (∀ m, k ≤ m → m < j → victim (s.launch lid) n m = none) →
        ∃ t, exec i s = .next t ∧ (t.unit n).stealing = [(lid, j)] ∧
          Sends s t (cornerOf n) ⟨s.pkg, BitVec.ofNat 11 (cornerOf v), 0⟩ fun q => q.body = .stealReq lid n) ∧
      ((∀ j, k ≤ j → j < 8 → victim (s.launch lid) n j = none) → ∃ t, exec i s = .next t ∧ (t.unit n).stealing = [] ∧
        (t.unit n).waits = [(lid, s.acyc + 1024)])
    (s.groupIdle n lid = true → (s.unit n).stealing = [] → (s.unit n).waits = [] → asksFrom 0 (.stealRetry n lid)) ∧
    (∀ p th rest, (s.unit n).stealIn = p :: rest → p.body = .stealReq lid th → s.unitFree n = true → s.asking n = none →
      let m := min 4 ((l.length + 1) / 2)
      ∃ t, exec (.stealRequest n) s = .next t ∧ (t.unit n).deque lid = l.drop m ∧ (t.unit n).stealIn = rest ∧
        Sends s t (cornerOf n) ⟨s.pkg, BitVec.ofNat 11 (cornerOf th), 0⟩ fun q => q.body = .stealRep lid th (l.take m)) ∧
    (∀ p th rest j, (s.unit n).replies = p :: rest → p.body = .stealRep lid th [] → (s.unit n).stealing = [(lid, j)] →
      (s.unit n).waits = [] → asksFrom (j + 1) (.stealReply n)) ∧
    (∀ p th rest ts, (s.unit n).replies = p :: rest → p.body = .stealRep lid th ts → ts ≠ [] → s.unitFree n = true →
      (s.unit n).stealIn = [] → s.asking n = none →
      (∀ t ∈ ts, t.lid = lid) → (s.unit n).deques = [(lid, l)] → l.length + ts.length ≤ 64 →
      ∃ t, exec (.stealReply n) s = .next t ∧ (t.unit n).deque lid = l ++ ts ∧ (t.unit n).replies = rest ∧
        ∀ x ∈ (t.unit n).stealing, x.1 ≠ lid)

/-- Tasks are pushed, popped and stolen as the donation rules say. -/
def Obligations.TasksAreDonatedAndStolen : Prop := Claims.PushesAndPops ∧ Claims.IdleGroupsSteal

/-- R282, R285 to R288: a packet enters the input of its router from the local merger, from a link or from another package,
or is discarded as malformed with its header in the device log; its productive ports are those of the shorter way round each
ring, ties toward east and south. -/
def Sys2Proof.Claims.PacketsEnterRoutersAndChoosePorts : Prop :=
  ∀ (r port : Nat) (s : State) (p : Packet),
    let in_ := fun (t : State) (lane : Option Nat) => ∃ i, (t.router r).ins = (s.router r).ins ++ [i] ∧ i.pkt = p ∧ i.port = port ∧
      ∀ l ∈ lane, i.lane = l
    (r < 2048 → p.dst.pkg = s.pkg → p.dst.port ≠ 2 → (s.router r).tab = [] →
      let t := p.dst.core.toNat
      let dx := (cxOf t + 64 - cxOf r) % 64
      let dy := (cyOf t + 32 - cyOf r) % 32
      s.ports r p = (if dx = 0 then [] else [if dx ≤ 32 then 1 else 3]) ++ (if dy = 0 then [] else [if dy ≤ 16 then 2 else 0]) ++
        (if dx = 0 ∧ dy = 0 then [4] else [])) ∧
    ((s.router r).draining = false →
      (∀ src, r < 2048 → port = 4 → src < 3 → (s.router r).merge = [(src, p)] → (s.router r).ins = [] → p.malformed = false →
        ∃ t, exec (.packetArrivalRouter r port) s = .next t ∧ in_ t none ∧ (t.router r).merge = []) ∧
      (∀ l slot, r < 2048 → port < 4 → s.linkIn r port = some (l, p, slot) →
        (p.malformed = false → ∃ t, exec (.packetArrivalRouter r port) s = .next t ∧ in_ t (some slot) ∧
          ((t.router (neighbour r port)).lane (opposite r port) l).rx =
            (((s.router (neighbour r port)).lane (opposite r port) l).rx).drop 1) ∧
        (p.malformed = true → ∃ t, exec (.packetArrivalRouter r port) s = .next t ∧ (t.router r).ins = (s.router r).ins ∧
          t.io.devLog = s.io.devLog ++ [(hdrW0 p, hdrW1 p)])) ∧
      (r = 2048 → port < 6 → s.sysIn = [(port, p)] → p.malformed = false →
        (∀ lane, (s.router r).systemSlot port p = some lane →
          ∃ t, exec (.packetArrivalRouter r port) s = .next t ∧ in_ t (some lane) ∧ t.sysIn = []) ∧
        ((s.router r).systemSlot port p = none → exec (.packetArrivalRouter r port) s = .next s)))

/-- R287, R291 to R293: a waiting packet that reaches its own router goes to the ejection port; one with a lane and a
downstream slot leaves over it, flit by flit with rising sequence numbers, taking the slot's credit; a port that has granted
in this F-cycle grants no more in it (R291). -/
def Sys2Proof.Claims.GrantedPacketsMoveOn : Prop :=
  ∀ (r port : Nat) (s : State) (i : InPkt), r < 2048 → (s.router r).ins = [i] → i.port ≤ 4 → (s.router r).draining = false →
    (i.pkt.e = true ∧ i.pkt.vc ≠ .sys ∨ i.exh = none) →
    let granted := fun (port : Nat) => mget 0 (s.router r).rounds (port * 4 + vcCode i.pkt.vc) = (s.router r).fcyc + s.fcyc + 1
    (port ≤ 4 → granted port → exec (.routerGrant r port i.pkt.vc) s = .next s) ∧
    (¬granted 4 → s.ports r i.pkt = [4] → (s.router r).ejBusy = [] → ∃ t, exec (.routerGrant r 4 i.pkt.vc) s = .next t ∧ (t.router r).ins = [] ∧
      (t.router r).eject = (s.router r).eject ++ [{ i.pkt with at_ := s.fcyc + i.pkt.len.toNat - 1 }]) ∧
    (∀ l, port < 4 → ¬granted port → port ∈ s.ports r i.pkt → s.laneFor r port i = some l →
      let m := (s.router r).lane port l
      let n := i.pkt.len.toNat
      ∃ t q, exec (.routerGrant r port i.pkt.vc) s = .next t ∧ (t.router r).ins = [] ∧
        q = { i.pkt with dlc := q.dlc, esc := q.esc } ∧
        ((t.router r).lane port l).wire = m.wire ++ (List.range n).map (fun k =>
          { seq := m.next + BitVec.ofNat 8 k, idx := k, slot := l, pkt := q }) ∧
        ((t.router r).lane port l).next = m.next + BitVec.ofNat 8 n ∧
        ((t.router r).lane port l).credit0 + ((t.router r).lane port l).credit1 =
          (if q.dlc && l = orderLane i.pkt.vc then m.credit0 + (m.credit1 - 1) else m.credit0 - 1 + m.credit1))

/-- Packets enter routers, choose productive ports and move on flit by flit. -/
def Obligations.PacketsMoveThroughRouters : Prop := Claims.PacketsEnterRoutersAndChoosePorts ∧ Claims.GrantedPacketsMoveOn

/-- R290: the tick of each 16 F-cycles takes one, once, from the slack of a packet that is not exhausted and has waited since
before it; a packet whose slack is gone becomes exhausted and drained. -/
def Sys2Proof.Claims.SlackDrainsAndExhausts : Prop :=
  ∀ (r : Nat) (s : State), r ≤ 2048 →
    let now := (s.router r).fcyc + s.fcyc
    ((s.router r).draining = false → now % 16 = 0 → (s.router r).ticked ≠ now / 16 → ∃ t, exec (.slackTick r) s = .next t ∧
      (t.router r).ticked = now / 16 ∧ (t.router r).ins = (s.router r).ins.map fun i =>
        if i.pkt.e = true ∨ i.pkt.vc = .sys ∨ i.at_ = now then i else { i with pkt := { i.pkt with slack := i.pkt.slack - 1 } }) ∧
    (now % 16 ≠ 0 ∨ (s.router r).ticked = now / 16 → exec (.slackTick r) s = .next s) ∧
    (∃ t, exec (.slackExhaustion r) s = .next t ∧ (t.router r).ins = (s.router r).ins.map fun i =>
      if i.pkt.vc ≠ .sys ∧ i.pkt.slack = 0 ∧ i.pkt.e = false then
        { i with pkt := { i.pkt with e := true, xd := true }, exh := some now } else i)

/-- R282, R288, R295, R314, R331: a packet at its ejection port goes to the network interface, donation unit, slice or I/O die
that its destination names, to the inbox of a frozen core (the end report of a child too: log 39), or to the system switch
for another package. -/
def Sys2Proof.Claims.EjectedPacketsReachTheirAgent : Prop :=
  ∀ (r : Nat) (s : State) (p : Packet), r < 2048 → (s.router r).eject = [p] → p.malformed = false →
    let c := p.dst.core.toNat
    let goes := fun (f : State → Prop) => ∃ t, exec (.packetDelivery r) s = .next t ∧ (t.router r).eject = [] ∧ f t
    (p.dst.pkg ≠ s.pkg → goes fun t => (t.router 2048).merge = (s.router 2048).merge ++ [(2, p)]) ∧
    (p.dst.pkg = s.pkg →
      (p.dst.port = 0 → ((s.core c).frozen = false ∨ p.vc = .sys ∧ isEndReport p = false) → isTask p.body = false →
        goes fun t => (t.core c).inq = (s.core c).inq ++ [p]) ∧
      (∀ l, p.dst.port = 0 → (s.core c).frozen = false → p.body = .task l →
        goes fun t => p ∈ (t.unit (groupOf c)).pushes ∧ (t.core c).inq = (s.core c).inq) ∧
      (p.dst.port = 0 → (s.core c).frozen = true → (p.vc ≠ .sys ∨ isEndReport p = true) → (s.core c).inbox.length < s.inboxRoom →
        goes fun t => (t.core c).inbox = (s.core c).inbox ++ [p] ∧ (t.core c).inq = (s.core c).inq) ∧
      (p.dst.port = 0 → (s.core c).frozen = true → (p.vc ≠ .sys ∨ isEndReport p = true) → s.inboxRoom ≤ (s.core c).inbox.length →
        (s.core c).fwdTo = none → ∃ t, exec (.packetDelivery r) s = .next t ∧ (t.router r).eject = [p] ∧ t.cores = s.cores) ∧
      (p.dst.port = 1 → goes fun t => (t.slice (groupOf c)).inq = (s.slice (groupOf c)).inq ++ [p]) ∧
      (p.dst.port = 2 → (∀ pt k, replyCont p ≠ some (.host pt k)) → goes fun t => t.io.inq = s.io.inq ++ [p] ∨ t.dist.inq = s.dist.inq ++ [p]))

/-- Slack drains by ticks, and an ejected packet reaches the agent it names. -/
def Obligations.SlackDrainsAndPacketsArrive : Prop := Claims.SlackDrainsAndExhausts ∧ Claims.EjectedPacketsReachTheirAgent

/-- R297: a flit that arrives whole and in turn is accepted and acknowledged; one with an error, or ahead of its turn, is not,
and its place is asked for again; the sender then sends again from there, counting the replays of the flit awaited, and
acknowledged flits leave its retry buffer. (That only a NACK for the flit still awaited counts as a failed replay is log entry
34.) -/
def Sys2Proof.Claims.LanesRepeatUntilAcknowledged : Prop :=
  ∀ (r port lane : Nat) (s : State), r < 2048 → port < 4 → lane < 8 →
    let up := fun (x : State) => (x.router (neighbour r port)).lane (opposite r port) lane
    let here := fun (x : State) => (x.router r).lane port lane
    (∀ f rest, (up s).wire = f :: rest →
      (f.seq = (up s).expect → ∃ t, exec (.flitReceive r port lane 0) s = .next t ∧ (up t).wire = rest ∧
        (up t).expect = (up s).expect + 1 ∧ (up t).acks = (up s).acks ++ [f.seq] ∧
        (up t).rx = if f.idx + 1 = f.pkt.len.toNat then (up s).rx ++ [(f.pkt, f.slot)] else (up s).rx) ∧
      (∀ e, crcBlind e = false ∨ (e = 0 ∧ f.seq ≠ (up s).expect ∧ 64 < ((up s).expect - f.seq).toNat) →
        ∃ t, exec (.flitReceive r port lane e) s = .next t ∧ (up t).wire = rest ∧ (up t).expect = (up s).expect ∧
          (up t).rx = (up s).rx ∧ (up t).naks = (up s).naks ++ [(up s).expect])) ∧
    (∀ n, (here s).naks = [n] → (here s).wire = [] → (here s).retired = false →
      ¬(16 ≤ (here s).replays ∧ (here s).failed = (here s).expect ∧ n = (here s).expect) →
      (∃ f ∈ (here s).unacked, f.seq = n) → ∃ t pre f suf, exec (.nackReceive r port lane) s = .next t ∧
        (here s).unacked = pre ++ f :: suf ∧ f.seq = n ∧ (∀ g ∈ pre, g.seq ≠ n) ∧ (here t).wire = f :: suf ∧
        (here t).naks = [] ∧ (here t).unacked = (here s).unacked ∧
        (n = (here s).expect → (here t).failed = n ∧ (here t).replays = if (here s).failed = n then (here s).replays + 1 else 1) ∧
        (n ≠ (here s).expect → (here t).replays = (here s).replays)) ∧
    (∀ a pre suf, (here s).acks = [a] → (here s).unacked = pre ++ suf → (∀ f ∈ pre, (a - f.seq).toNat < 128) →
      (∀ f ∈ suf.head?, 128 ≤ (a - f.seq).toNat) → ∃ t, exec (.ackReceive r port lane) s = .next t ∧ (here t).unacked = suf ∧
        (here t).acks = [] ∧ (here t).wire = (here s).wire)

/-- R297: after 16 replays of one flit that have failed, none of them still on its way, a lane is retired and the owner is told; its flits go out again, in order, on the
other lane of its slots, once there is room for them (the wait for room is log entry 34, the number of the notification log
entry 14). -/
def Sys2Proof.Claims.FailedLanesRetire : Prop :=
  ∀ (r port k m : Nat) (s : State), r < 2048 → port < 4 → (k, m) ∈ [(1, 2), (2, 1), (4, 5), (5, 4)] →
    let l := fun (x : State) (j : Nat) => (x.router r).lane port j
    (l s k).retired = false → 16 ≤ (l s k).replays → (l s k).failed = (l s k).expect → (l s k).naks.head? = some (l s k).expect →
    (∀ f ∈ (l s k).wire, f.seq ≠ (l s k).expect) → (l s m).retired = false →
    (64 < (l s m).unacked.length + (l s k).pending.length → ∃ t, exec (.laneRetire r port k) s = .next t ∧
      (l t k).retired = true ∧ (l t k).unacked = (l s k).unacked ∧ l t m = l s m) ∧
    ((l s m).unacked.length + (l s k).pending.length ≤ 64 → ∃ t fs, exec (.laneRetire r port k) s = .next t ∧ (l t k).retired = true ∧ (l t k).wire = [] ∧ (l t k).unacked = [] ∧
      (l t m).wire = (l s m).wire ++ fs ∧ (l t m).next = (l s m).next + BitVec.ofNat 8 fs.length ∧
      fs.map (fun f => (f.idx, f.pkt)) = (l s k).pending.map (fun f => (f.idx, f.pkt)) ∧
      (∀ j, ∀ f ∈ fs[j]?, f.seq = (l s m).next + BitVec.ofNat 8 j) ∧
      (bitOf s.io.own 63 = true → ∃ d, t.io.notes = s.io.notes ++ [(7, d)]))

/-- R298: every 256 F-cycles a receiver reports its free slots and the flits it has; the sender takes the report less what it
has sent since, so that a count a soft error changed is right again. -/
def Sys2Proof.Claims.CreditsResynchronise : Prop :=
  ∀ (r port lane : Nat) (s : State), r < 2048 → port < 4 → lane < 8 →
    let up := fun (x : State) => (x.router (neighbour r port)).lane (opposite r port) lane
    let here := fun (x : State) => (x.router r).lane port lane
    let now := (s.router r).fcyc + s.fcyc
    ((up s).resyncAt + 256 ≤ now → ∃ t q, exec (.creditResyncSend r port lane) s = .next t ∧
      (up t).resyncs = (up s).resyncs ++ [q] ∧ q.s = (up s).expect - 1 ∧ q.free.1 = 1 - s.occupied r port lane (up s) false ∧
      q.epoch = !(up s).epoch ∧ (up t).resyncAt = now) ∧
    (now < (up s).resyncAt + 256 → exec (.creditResyncSend r port lane) s = .next s) ∧
    (∀ q rest, (here s).resyncs = q :: rest →
      let since := (here s).sent.take ((here s).next - 1 - q.s).toNat
      ∃ t, exec (.creditResyncReceive r port lane) s = .next t ∧ (here t).resyncs = rest ∧
        (here t).credit0 = q.free.1 - since.countP (· = some false) ∧ (here t).credit1 = q.free.2 - since.countP (· = some true)) ∧
    (∀ v, ∃ t, exec (.creditCountSoftError r port lane v) s = .next t ∧ (here t).credit0 = v % 256 ∧
      (here t).credit1 = v / 256 ∧ (here t).wire = (here s).wire)

/-- Lanes repeat unacknowledged flits, failed lanes retire, credits resynchronise. -/
def Obligations.LanesAndCreditsRecover : Prop := Claims.LanesRepeatUntilAcknowledged ∧ Claims.FailedLanesRetire ∧ Claims.CreditsResynchronise

/-- R273, R299 to R301: the owner's write of `dst_sub` with GO submits a launch of the descriptor at depth 0, which enters the
pool under the next launch id; without a free entry it completes with busy status, without a valid space the status is 3. A
`launch` packet uses a reservation that its core holds; a core is granted reservations, at most two. -/
def Sys2Proof.Claims.LaunchesAreSubmitted : Prop :=
  ∀ (s : State), 
    (∀ (p : Party) (w1 : Word), let i := Instr.launchSubmit p w1
      let sid := w1.extractLsb' 0 16
      let lid := s.dist.nextLid
      ownerOnly s p i ∧ (owns s p →
        (bitOf w1 63 = true → bits s.dist.sub0 6 0 = 0 → s.hasSpace sid s.dist.sub0 = true →
          (∀ r, s.poolEntry 0 = some r → ∃ t, exec i s = .next t ∧ t.dist.status = 1 ∧ t.dist.subLid = lid ∧
            t.hasLaunch lid = true ∧ (t.launch lid).sid = sid ∧ (t.launch lid).desc = s.dist.sub0 ∧ (t.launch lid).depth = 0 ∧
            (t.launch lid).phase = .submitted ∧ (t.launch lid).parent = none ∧ t.dist.nextLid ≠ 0 ∧ (lid + 1 ≠ 0 → t.dist.nextLid = lid + 1)) ∧
          (s.poolEntry 0 = none → ∃ t, exec i s = .next t ∧ t.dist.status = 2 ∧ t.dist.launches = s.dist.launches ∧
            t.host.busy = true ∧ t.host.error = false)) ∧
        (bitOf w1 63 = true → bits s.dist.sub0 6 0 ≠ 0 ∨ s.hasSpace sid s.dist.sub0 = false → ∃ t, exec i s = .next t ∧
          t.dist.status = 3 ∧ t.dist.launches = s.dist.launches) ∧
        (bitOf w1 63 = false → ∃ t, exec i s = .next t ∧ t.dist.subSid = sid ∧ t.dist.launches = s.dist.launches))) ∧
    (∀ p d depth core fp slot parent h, s.dist.inq = [p] → p.body = .launch d depth core fp slot parent →
      s.dist.held.find? (fun h => h.core = core && h.lid = parent) = some h →
      let lid := s.dist.nextLid
      ∃ t, exec .launchSubmission s = .next t ∧ t.dist.inq = [] ∧ t.dist.held = s.dist.held.erase h ∧ t.hasLaunch lid = true ∧
        (t.launch lid).sid = p.sid ∧ (t.launch lid).desc = d ∧ (t.launch lid).depth = depth ∧ (t.launch lid).parent = some parent ∧
        (t.launch lid).phase = .submitted ∧ (t.launch lid).poolRes = h.own) ∧
    (∀ c lid r, c < 2048 → lid ∈ (s.core c).lids → (s.launch lid).phase = .resident → (s.launch lid).depth < 7 →
      s.poolEntry ((s.launch lid).depth + 1) = some r →
      (mget 0 (s.core c).ni.resv lid.toNat < 2 → ∃ t, exec (.poolReservationRequest c lid) s = .next t ∧
        t.dist.held = s.dist.held ++ [⟨(s.launch lid).depth + 1, r, c, lid⟩] ∧
        mget 0 (t.core c).ni.resv lid.toNat = mget 0 (s.core c).ni.resv lid.toNat + 1) ∧
      (2 ≤ mget 0 (s.core c).ni.resv lid.toNat → exec (.poolReservationRequest c lid) s = .next s))

/-- R252: once the descriptor has been read it is kept and checked, and its launch waits in its queue; a field that breaks a
rule, or a descriptor that cannot be read, ends it with a DESCRIPTOR record. -/
def Sys2Proof.Claims.DescriptorsAreReadAndChecked : Prop :=
  ∀ (s : State) (lid : BitVec 32), s.hasLaunch lid = true → (s.launch lid).phase = .submitted → (s.launch lid).ws = [] →
    let s1 := s.takeImages lid
    let l := s1.launch lid
    let ws := bytesWords (l.img 16 0 128)
    let kept := { l with ws := ws, priv := bitOf (ws.getD 14 0) 40 && l.parent.isNone,
                         lhang := if bits (ws.getD 14 0) 29 25 = 0 then 24 else bits (ws.getD 14 0) 29 25 }
    let bad := fun (d : Word) => ∃ t r, exec (.descriptorReadComplete lid) s = .next t ∧ (t.launch lid).faulted = true ∧
      t.io.recIn = s1.io.recIn ++ [r] ∧ bits r.w0 63 56 = 22 ∧ r.w2 = l.desc ∧ r.w3 = d
    (l.need ≠ 0 → exec (.descriptorReadComplete lid) s = .next s1) ∧
    (l.need = 0 → l.lost = [] → l.faulted = false → kept.fieldBad = none → ∃ t, exec (.descriptorReadComplete lid) s = .next t ∧
      (t.launch lid).phase = .queued ∧ (t.launch lid).ws = ws ∧ t.io.recIn = s1.io.recIn) ∧
    (∀ w b, l.need = 0 → l.lost = [] → kept.fieldBad = some (w, b) → bad (BitVec.ofNat 64 (256 * w + b))) ∧
    (l.need = 0 → l.lost ≠ [] → bad 0x1000)

/-- Launches enter the pool and their descriptor is read and checked. -/
def Obligations.LaunchesAreSubmittedAndRead : Prop := Claims.LaunchesAreSubmitted ∧ Claims.DescriptorsAreReadAndChecked

/-- R250, R253, R302 to R304: a decision is made every 32 A-cycles; the first queue in turn, of the highest priority that has
a launch that fits, gives its head a rectangle; a launch that has waited 850,000 A-cycles reserves, the oldest first of those that find one, the
rectangle of least use among those that meet none reserved for an earlier one. -/
def Sys2Proof.Claims.DecisionsPlaceLaunches : Prop :=
  ∀ (s : State),
    (s.acyc < s.dist.decideAt → exec .placementDecision s = .next s) ∧
    (s.dist.decideAt ≤ s.acyc → s.reservedReady = none → (∀ p, s.restoreReady p = none) →
      (∀ p q lid o nested, p < 8 → (∀ r, p < r → s.scan r = none) → s.scan p = some (q, lid, o, nested) → s.hasLaunch lid = true →
        ∃ t, exec .placementDecision s = .next t ∧ t.dist.decideAt = s.acyc + 32 ∧ (t.launch lid).ox = o.1 ∧
          (t.launch lid).oy = o.2 ∧ (t.launch lid).nested = nested) ∧
      ((∀ p, s.scan p = none) → exec .placementDecision s = .next (s.modDist fun d => { d with decideAt := s.acyc + 32 }))) ∧
    (∀ lid, s.hasLaunch lid = true → (s.launch lid).phase = .queued → (s.launch lid).reserved = none →
      s.nestable (s.launch lid) = false →
      let l := s.launch lid
      let free := fun (o : Nat × Nat) => ∀ r ∈ earlierRects s l, meets (o.1, o.2, l.width, l.height) r = false
      let use := fun (o : Nat × Nat) => ((rectCores o.1 o.2 l.width l.height).filter s.taken).length
      (s.acyc ≤ l.bornAt + 850000 → exec (.reservingTimeout lid) s = .next s) ∧
      let first := fun (m : Launch) => s.reserves m = true ∧ m.olderThan l = true ∧
        ∃ o ∈ origins m.width m.height, ∀ r ∈ earlierRects s m, meets (o.1, o.2, m.width, m.height) r = false
      ((∃ m ∈ s.launches, first m) → exec (.reservingTimeout lid) s = .next s) ∧
      (l.bornAt + 850000 < s.acyc → l.faulted = false → (∀ m ∈ s.launches, ¬first m) →
        (∃ o ∈ origins l.width l.height, free o) → ∃ t o, exec (.reservingTimeout lid) s = .next t ∧
        (t.launch lid).reserved = some o ∧ o ∈ origins l.width l.height ∧ free o ∧
        ∀ b ∈ origins l.width l.height, free b → use o ≤ use b))

/-- R299, R302 to R305: which launch a decision of a priority places, and where: the queues of that priority in turn from its
pointer, those of weight 0 passed over, the head of each being the launch submitted first; the first head that fits, which a
launch with a reserved rectangle does on it, a child in its resident parent's size and without stream images on the sub-rectangle
of its size about the issuing core where fewer than 8 launches are, and any other on the free rectangle with the best keys. The
placement counts toward its queue's turn; a reserved rectangle that is free goes ahead of all queues. -/
def Sys2Proof.Claims.PlacementsFitAndTakeTurns : Prop :=
  ∀ (s : State),
    (∀ q l, s.headOf q = some l → waitsIn s q l ∧ ∀ m, waitsIn s q m → l.seq ≤ m.seq) ∧
    (∀ q l, waitsIn s q l → s.headOf q ≠ none) ∧
    (∀ p,
      let turn := fun (i : Nat) => (mget 0 s.dist.ptr p + i) % 16
      let passed := fun (q : Nat) => s.queuePrio q = p → s.weight q ≠ 0 → ∀ l, s.headOf q = some l → s.canPlace l = none
      (∀ q lid o nested, s.scan p = some (q, lid, o, nested) → s.queuePrio q = p ∧ s.weight q ≠ 0 ∧
        (∃ l, s.headOf q = some l ∧ l.lid = lid ∧ s.canPlace l = some (o, nested)) ∧
        ∃ i < 16, q = turn i ∧ ∀ j < i, passed (turn j)) ∧
      (s.scan p = none → ∀ q < 16, passed q)) ∧
    (∀ l,
      let rect := fun (o : Nat × Nat) => rectCores o.1 o.2 l.width l.height
      (∀ m, l.parent = some m → (s.launch m).phase = .resident → l.width ≤ (s.launch m).width → l.height ≤ (s.launch m).height →
        l.w 8 = 0 → l.w 9 = 0 → (s.launch m).frozen = .no →
        let o := (cxOf l.pcore - cxOf l.pcore % l.width, cyOf l.pcore - cyOf l.pcore % l.height)
        ((∀ c ∈ rect o, s.holding c < 8) → s.canPlace l = some (o, true)) ∧
        ((∃ c ∈ rect o, 8 ≤ s.holding c) → s.canPlace l = none)) ∧
      ((l.parent = none ∨ ∃ m, l.parent = some m ∧ ((s.launch m).width < l.width ∨ (s.launch m).height < l.height ∨ l.w 8 ≠ 0 ∨ l.w 9 ≠ 0)) →
        (∀ o, l.reserved = some o → (∀ c ∈ rect o, ¬heldBy s c) → s.canPlace l = some (o, false)) ∧
        (∀ o, l.reserved = some o → (∃ c ∈ rect o, heldBy s c) → s.canPlace l = none) ∧
        (l.reserved = none → (∀ o nested, s.canPlace l = some (o, nested) → nested = false ∧ freeFor s l o ∧
            ∀ b, freeFor s l b → keysLe (rectKeys s o l.width l.height) (rectKeys s b l.width l.height)) ∧
          (s.canPlace l = none → ∀ b, ¬freeFor s l b)))) ∧
    (s.dist.decideAt ≤ s.acyc →
      (∀ lid o, s.reservedReady = some (lid, o) → s.hasLaunch lid = true → ∃ t, exec .placementDecision s = .next t ∧
        t.dist.decideAt = s.acyc + 32 ∧ (t.launch lid).ox = o.1 ∧ (t.launch lid).oy = o.2 ∧ (t.launch lid).nested = false ∧
        t.dist.used = s.dist.used ∧ t.dist.ptr = s.dist.ptr) ∧
      (s.reservedReady = none → ∀ p q lid o nested, p < 8 → (∀ r, p ≤ r → s.restoreReady r = none) → (∀ r, p < r → s.scan r = none) →
        s.scan p = some (q, lid, o, nested) → ∃ t, exec .placementDecision s = .next t ∧
          let n := mget 0 s.dist.used q + 1
          (∀ r, mget 0 t.dist.used r = if r ≠ q then mget 0 s.dist.used r else if n < s.weight q then n else 0) ∧
          ∀ r, mget 0 t.dist.ptr r = if r = p ∧ s.weight q ≤ n then (q + 1) % 16 else mget 0 s.dist.ptr r))

/-- Placement decisions give the first fitting launch its rectangle, old ones reserve. -/
def Obligations.DecisionsPlaceLaunches : Prop := Claims.DecisionsPlaceLaunches ∧ Claims.PlacementsFitAndTakeTurns

/-- R253, R311, R353: a placement whose reads are done wakes its supergroups, waits 2,048 A-cycles for zeroisation where a core ran
another space last or has been woken, and then stands on its cores, each with its initial frame and token: a core zeroised
holds nothing of what was there, one of the same space keeps its scratch. -/
def Obligations.PlacedLaunchesStart : Prop :=
  ∀ (s : State) (l : Launch), Sound s l → noneDeferred s →
    let old := fun (c : Nat) => (s.core c).woken = true ∨ ∃ y, (s.core c).lastSid = some y ∧ y ≠ l.sid
    (l.phase = .zeroing → l.zeroAt ≤ s.acyc → ∃ t, exec (.zeroisationComplete l.lid) s = .next t ∧ Placed t l ∧
      ∀ c ∈ l.cores, ∃ u, InitialFrame t l c u ∧ (old c → Zeroised t l c u)) ∧
    (l.phase = .zeroing → s.acyc < l.zeroAt → exec (.zeroisationComplete l.lid) s = .next s) ∧
    (l.phase = .waking → l.wakeAt ≤ s.acyc → l.need = 0 → (∃ c ∈ l.cores, s.sgpOff (sgpOf c) = true) →
      ∃ t, exec (.wakeComplete l.lid) s = .next t ∧ (∀ c ∈ l.cores, t.sgpOff (sgpOf c) = false) ∧
        (t.launch l.lid).phase = .zeroing ∧ (t.launch l.lid).zeroAt = s.acyc + 2048) ∧
    (l.phase = .placing → l.need = 0 → l.bodies = true → l.lost = [] → l.imageBad = none → s.dist.inq = [] →
      ((∃ c ∈ l.cores, s.sgpOff (sgpOf c) = true) → ∃ t, exec (.placementReadComplete l.lid) s = .next t ∧
        (t.launch l.lid).phase = .waking) ∧
      ((∀ c ∈ l.cores, s.sgpOff (sgpOf c) = false) → (∃ c ∈ l.cores, old c) →
        ∃ t, exec (.placementReadComplete l.lid) s = .next t ∧ (t.launch l.lid).phase = .zeroing ∧
          (t.launch l.lid).zeroAt = s.acyc + 2048 ∧ t.cores = s.cores) ∧
      ((∀ c ∈ l.cores, s.sgpOff (sgpOf c) = false ∧ ¬old c) →
        ∃ t, exec (.placementReadComplete l.lid) s = .next t ∧ Placed t l ∧ ∀ c ∈ l.cores, (t.core c).acc = (s.core c).acc ∧
          (t.core c).ctr = (s.core c).ctr ∧ ∃ u, InitialFrame t l c u ∧
          ∀ o, o < 64 * u ∨ 64 * u + frameSize l.iclass ≤ o → mget 0 (t.core c).scr o = mget 0 (s.core c).scr o)) ∧
    (∀ r, l.phase = .placing → l.need = 0 → l.bodies = true → l.imageBad = some r → s.dist.inq = [] →
      r.1 ≠ 16 → ∃ t d, exec (.placementReadComplete l.lid) s = .next t ∧ (t.launch l.lid).faulted = true ∧
        t.io.recIn = s.io.recIn ++ [d] ∧ bits d.w0 63 56 = r.1 ∧ d.w2 = r.2.1 ∧ d.w3 = r.2.2)

/-- R309 to R311: computed levels take effect together, and fit what the budget leaves or are all 0; a supergroup idle for
2^20 A-cycles, outside every reserved rectangle, is powered off. -/
def Sys2Proof.Claims.PowerFollowsUse : Prop :=
  ∀ (s : State),
    (∀ lv a, s.dist.newLevels = some (lv, a) → s.dist.recompute = false → exec .powerLevelApply s =
      .next { s with dist := { s.dist with levels := lv, newLevels := none, recompute := false } }) ∧
    (let on := (List.range 32).filter fun g => s.sgpOff g = false
     let watts := (on.map fun g => 12 + 7 * (mget 15 s.powerLevels g + 1)).sum
     watts ≤ 2 * (s.dist.budget - 400) ∨ ∀ g ∈ on, mget 15 s.powerLevels g = 0) ∧
    (∀ g, g < 32 → s.sgpOff g = false →
      (s.sgpIdle g = true → mget 0 s.dist.idleSince g + 2 ^ 20 ≤ s.acyc → ∃ t, exec (.supergroupPowerOff g) s = .next t ∧
        t.sgpOff g = true ∧ t.cores = s.cores) ∧
      (s.sgpIdle g = true → s.acyc < mget 0 s.dist.idleSince g + 2 ^ 20 → exec (.supergroupPowerOff g) s = .next s) ∧
      (s.sgpIdle g = false → ∃ t, exec (.supergroupPowerOff g) s = .next t ∧ t.sgpOff g = false ∧
        mget 0 t.dist.idleSince g = s.acyc))

/-- R310: the levels are 15 for every powered supergroup, then lowered by one as long as the powers sum to more than the budget
leaves: each time that of the lowest class, among those the highest level, among those the highest number; a supergroup turned off
has them computed anew. -/
def Sys2Proof.Claims.LevelsAreLoweredInOrder : Prop :=
  ∀ (s : State),
    let on := (List.range 32).filter fun g => s.sgpOff g = false
    let level := fun (path : List Nat) (g : Nat) => 15 - path.count g
    let above := fun (path : List Nat) => 2 * (s.dist.budget - 400) < (on.map fun g => 2 * 6 + 7 * (level path g + 1)).sum
    let before := fun (path : List Nat) (g h : Nat) => classAt s g < classAt s h ∨ classAt s g = classAt s h ∧
      (level path h < level path g ∨ level path h = level path g ∧ h < g)
    (∃ path : List Nat, (∀ g ∈ on, mget 15 s.powerLevels g = level path g) ∧
      (∀ i (h : i < path.length), let done := path.take i
        above done ∧ path[i] ∈ on ∧ 0 < level done path[i] ∧
          ∀ g ∈ on, 0 < level done g → g ≠ path[i] → before done path[i] g) ∧
      (above path → ∀ g ∈ on, level path g = 0)) ∧
    (∀ g, g < 32 → s.sgpOff g = false → s.sgpIdle g = true → mget 0 s.dist.idleSince g + 2 ^ 20 ≤ s.acyc →
      s.dist.newLevels = none →
      ∃ t, exec (.supergroupPowerOff g) s = .next t ∧ t.dist.newLevels = some (t.powerLevels, s.acyc))

/-- Power levels fit the budget and idle supergroups are powered off. -/
def Obligations.PowerFollowsUse : Prop := Claims.PowerFollowsUse ∧ Claims.LevelsAreLoweredInOrder

/-- R317 to R320, R255, R336: a sweep asks every node once; a launch whose two sweeps in succession give the same balanced
sums, with nothing active, ends: its cores hold it no more. -/
def Sys2Proof.Claims.SweepsFindTheEnd : Prop :=
  ∀ (s : State) (lid : BitVec 32),
    (s.dist.sweep.on = false → s.dist.sweep.at_ + 512 ≤ s.fcyc → ∃ t, exec (.terminationSweep .start) s = .next t ∧
      t.dist.sweep.on = true ∧ t.dist.sweep.asked = [] ∧ t.dist.sweep.at_ = s.fcyc ∧
      ((s.launch lid).phase = .resident → s.dist.launches = [(lid.toNat, s.launch lid)] → (s.launch lid).lid = lid →
        t.dist.sweep.sums = [(lid.toNat, (0, 0, true, false))])) ∧
    (∀ n a b idle work, n < 2048 → s.dist.sweep.on = true → n ∉ s.dist.sweep.asked →
      s.dist.sweep.sums = [(lid.toNat, (a, b, idle, work))] → n ∈ (s.launch lid).nodes →
      let k := mget {} (s.core n).ni.counts lid.toNat
      ∃ t, exec (.terminationSweep (.node n)) s = .next t ∧ t.dist.sweep.asked = n :: s.dist.sweep.asked ∧
        t.dist.sweep.sums = [(lid.toNat, (a + k.s, b + k.r, idle && !s.coreActive n lid, work || k.worked))]) ∧
    (∀ a b idle work, s.dist.sweep.on = true → s.dist.sweep.sums = [(lid.toNat, (a, b, idle, work))] →
      (∀ n ∈ (s.launch lid).nodes, n ∈ s.dist.sweep.asked) → s.hasLaunch lid = true → (s.launch lid).phase = .resident →
      s.dist.waves = [] →
      let l := s.launch lid
      (l.faulted = false → l.frozen = .no → idle = true → l.lastIdle = true → a = b → l.lastS = some (a, b) → l.openEps = [] →
        ∃ t, exec (.terminationSweep .decide) s = .next t ∧ (t.launch lid).phase = .over ∧ t.dist.sweep.on = false ∧
          ∀ c ∈ l.cores, lid ∉ (t.core c).lids) ∧
      (a ≠ b → ∃ t, exec (.terminationSweep .decide) s = .next t ∧ (t.launch lid).phase = .resident ∧
        (t.launch lid).lastS = some (a, b) ∧ t.cores = s.cores))

/-- R317 to R320: a node answers idle only if nothing keeps it active, donation units as well as cores; a launch stays on its cores
after a sweep that is not idle, or follows one that was not, or whose sums differ from each other or from the last, or while the
host has not closed an ingress word that it binds; what ends leaves nothing in its donation units. -/
def Sys2Proof.Claims.ActivityHoldsTheEnd : Prop :=
  ∀ (s : State) (lid : BitVec 32), s.dist.sweep.on = true →
    (∀ n a b idle work, n ∉ s.dist.sweep.asked → s.dist.sweep.sums = [(lid.toNat, (a, b, idle, work))] → n ∈ (s.launch lid).nodes →
      let answers := fun (k : Count) (i : Bool) => ∃ t, exec (.terminationSweep (.node n)) s = .next t ∧
        t.dist.sweep.asked = n :: s.dist.sweep.asked ∧ t.dist.sweep.sums = [(lid.toNat, (a + k.s, b + k.r, i, work || k.worked))]
      (n < 2048 → let k := mget {} (s.core n).ni.counts lid.toNat
        (coreKeepsRunning s n lid → answers k false) ∧ (¬coreKeepsRunning s n lid → answers k idle)) ∧
      (∀ g, n = 2048 + g → g < 128 → let k := mget {} (s.unit g).counts lid.toNat
        (unitKeepsRunning s g lid → answers k false) ∧ (¬unitKeepsRunning s g lid → answers k idle))) ∧
    (∀ a b idle work, s.dist.sweep.sums = [(lid.toNat, (a, b, idle, work))] → s.hasLaunch lid = true → (s.launch lid).phase = .resident →
      s.dist.waves = [] →
      let l := s.launch lid
      let bound := l.nested = false ∧ l.w 10 ≠ 0 ∧ ∃ e < 256, bitOf (l.imgWord 10 (32 * e + 16)) 63 = true ∧ e ∉ l.closed
      let asked := ∀ n ∈ l.nodes, n ∈ s.dist.sweep.asked
      (¬asked → exec (.terminationSweep .decide) s = .next s) ∧
      (asked → idle = false ∨ l.lastIdle = false ∨ a ≠ b ∨ l.lastS ≠ some (a, b) ∨ bound →
        ∃ t, exec (.terminationSweep .decide) s = .next t ∧ (t.launch lid).phase = .resident ∧ (t.launch lid).lastS = some (a, b) ∧
          (t.launch lid).lastIdle = idle ∧ t.cores = s.cores ∧ t.dist.sweep.on = false) ∧
      (asked → idle = true → l.lastIdle = true → a = b → l.lastS = some (a, b) → ¬bound → l.faulted = false → l.frozen = .no →
        ∃ t, exec (.terminationSweep .decide) s = .next t ∧ (t.launch lid).phase = .over ∧
          ∀ c ∈ l.cores, (t.unit (groupOf c)).deque lid = []))

/-- Two balanced sweeps with nothing active end a launch. -/
def Obligations.SweepsFindTheEnd : Prop := Claims.SweepsFindTheEnd ∧ Claims.ActivityHoldsTheEnd

/-- R325, R336, R337: a launch that fails is stopped where it is on its cores and ends where it is not; one that reports no
work for 2^LHANG A-cycles is frozen in place, its wait map is recorded, and it fails unless the debugger, enabled on it, holds it (log
entry 40). -/
def Sys2Proof.Claims.FailedAndHungLaunchesStop : Prop :=
  ∀ (s : State) (lid : BitVec 32), s.hasLaunch lid = true → (s.launch lid).nested = false →
    let l := s.launch lid
    (l.faulted = true → l.frozen = .no →
      (l.phase = .queued → l.need = 0 → ∃ t, exec (.faultedEnd lid) s = .next t ∧ (t.launch lid).phase = .over) ∧
      (l.phase = .resident → ∃ t, exec (.faultedEnd lid) s = .next t ∧ (t.launch lid).phase = .ending ∧
        ∀ c ∈ l.cores, (t.core c).stopped = true ∧ ∀ k < 16, (s.ctx c k).bound = true → (s.ctx c k).lid = lid →
          (s.ctx c k).work.active = false → (t.ctx c k).bound = false)) ∧
    (l.phase = .resident → l.faulted = false → l.waitMapped = false →
      (l.frozen = .no → l.busyAt + 2 ^ l.lhang ≤ s.acyc → s.canFreeze lid = true → bitOf s.dist.frz 62 = false →
        ∃ t, exec (.hangTimeout lid) s = .next t ∧ (∃ w, t.dist.wave = some w ∧ w.op = 1 ∧ w.lid = lid) ∧
          ∀ c ∈ l.cores, (t.core c).stopped = true ∧ (t.core c).frozen = true) ∧
      (l.frozen = .no → s.acyc < l.busyAt + 2 ^ l.lhang → exec (.hangTimeout lid) s = .next s) ∧
      (l.frozen = .inPlace → l.hung = true → ∃ t, exec (.hangTimeout lid) s = .next t ∧ Records s t 25 ∧
        (t.launch lid).waitMapped = true ∧ ((t.launch lid).faulted = true ↔ ¬(s.debugged lid = true ∧ bitOf s.dist.dbgCtl 60 = true))))

/-- R337: the wait map of a launch that hung and stands frozen in place: its header, then what waits, by core and kind, as far as the
capacity goes, each entry as the table lays it out; no other byte of memory changes, and HANG records how many entries follow the
header. (The order of entries of one kind of one core is log entry 40.) -/
def Sys2Proof.Claims.WaitMapsListWhatWaits : Prop :=
  ∀ (s : State) (lid : BitVec 32),
    let l := s.launch lid
    s.hasLaunch lid = true → l.phase = .resident → l.nested = false → l.faulted = false → l.waitMapped = false → l.hung = true →
    l.frozen = .inPlace →
      let e := bits s.io.flog 42 20 * 2 ^ 20 + 64 * l.sid.toNat
      let base := (s.pword (e + 40)).toNat
      let cap := bits (s.pword (e + 48)) 31 0
      let es := waitList s l (s.waveSet lid)
      let n := min es.length (cap - 1)
      let all := [BitVec.ofNat 64 n, BitVec.ofNat 64 lid.toNat, BitVec.ofNat 64 (es.length - n), 0] :: es.take n
      l.lid = lid → ∃ t r, exec (.hangTimeout lid) s = .next t ∧ t.io.recIn = s.io.recIn ++ [r] ∧ bits r.w0 63 56 = 25 ∧
        (cap = 0 → t.mem = s.mem ∧ r.w3 = 0) ∧
        (cap ≠ 0 → r.w3 = BitVec.ofNat 64 n ∧ (∀ i ≤ n, ∀ j < 4, t.pword (base + 32 * i + 8 * j) = (all.getD i []).getD j 0) ∧
          ∀ a, a < base ∨ base + 32 * (n + 1) ≤ a → Memory.read t.mem a = Memory.read s.mem a)

/-- R326, R327: a record takes the next number of its space and is appended to the space's log, whose HEAD advances, with a
notification to the owner; with the log full it is dropped and counted. (The number of the notification is log entry 14.) -/
def Sys2Proof.Claims.FaultRecordsAreAppended : Prop :=
  ∀ (s : State) (k : Nat) (r : FRec), s.io.recIn[k]? = some r →
    let sid := bits r.w0 47 32
    let seq := mget 0 s.io.seqs sid
    let e := bits s.io.flog 42 20 * 2 ^ 20 + 64 * sid
    let base := (s.pword e).toNat
    let n := bits (s.pword (e + 8)) 31 0
    let head := s.pword (e + 16)
    let takes := fun (f : State → Prop) => ∃ t, exec (.faultRecordAppend k) s = .next t ∧ t.io.recIn = s.io.recIn.eraseIdx k ∧
      mget 0 t.io.seqs sid = (seq + 1) % 2 ^ 48 ∧ f t
    (base = 0 ∨ (head - s.pword (e + 24)).toNat = n →
      takes fun t => t.pword (e + 32) = s.pword (e + 32) + 1) ∧
    (base ≠ 0 → (head - s.pword (e + 24)).toNat ≠ n →
      let a := base + 64 * (head.toNat % n)
      takes fun t => t.pword (e + 16) = head + 1 ∧ (a + 64 ≤ e + 16 ∨ e + 24 ≤ a → ∀ j < 8, t.pword (a + 8 * j) = recWordAt r seq j) ∧
        (bitOf s.io.own 63 = true → t.io.notes = s.io.notes ++ [(1, BitVec.ofNat 64 (sid * 2 ^ 48 + seq))]))

/-- Failed and hung launches stop, and fault records are appended to their space’s log. -/
def Obligations.FailedAndHungLaunchesStop : Prop := Claims.FailedAndHungLaunchesStop ∧ Claims.WaitMapsListWhatWaits ∧ Claims.FaultRecordsAreAppended

/-- R330 to R332, R336: the owner's wave or freeze stops a resident launch: its cores bind and issue no more and keep packets
in their inboxes; when the drain is done the launch is read out, or stands frozen in place; a threadlet that stays bound
2^LHANG A-cycles fails the wave and the launch. -/
def Sys2Proof.Claims.WavesStopAndDrain : Prop :=
  ∀ (s : State) (lid : BitVec 32),
    (∀ p, ∀ i ∈ [(Instr.duskWave p lid, 0), (Instr.freezeInPlace p lid, 1)], ownerOnly s p i.1 ∧
      (owns s p → bitOf s.dist.frz 62 = false → s.canFreeze lid = true → ∃ t w, exec i.1 s = .next t ∧ t.dist.wave = some w ∧
        w.op = i.2 ∧ w.lid = lid ∧ w.stopAt = s.acyc ∧ bitOf t.dist.frz 62 = true ∧
        (∀ m ∈ s.waveSet lid, (t.launch m).frozen = .stopping) ∧
        ∀ c ∈ (s.launch lid).cores, (t.core c).stopped = true ∧ (t.core c).park = true ∧ (t.core c).frozen = true) ∧
      (owns s p → bitOf s.dist.frz 62 = true → exec i.1 s = .next (heardOk s p))) ∧
    (∀ w, s.dist.wave = some w → w.lid = lid → (s.launch lid).frozen = .stopping →
      let l := s.launch lid
      let done := l.cores.all (s.drained l.cores) && l.groups.all (s.unitDrained l.cores (s.waveSet lid))
      let done1 := fun (t : State) => t.dist.wave = none ∧ bitOf t.dist.frz 62 = false
      (done = false → exec .waveDrainComplete s = .next s) ∧
      (done = true → w.op = 1 → ∃ t, exec .waveDrainComplete s = .next t ∧ done1 t ∧ t.cores = s.cores ∧ t.mem = s.mem ∧
        ∀ m ∈ s.waveSet lid, (t.launch m).frozen = .inPlace) ∧
      (done = true → w.op = 0 → ∃ t, exec .waveDrainComplete s = .next t ∧ done1 t ∧
        (∀ m ∈ s.waveSet lid, (t.launch m).frozen = .image) ∧ (∃ i ∈ t.dist.images, i.lid = lid) ∧
        ∀ c ∈ l.cores, (t.core c).lids = [] ∧ (t.core c).scr = [] ∧ (t.core c).frozen = true ∧ (t.core c).inbox = (s.core c).inbox) ∧
      (s.hasLaunch lid = true → w.stopAt + 2 ^ l.lhang ≤ s.acyc → (∃ c ∈ l.cores, ∃ q ∈ (s.core c).ctxs, q.2.bound = true) →
        ∃ t, exec .waveFailure s = .next t ∧ done1 t ∧ (t.launch lid).faulted = true ∧ Records s t 26))

/-- R333, R334: what a readout writes at `dst_img`: the header, for every core its block with the row map, owner words, format
registers, windows, counters of the space, deferred requests, tokens, frame pointers among them in image form, accumulators, and
the rows of scratch written since placement, with every frame pointer that a word with P = 1 or a token of the token area holds in
image form; then how many task control blocks each group holds, and the launch list. -/
def Sys2Proof.Claims.ReadoutsWriteTheImage : Prop :=
  ∀ (s : State) (w : Wave),
    let l := s.launch w.lid
    s.dist.wave = some w → w.op = 0 → l.frozen = .stopping → l.cores.all (s.drained l.cores) = true →
    l.groups.all (s.unitDrained l.cores (s.waveSet w.lid)) = true → s.hasLaunch w.lid = true → l.lid = w.lid →
      let base := bits s.dist.img 42 20 * 2 ^ 20
      let count := l.width * l.height
      let ls := sortBy (fun (a b : Launch) => a.depth < b.depth || (a.depth = b.depth && a.lid ≤ b.lid)) ((s.waveSet l.lid).map s.launch)
      let section_ := 0x100 + count * 0x140000
      let list := up64 (section_ + l.groups.length * 4160)
      let mine := fun (p : Packet) => p.src.port = 0 && p.src.pkg = s.pkg && l.inRect p.src.core.toNat && ls.any fun m => m.lid = p.lid
      ∃ t, exec .waveDrainComplete s = .next t ∧
        (∀ k < 32, t.pword (base + 8 * k) = imageHeader s l ls (s.parkedOf mine).length list k) ∧
        (∀ i c, l.cores[i]? = some c → let x := s.core c
          let at_ := fun (o : Nat) => t.pword (base + 0x100 + i * 0x140000 + o)
          let byteAt := fun (o : Nat) => Memory.read t.mem (base + 0x100 + i * 0x140000 + o)
          (∀ r < 16384, (byteAt (0x100 + r / 8)).getLsbD (r % 8) = mget false x.touched r) ∧
          (∀ j < 8, at_ (0x900 + 8 * j) = mget 0 x.owner j) ∧ (∀ j < 16, at_ (0x940 + 8 * j) = mget 0 x.fmt j) ∧
          (∀ j < 32, at_ (0x9c0 + 8 * j) = mget 0 x.win j) ∧
          (∀ j < 16, at_ (0xac0 + 8 * j) = if bits (mget 0 x.ctrCfg j) 23 8 = l.sid.toNat then mget 0 x.ctr j else 0) ∧
          (∀ k < 64, ∀ d, x.byBank[k]? = some d → at_ (0xc08 + 32 * k) = inImage s l (contFp (bodyCont d.pkt.body))) ∧
          (∀ k < 256, ∀ y, (x.tokens.filter fun y => y.place.isNone)[k]? = some y →
            at_ (0x1400 + 16 * k) = inImage s l y.fp ∧ bits (at_ (0x1408 + 16 * k)) 31 0 = y.pos.toNat) ∧
          (∀ k < 16, ∀ y, x.hold[k]? = some y → at_ (0x2400 + 16 * k) = inImage s l y.fp ∧ bits (at_ (0x2408 + 16 * k)) 31 0 = y.pos.toNat) ∧
          (∀ j < 0x8000, byteAt (0x30000 + j) = mget 0 x.acc j) ∧
          (∀ r < 16384, mget false x.touched r = true → ∀ k < 8, let o := rowAt r + 8 * k
            at_ (0x40000 + o) = if x.isPtr (o / 8) = true ∨ ∃ y ∈ x.tokens, ∃ j, y.place = some j ∧ o = x.areaAt l j then
              inImage s l (x.scrWord o) else x.scrWord o)) ∧
        (∀ i g, l.groups[i]? = some g → t.pword (base + section_ + i * 4160) =
          BitVec.ofNat 64 (((s.unit g).deques.filter fun d => ls.any fun m => m.lid = d.1).map (·.2.length)).sum) ∧
        (∀ k m, ls[k]? = some m → t.pword (base + list + 16 * k) = fieldsWord [(m.lid.toNat, 32), (m.depth, 0)] ∧
          t.pword (base + list + 16 * k + 8) = m.desc)

/-- A Dusk wave or freeze stops, drains and then images or freezes a launch. -/
def Obligations.WavesStopAndDrain : Prop := Claims.WavesStopAndDrain ∧ Claims.ReadoutsWriteTheImage

/-- R330, R332, R335: a thaw lets a launch frozen in place run on: its packets leave the inboxes in their order and its cores
bind again; a restore of an image waits for a decision; an old core of a restored launch sends the launch's packets on to the
core that took its place. (Which packets an old core sends on is log entry 39.) -/
def Sys2Proof.Claims.ThawRestoreAndForward : Prop :=
  ∀ (s : State) (lid : BitVec 32),
    (∀ p, ownerOnly s p (.thaw p lid) ∧ ownerOnly s p (.restore p lid) ∧
      (owns s p → bitOf s.dist.frz 62 = false → s.hasLaunch lid = true → (s.launch lid).nested = false →
        ((s.launch lid).frozen = .inPlace → ∃ t, exec (.thaw p lid) s = .next t ∧
          (∀ m ∈ s.waveSet lid, (t.launch m).frozen = .no ∧ (t.launch m).busyAt = s.acyc) ∧
          ∀ c ∈ (s.launch lid).cores, (t.core c).frozen = false ∧ (t.core c).stopped = false ∧ (t.core c).park = false ∧
            (t.core c).inbox = [] ∧ ((∀ q ∈ (s.core c).inbox, isTask q.body = false) →
              (t.core c).inq = (s.core c).inq ++ (s.core c).inbox)) ∧
        ((s.launch lid).frozen = .image → ∃ t, exec (.restore p lid) s = .next t ∧ bitOf t.dist.frz 62 = true ∧
          t.cores = s.cores ∧ ∀ m ∈ s.waveSet lid, (t.launch m).frozen = .restoring))) ∧
    (∀ c d w p rest, c < 2048 → s.dist.waves = [w] → w.lid = lid → w.oldCores = [(c, d)] → (s.core c).inbox = p :: rest →
      (p.sid = (s.launch lid).sid → ∃ t, exec (.restoreForward c) s = .next t ∧ (t.core c).inbox = rest ∧
        ∃ q, (t.router c).merge = (s.router c).merge ++ [(0, q)] ∧ q.id = p.id ∧
          (p.dst = ⟨s.pkg, BitVec.ofNat 11 c, 0⟩ → q.dst = ⟨s.pkg, BitVec.ofNat 11 d, 0⟩)) ∧
      (p.sid ≠ (s.launch lid).sid → isTask p.body = false → ∃ t, exec (.restoreForward c) s = .next t ∧
        (t.core c).inbox = rest ∧ (t.core c).inq = (s.core c).inq ++ [p]))

/-- R308, R335: how a restore is placed: when nothing that reserves is ready, the first restore of a priority that has a rectangle goes
ahead of the queues of that priority, to its old rectangle with PIN, else to the free one with the best keys, its own cores not
counted as taken by it; it then wakes what is off, waits 2,048 A-cycles where a core is not clean, and stands on the new cores at
their turn. -/
def Sys2Proof.Claims.RestoresArePlaced : Prop :=
  ∀ (s : State),
    let waits := fun (p : Nat) (l : Launch) => l ∈ s.launches ∧ l.frozen = .restoring ∧ l.nested = false ∧ l.faulted = false ∧
      l.reserved = none ∧ l.prio = p
    let fits := fun (l : Launch) (o : Nat × Nat) =>
      (bitOf (l.w 14) 41 = true → o = (l.ox, l.oy)) ∧
      (bitOf (l.w 14) 41 = false → freeBut s l l.lid o ∧
        ∀ b, freeBut s l l.lid b → keysLe (rectKeys s o l.width l.height) (rectKeys s b l.width l.height))
    (∀ p lid o, s.restoreReady p = some (lid, o) → ∃ l, waits p l ∧ l.lid = lid ∧ fits l o ∧
      ∀ m, waits p m → m.seq < l.seq → bitOf (m.w 14) 41 = false ∧ ∀ b, ¬freeBut s m m.lid b) ∧
    (∀ p, s.restoreReady p = none → ∀ l, waits p l → bitOf (l.w 14) 41 = false ∧ ∀ b, ¬freeBut s l l.lid b) ∧
    (∀ p lid o, s.dist.decideAt ≤ s.acyc → s.reservedReady = none → p < 8 → s.restoreReady p = some (lid, o) →
      (∀ r, p < r → s.restoreReady r = none ∧ s.scan r = none) → s.hasLaunch lid = true → (s.launch lid).faulted = false →
      let l := s.launch lid
      let new := rectCores o.1 o.2 l.width l.height
      let old := fun (c : Nat) => (s.core c).woken = true ∨ ∃ y, (s.core c).lastSid = some y ∧ y ≠ l.sid
      let leaves := fun (f : State → Prop) => ∃ t, exec .placementDecision s = .next t ∧ t.dist.decideAt = s.acyc + 32 ∧
        t.dist.used = s.dist.used ∧ f t
      ((∃ c ∈ new, s.sgpOff (sgpOf c) = true) → leaves fun t => t.cores = s.cores ∧ (t.launch lid).reserved = some o ∧
        (t.launch lid).wakeAt = s.acyc + (rectKeys s o l.width l.height).1) ∧
      ((∀ c ∈ new, s.sgpOff (sgpOf c) = false) → (∃ c ∈ new, old c) → leaves fun t => t.cores = s.cores ∧
        (t.launch lid).reserved = some o ∧ (t.launch lid).zeroAt = s.acyc + 2048) ∧
      (∀ i, (∀ c ∈ new, s.sgpOff (sgpOf c) = false ∧ ¬old c) → s.dist.images.find? (fun i => i.lid = lid) = some i → l.lid = lid →
        lid ∈ s.waveSet lid → l.ox + l.width ≤ 64 → l.oy + l.height ≤ 32 → leaves fun t => (t.launch lid).frozen = .no ∧
          (s.dist.launches = [(lid.toNat, l)] → (t.launch lid).ox = o.1 ∧ (t.launch lid).oy = o.2) ∧
          ∀ k c d, l.cores[k]? = some c → new[k]? = some d → (t.core d).lids = (mget {} i.cores k).lids ∧
            (t.core d).frozen = false ∧ (t.core d).stopped = false ∧ (c ∉ new → (t.core c).fwdTo = some d)))

/-- R334, R335: what a core block brings back: the rows of its row map, with frame pointers in image form made those of the new place,
and every other row 0, full, no pointer; owner words, format registers and windows; accumulators. The new cores stand where the old
ones did in the rectangle; the example of R335. -/
def Sys2Proof.Claims.BlocksAreReadBack : Prop :=
  (∀ (s : State) (l : Launch) (o : Nat × Nat) (a : Nat) (x : Core), (∀ y ∈ x.tokens, y.place = none) →
    let y := s.fromBlock l o a x
    let word := fun (k : Nat) => s.pword (a + k)
    let byte := fun (k : Nat) => Memory.read s.mem (a + k)
    (∀ r < 16384, ∀ k < 8, let w := (rowAt r + 8 * k) / 8
      let marked := (byte (0x100 + r / 8)).getLsbD (r % 8)
      let f := (byte (0x18000 + w / 4)).getLsbD (2 * (w % 4))
      let p := (byte (0x18000 + w / 4)).getLsbD (2 * (w % 4) + 1)
      (marked = true → y.full w = f ∧ y.isPtr w = p ∧
        y.scrWord (8 * w) = if p then fromImage s.pkg l o (word (0x40000 + 8 * w)) else word (0x40000 + 8 * w)) ∧
      (marked = false → y.full w = true ∧ y.isPtr w = false ∧ y.scrWord (8 * w) = 0)) ∧
    (∀ j < 8, mget 0 y.owner j = word (0x900 + 8 * j)) ∧ (∀ j < 16, mget 0 y.fmt j = word (0x940 + 8 * j)) ∧
    (∀ j < 32, mget 0 y.win j = word (0x9c0 + 8 * j)) ∧ (∀ j < 0x8000, mget 0 y.acc j = byte (0x30000 + j))) ∧
  (∀ (s : State) (l : Launch) (o : Nat × Nat) (f : Word), l.ox + l.width ≤ 64 → l.oy + l.height ≤ 32 → o.1 + l.width ≤ 64 → o.2 + l.height ≤ 32 →
    inImage s l f ≠ f → fromImage s.pkg l o (inImage s l f) =
      withCore f (coreAt (o.1 + (cxOf (fpCore f) - l.ox)) (o.2 + (cyOf (fpCore f) - l.oy)))) ∧
  (∀ (s : State) (l : Launch), s.pkg = 0 → l.ox = 36 → l.oy = 20 → l.width = 2 → l.height = 2 → l.frs = 0x40000 →
    inImage s l 0x00002b2838040340 = 0x0000020838040341 ∧ fromImage 0 l (8, 4) 0x0000020838040341 = 0x00000a4838040340)

/-- R340: the owner's `dbg_go` moves a held token to class 3 of its core's ready queue, or lets a loader or storer core that
stands at an `ebreak` run on; while its launch stands frozen in place the owner can have its wait map written (by which bit is the
model's choice, log entry 40). That one write lets both stream cores run on is log entry 41. -/
def Sys2Proof.Claims.TheDebuggerReleases : Prop :=
  ∀ (s : State) (p : Party) (v : Word),
    let c := bits v 42 32
    ownerOnly s p (.dbgGo p v) ∧ ownerOnly s p (.dbgGoLoader p v) ∧
    (owns s p → bitOf v 63 = false → bitOf v 62 = true →
      let l := s.launch (s.dist.dbgCtl.extractLsb' 0 32)
      s.debugged l.lid = true → s.hasLaunch l.lid = true → l.frozen = .inPlace →
        exec (.dbgGo p v) s = .next ((heardOk s p).waitMap l ((heardOk s p).waveSet l.lid)).2) ∧
    (owns s p → bitOf v 63 = false → bitOf v 62 = false → exec (.dbgGo p v) s = .next (heardOk s p) ∧ exec (.dbgGoLoader p v) s = .next (heardOk s p)) ∧
    (owns s p → bitOf v 63 = true →
      (∀ t, (s.core c).hold[bits v 3 0]? = some t → (s.core c).tokens.length < 256 → ∃ x, exec (.dbgGo p v) s = .next x ∧
        (x.core c).hold = (s.core c).hold.eraseIdx (bits v 3 0) ∧
        ∃ q, mget [] (x.core c).ready 3 = mget [] (s.core c).ready 3 ++ [q] ∧ q.fp = t.fp ∧ q.pos = t.pos) ∧
      (∃ x, exec (.dbgGoLoader p v) s = .next x ∧ ∀ st,
        ((s.core c).lsCore st).halted = true → ((x.core c).lsCore st).running = true ∧ ((x.core c).lsCore st).halted = false ∧
          ((x.core c).lsCore st).pc = ((s.core c).lsCore st).pc) ∧
      (∃ x, exec (.dbgGoLoader p v) s = .next x ∧ ∀ st,
        ((s.core c).lsCore st).halted = false → (x.core c).lsCore st = (s.core c).lsCore st))

/-- Thaw, restore, forwarding and the debugger let a launch run on. -/
def Obligations.ThawRestoreAndDebuggerRelease : Prop := Claims.ThawRestoreAndForward ∧ Claims.RestoresArePlaced ∧ Claims.BlocksAreReadBack ∧ Claims.TheDebuggerReleases

/-- R346 to R350: a claim with a nonce succeeds where no one owns the device, or for the party it is handed to, and starts a new
epoch; a handover names the next owner, a release or 85,000,000 A-cycles of silence end ownership; the heartbeat counts for
the BMC; the budget is kept within 1,200 to 2,400 W. Only the owner's writes are obeyed; claims of one A-cycle are served in
party order. (That a refused claim completes without error and that the timeout counts as a change of owner are log entry 43.) -/
def Obligations.OwnershipChangesHands : Prop :=
  ∀ (s : State) (p : Party),
    let own := fun (t : State) => t.io.own
    (∀ nonce : BitVec 32,
      (∀ q, s.io.claimAt = some (s.acyc, q) → Party.code p < q → exec (.ownershipClaim p nonce) s = .next s) ∧
      ((∀ t q, s.io.claimAt = some (t, q) → t ≠ s.acyc ∨ q ≤ Party.code p) →
      (s.linked p = false → exec (.ownershipClaim p nonce) s = .next ((s.heard p).status true)) ∧
      (s.linked p = true → nonce ≠ 0 →
        bitOf s.io.own 63 = false ∨ (bitOf s.io.own 58 = true ∧ bits s.io.own 60 59 = Party.code p) →
        ∃ t, exec (.ownershipClaim p nonce) s = .next t ∧ owns t p ∧ bits (own t) 31 0 = nonce.toNat ∧
          bits (own t) 47 32 = (bits s.io.own 47 32 + 1) % 65536 ∧ bitOf (own t) 58 = false ∧ t.io.lastFlit = s.acyc ∧
          bitOf t.dist.dbgCtl 63 = false ∧ t.io.claimAt = some (s.acyc, Party.code p)) ∧
      (s.linked p = true → nonce = 0 ∨ (bitOf s.io.own 63 = true ∧
          ¬(bitOf s.io.own 58 = true ∧ bits s.io.own 60 59 = Party.code p)) →
        exec (.ownershipClaim p nonce) s = .next ((heardOk s p).modIo fun io => { io with claimAt := some (s.acyc, Party.code p) })))) ∧
    (∀ k : BitVec 2, ownerOnly s p (.ownHandover p k) ∧ (owns s p → ∃ t, exec (.ownHandover p k) s = .next t ∧
      bitOf (own t) 58 = true ∧ bits (own t) 60 59 = k.toNat ∧ owns t p ∧ bits (own t) 57 0 = bits s.io.own 57 0)) ∧
    (ownerOnly s p (.ownRelease p) ∧ (owns s p → ∃ t, exec (.ownRelease p) s = .next t ∧ bitOf (own t) 63 = false ∧
      bitOf (own t) 58 = false ∧ bits (own t) 57 0 = bits s.io.own 57 0)) ∧
    ((bitOf s.io.own 63 = true → s.io.lastFlit + 85000000 ≤ s.acyc → ∃ t, exec .ownerTimeout s = .next t ∧
        bitOf (own t) 63 = false ∧ bitOf t.dist.dbgCtl 63 = false) ∧
      (bitOf s.io.own 63 = false ∨ s.acyc < s.io.lastFlit + 85000000 → exec .ownerTimeout s = .next s)) ∧
    ((owns s .bmc → ∃ t, exec .managementHeartbeat s = .next t ∧ t.io.lastFlit = s.acyc) ∧
      (¬owns s .bmc → exec .managementHeartbeat s = .next s)) ∧
    (∀ v : Word, ownerOnly s p (.budgetWrite p v) ∧ (owns s p → ∃ t, exec (.budgetWrite p v) s = .next t ∧
      t.dist.budget = (if bits v 11 0 < 1200 then 1200 else if 2400 < bits v 11 0 then 2400 else bits v 11 0)))

/-- R18, R351, R352: Daybreak runs once, takes the package's identity from the BMC, checks every image, zeroises the cores and the slices, and records what it measured, or
stops at the first image that fails; the counter of versions only rises, and never past a running image; an attestation
report holds the measurements and its signature. (What STAGE numbers is log entry 43; the firmware list, the package identity
and the functions that hash and sign are log entry 10.) -/
def Sys2Proof.Claims.DaybreakAndAttestation : Prop :=
  ∀ (s : State) (p : Party),
    (bitOf s.io.dbk 63 = false → bitOf s.io.dbk 62 = false →
      ((∀ f ∈ s.io.firmware, imageGood s.io.svn f = true) → ∃ t, exec .daybreak s = .next t ∧ bitOf t.io.dbk 63 = true ∧ t.pkg = Config.packageId ∧
        bitOf t.io.own 63 = false ∧ t.io.measures = s.firmwareBytes.map (fun b => natLe 32 (Config.sha256 b).toNat) ∧
        (∀ c, (t.core c).scr = [] ∧ (t.core c).empty = [] ∧ (t.core c).ptr = [] ∧ (t.core c).acc = []) ∧
        (∀ n, (t.slice n).lines = [] ∧ (t.slice n).wbs = [] ∧ (t.slice n).stc = []) ∧ t.mem = s.mem) ∧
      (∀ k, s.io.firmware.findIdx? (fun f => !imageGood s.io.svn f) = some k → ∃ t, exec .daybreak s = .next t ∧
        bitOf t.io.dbk 63 = false ∧ bitOf t.io.dbk 62 = true ∧ bits t.io.dbk 7 0 = k % 256 ∧ t.cores = s.cores)) ∧
    (bitOf s.io.dbk 63 = true ∨ bitOf s.io.dbk 62 = true → exec .daybreak s = .next s) ∧
    (∀ v : Word, ownerOnly s p (.svnBurn p v) ∧ (owns s p → s.io.firmware ≠ [] → v.toNat ≤ 64 →
      ((∀ f ∈ s.io.firmware, v.toNat ≤ f.2.1) → ∃ t, exec (.svnBurn p v) s = .next t ∧
        t.io.svn = if s.io.svn < v.toNat then v.toNat else s.io.svn) ∧
      ((∃ f ∈ s.io.firmware, f.2.1 < v.toNat) → exec (.svnBurn p v) s = .next (heardOk s p)))) ∧
    ((s.linked p = true → bitOf s.io.attCtl 62 = false → ∃ t, exec (.attestationRequest p) s = .next t ∧
        bitOf t.io.attCtl 62 = true ∧ bitOf t.io.attCtl 63 = false) ∧
      (s.linked p = true → bitOf s.io.attCtl 62 = true → exec (.attestationRequest p) s = .next (heardOk s p)) ∧
      (s.linked p = false → exec (.attestationRequest p) s = .next ((s.heard p).status true))) ∧
    ((bitOf s.io.attCtl 62 = true → ∃ t, exec .attestationComplete s = .next t ∧ bitOf t.io.attCtl 62 = false ∧
        t.io.attRep = s.attBody ++ padTo 7856 (Config.slhSign s.io.skey s.attBody)) ∧
      (bitOf s.io.attCtl 62 = false → exec .attestationComplete s = .next s))

/-- R351, R352: Daybreak passes only images whose public key has the vendor's hash, whose version is no less than the fuses' and
whose signature verifies; the first that fails one of the three stops it; where all pass, the identity key is derived from the device secret with all measurements as salt, and every
format register is 0. An attestation report has the head, eight measurements, the challenge and the identity's public key at
their places, and a signature over bytes 0 to 383. (The functions, and how the head lays out its fields, are log entry 10.) -/
def Sys2Proof.Claims.DaybreakChecksAndReports : Prop :=
  ∀ (s : State),
    (bitOf s.io.dbk 63 = false → bitOf s.io.dbk 62 = false →
      ((∀ f ∈ s.io.firmware, imagePasses s f) → ∃ t, exec .daybreak s = .next t ∧ bitOf t.io.dbk 63 = true ∧
        t.io.skey = Config.hkdf Config.dseed (s.io.firmware.flatMap fun f =>
          natLe 32 (Config.sha256 (Config.imageBytes f.1 f.2.1 f.2.2.1 f.2.2.2)).toNat) ("identity".toList.map fun c => BitVec.ofNat 8 c.toNat) 48 ∧
        ∀ c n, mget 0 (t.core c).fmt n = 0) ∧
      (∀ i (h : i < s.io.firmware.length), ¬imagePasses s s.io.firmware[i] → (∀ j (g : j < i), imagePasses s s.io.firmware[j]) →
        ∃ t, exec .daybreak s = .next t ∧ bitOf t.io.dbk 63 = false ∧ bitOf t.io.dbk 62 = true ∧ t.cores = s.cores ∧ t.io.skey = s.io.skey)) ∧
    (bitOf s.io.attCtl 62 = true → (∀ m ∈ s.io.measures, m.length = 32) → ∃ t, exec .attestationComplete s = .next t ∧
      let rep := t.io.attRep
      let part := fun (a n : Nat) => (rep.drop a).take n
      let pad := fun (n : Nat) (l : List Byte) => l.take n ++ List.replicate (n - l.length) 0
      rep.length = 8240 ∧
      part 0 64 = pad 64 (Config.attHead s.pkg s.io.svn s.io.firmware.length (bits s.io.own 62 61) (bits s.io.own 47 32)) ∧
      (∀ i < 8, part (64 + 32 * i) 32 = s.io.measures.getD i (List.replicate 32 0)) ∧
      part 320 32 = pad 32 s.io.attChal ∧ part 352 32 = pad 32 (Config.slhPublic s.io.skey) ∧
      part 384 7856 = pad 7856 (Config.slhSign s.io.skey (part 0 384)))

/-- R354: the owner's write of `dio_sdel` with GO retires a space no launch holds; when it is done no slice holds a line, a
translation or a reduction of the space, and its fault records are numbered from 0. -/
def Sys2Proof.Claims.SpacesRetire : Prop :=
  ∀ (s : State) (p : Party) (v : Word),
    let sid := v.extractLsb' 0 16
    ownerOnly s p (.spaceRetire p v) ∧
    (owns s p → bitOf v 63 = true → bitOf s.io.sdel 62 = false → (∀ l ∈ s.launches, l.sid = sid → l.phase = .over) →
      ∃ t, exec (.spaceRetire p v) s = .next t ∧ bitOf t.io.sdel 62 = true ∧ t.io.sdel.extractLsb' 0 16 = sid) ∧
    (owns s p → bitOf s.io.sdel 62 = true ∨ (∃ l ∈ s.launches, l.sid = sid ∧ l.phase ≠ .over) →
      exec (.spaceRetire p v) s = .next (heardOk s p)) ∧
    (bitOf s.io.sdel 62 = true → ∃ t, exec .spaceRetireComplete s = .next t ∧ bitOf t.io.sdel 62 = false ∧
      mget 0 t.io.seqs (s.io.sdel.extractLsb' 0 16).toNat = 0 ∧
      ∀ n, (∀ l ∈ (t.slice n).lines, l.sid ≠ s.io.sdel.extractLsb' 0 16) ∧ (∀ e ∈ (t.slice n).stc, e.sid ≠ s.io.sdel.extractLsb' 0 16) ∧
        (∀ e ∈ (t.slice n).cells, e.sid ≠ s.io.sdel.extractLsb' 0 16) ∧ ∀ l ∈ (t.slice n).wbs, l.sid ≠ s.io.sdel.extractLsb' 0 16) ∧
    (bitOf s.io.sdel 62 = false → exec .spaceRetireComplete s = .next s)

/-- R354: the retirement of a space writes each dirty sector of its lines to the address that the line recorded, and nothing else; a
request of it that waits under a ticket completes with the fault bit, and its launch ends faulted. -/
def Sys2Proof.Claims.RetiredSpacesAreWrittenBack : Prop :=
  ∀ (s : State) (n : Nat) (x : Slice) (sid : Half), n < 128 → bitOf s.io.sdel 62 = true → s.io.sdel.extractLsb' 0 16 = sid →
    s.slices = [(n, x)] →
    (∀ l, x.parked = [] → (x.wbs ++ x.lines).filter (fun l => l.sid = sid) = [l] → ∃ t, exec .spaceRetireComplete s = .next t ∧
      ∀ a, Memory.read t.mem a = if l.pa ≤ a ∧ a < l.pa + 256 ∧ l.dirty.getLsbD ((a - l.pa) / 32) = true then mget 0 l.data (a - l.pa)
        else Memory.read s.mem a) ∧
    (∀ k, x.parked = [k] → k.behind = [] → k.pkt.sid = sid → (∀ l ∈ x.wbs ++ x.lines, l.sid ≠ sid) →
      ∃ t, exec .spaceRetireComplete s = .next t ∧ (t.slice n).parked = [] ∧ t.mem = s.mem ∧
        (s.hasLaunch k.pkt.lid = true → k.pkt.src.port ≠ 2 → k.pkt.src.pkg = s.pkg → (t.launch k.pkt.lid).faulted = true) ∧
        ∃ q ∈ (t.router (mergePort k.pkt.dst k.pkt.src).1).merge, q.2.id = k.pkt.id ∧ q.2.dst = k.pkt.src ∧ q.2.fault = true) ∧
    (∀ k, x.parked = [k] → k.pkt.sid ≠ sid → (∀ l ∈ x.wbs ++ x.lines, l.sid ≠ sid) →
      ∃ t, exec .spaceRetireComplete s = .next t ∧ (t.slice n).parked = [k] ∧ t.mem = s.mem)

/-- Daybreak, version fuses, attestation and the retirement of a space. -/
def Obligations.DaybreakAttestationAndRetiredSpaces : Prop := Claims.DaybreakAndAttestation ∧ Claims.DaybreakChecksAndReports ∧ Claims.SpacesRetire ∧ Claims.RetiredSpacesAreWrittenBack

/-- R50, R51, R82, R286, R355: a request to a core's window is served where the protection unit, or the launch's privilege, permits
it, and is refused otherwise; at an accumulator it waits behind the matrix requests on it accepted before; the owner reaches the same words through `cfg_data`, whose address advances by 8, and the routers' tables where the
configuration network has them. (That a launch of another package is privileged, and where those tables stand, are free values:
log entries 73 and 74.) -/
def Sys2Proof.Claims.WindowsAreGuarded : Prop :=
  ∀ (s : State),
    (∀ c s1 p a k, Arrives s c isWinReq p s1 → onChip a = true → bits a 33 22 = 0 →
      let off := addrOff a
      ((s.core c).accWaits off = true → exec (.windowAccess c) s = .next s) ∧
      (∀ n kd, (s.core c).accWaits off = false → p.body = .read a n kd k →
        (s1.winOk c p off n true false = true → ∃ t, exec (.windowAccess c) s = .next t ∧ Replies s t p (.data (s1.winBytes c off n) k)) ∧
        (s1.winOk c p off n true false = false → exec (.windowAccess c) s = .next (s1.addressRefusal p))) ∧
      (∀ j v, off = 0x108000 + 8 * j → j < 16 → p.body = .write a (whole (wordBytes v)) k →
        ((s.core c).grants p.sid off 8 false true = true → ∃ t, exec (.windowAccess c) s = .next t ∧ Replies s t p (.ack k none) ∧
          (∀ i < 16, mget 0 (t.core c).fmt i = if i = j then v else mget 0 (s.core c).fmt i)) ∧
        ((s.core c).grants p.sid off 8 false true = false → exec (.windowAccess c) s = .next (s1.addressRefusal p))) ∧
      (∀ j kd, j < 32 → off = 0x1b0000 + 8 * j → p.body = .read a 8 kd k →
        let served := ∃ t, exec (.windowAccess c) s = .next t ∧ Replies s t p (.data (wordBytes (mget 0 (s.core c).win j)) k)
        let refused := exec (.windowAccess c) s = .next (s1.addressRefusal p)
        (p.src.pkg = s.pkg → s.hasLaunch p.lid = true → (s.launch p.lid).priv = true → served) ∧
        (p.src.pkg = s.pkg → s.hasLaunch p.lid = false ∨ (s.launch p.lid).priv = false → refused) ∧
        (p.src.pkg ≠ s.pkg → Config.farPrivileged p.src.pkg p.lid = true ∧ served ∨
          Config.farPrivileged p.src.pkg p.lid = false ∧ refused))) ∧
    (∀ p v c off, ownerOnly s p (.cfgDataRead p) ∧ ownerOnly s p (.cfgDataWrite p v) ∧
      let waits := (s.core (addrCore s.io.cfgAddr)).accWaits (addrOff s.io.cfgAddr)
      (owns s p → waits = true → exec (.cfgDataRead p) s = .next s ∧ exec (.cfgDataWrite p v) s = .next s) ∧
      (owns s p → waits = false → s.io.cfgAddr.toNat % 8 = 0 → s.cfgTarget = some (c, off) →
        (∃ t, exec (.cfgDataRead p) s = .next t ∧ t.host.answer = some (wordBytes ((s.winRead c off).getD 0)) ∧
          t.io.cfgAddr = s.io.cfgAddr + 8 ∧ t.cores = s.cores) ∧
        (∃ t, exec (.cfgDataWrite p v) s = .next t ∧ t.io.cfgAddr = s.io.cfgAddr + 8 ∧
          (∀ j < 16, off = 0x108000 + 8 * j → mget 0 (t.core c).fmt j = v) ∧
          (∀ j < 16, off = 0x1a0000 + 8 * j → mget 0 (t.core c).ctr j = v))) ∧
      (owns s p → waits = false → s.io.cfgAddr.toNat % 8 = 0 → s.cfgTarget = none → s.cfgElsewhere = false →
        (∃ t, exec (.cfgDataRead p) s = .next t ∧ t.io.cfgAddr = s.io.cfgAddr + 8 ∧ t.cores = s.cores ∧
          (s.cfgRoute = none → t.host.error = true) ∧
          ∀ r e, s.cfgRoute = some (r, e) → t.host.answer = some (wordBytes (mget 0 (s.router r).tab e))) ∧
        (∃ t, exec (.cfgDataWrite p v) s = .next t ∧ t.io.cfgAddr = s.io.cfgAddr + 8 ∧ t.cores = s.cores ∧
          (s.cfgRoute = none → t.host.error = true ∧ t.routers = s.routers) ∧
          ∀ r e, s.cfgRoute = some (r, e) → mget 0 (t.router r).tab e = v)) ∧
      (owns s p → waits = false → s.io.cfgAddr.toNat % 8 ≠ 0 → exec (.cfgDataRead p) s = .next ((heardOk s p).status true) ∧
        exec (.cfgDataWrite p v) s = .next ((heardOk s p).status true)))

/-- R347, R350, R351, R354, R355: a register write is the command its register stands for; the queue words, the scrutinised
fields of the fault log's base and the image base read back; a write at a reserved offset, or of a party whose link is not
trained (log entry 43), is ignored with error status. A port's link places its window clear of its apertures. -/
def Sys2Proof.Claims.RegisterWritesAreCommands : Prop :=
  ∀ (s : State) (p : Party) (v : Word),
    (s.linked p = false → ∀ off, exec (.registerWrite p off v) s = .next ((s.heard p).status true)) ∧
    (s.linked p = true →
      (∀ off, off % 8 ≠ 0 ∨ (s.regRead off = none ∧ off ≠ 0x4108) → exec (.registerWrite p off v) s = .next ((s.heard p).status true)) ∧
      exec (.registerWrite p 0x8 v) s = exec (.ownershipClaim p (v.extractLsb' 0 32)) s ∧
      exec (.registerWrite p 0x100 v) s = exec (.budgetWrite p v) s ∧
      exec (.registerWrite p 0x208 v) s = exec (.svnBurn p v) s ∧
      exec (.registerWrite p 0x4008 v) s = exec (.spaceRetire p v) s ∧
      (owns s p →
        (∀ j < 16, ∃ t, exec (.registerWrite p (0x10000 + 8 * j) v) s = .next t ∧ t.regRead (0x10000 + 8 * j) = some (v &&& 0x7ff#64)) ∧
        (∃ t, exec (.registerWrite p 0x4000 v) s = .next t ∧ t.regRead 0x4000 = some (v &&& 0x000007fffff00000#64)) ∧
        (∃ t, exec (.registerWrite p 0x10118 v) s = .next t ∧ t.regRead 0x10118 = some (v &&& 0x000007fffff0ffff#64)) ∧
        (∀ n < 128, ∃ t, exec (.registerWrite p (0x20000 + 256 * n + 8) v) s = .next t ∧
          t.regRead (0x20000 + 256 * n + 8) = some (v &&& 0x000007fffff00000#64)))) ∧
    (p ≠ .bmc → s.daybroken = true → (∀ n < 16,
      let w := fun (k : Nat) => mget 0 s.io.ap (64 * Party.code p + 4 * n + k)
      bitOf (w 0) 63 = false ∨ (w 1).toNat + (w 2).toNat ≤ v.toNat ∨ v.toNat + 2 ^ 20 ≤ (w 1).toNat) →
      exec (.linkTraining p v) s = .next { s with io := { s.io with trained := mput (Party.code p) v s.io.trained } }) ∧
    (p = .bmc ∨ s.daybroken = false → exec (.linkTraining p v) s = .next s)

/-- Core windows and I/O registers are reached only as the rules allow. -/
def Obligations.WindowsAndRegistersAreGuarded : Prop := Claims.WindowsAreGuarded ∧ Claims.RegisterWritesAreCommands

/-- R80, R240, R343 to R345: a host access through an aperture is a request, from the I/O die, at the aperture's virtual address,
line by line, and the next of its port begins when it has completed; what the reply brings answers it. An ingress word accepted
sends its signal to the core its endpoint names, and the binding closes once every such signal is acknowledged. A register access
goes to the register; an access to nothing, an absent package or a space being retired, an atomic, or one of more than 64 bytes
completes with error status. A write that the host's cache held up is acknowledged once every line it waits for is invalidated.
An access to a port's registers waits for the port's accesses to memory before it. (That an access of no bytes stands for an
idle flit, and the queue of a port, are log entry 43; one request for each line in ascending order, and that the first fault ends
the access, are log entry 55.) -/
def Sys2Proof.Claims.HostAccessesReachTheDevice : Prop :=
  ∀ (s : State) (p : Party) (addr : Word) (n : Nat) (d : Line64), s.daybroken = true →
    let pt := Party.code p
    let queue := fun (t : State) => mget [] t.host.queue pt
    let spare := fun (sid : Half) => bitOf s.io.sdel 62 = false ∨ s.io.sdel.extractLsb' 0 16 ≠ sid
    let window := p = .bmc ∨ ∃ b, mhas s.io.trained pt = true ∧ mget 0 s.io.trained pt = b ∧
      b.toNat ≤ addr.toNat ∧ addr.toNat < b.toNat + 2 ^ 20
    let fails := fun (w at_ : Bool) => ∃ t, exec (.hostAccess p addr n w at_ d) s = .next t ∧ t.host.error = true ∧ t.cores = s.cores ∧
      t.mem = s.mem ∧ t.dist = s.dist
    (∀ w at_, exec (.hostAccess p addr 0 w at_ d) s = .next ((s.heard p).answers none)) ∧
    (∀ w at_, 0 < n → window → queue s ≠ [] → exec (.hostAccess p addr n w at_ d) s = .next s) ∧
    (∀ w at_, 0 < n → 64 < n ∨ at_ = true → s.hostWaits p addr = false → fails w at_) ∧
    (∀ w, 0 < n → n ≤ 64 → ¬window → s.aperture p addr = none → fails w false) ∧
    (∀ w0 hb vb w, 0 < n → n ≤ 64 → ¬window → s.aperture p addr = some (w0, hb, vb) → bitOf w0 62 = false →
      let sid := w0.extractLsb' 0 16
      let va := vb + (addr - hb)
      let k := min n (256 - va.toNat % 256)
      (¬spare sid → fails w false) ∧
      (spare sid → queue s = [] →
        (s.badAddr va = true → ∃ t, exec (.hostAccess p addr n w false d) s = .next t ∧ t.host.error = true ∧ queue t = [] ∧ Records s t 8) ∧
        (s.badAddr va = false → ∃ t q, exec (.hostAccess p addr n w false d) s = .next t ∧
          (t.router (mergePort q.src q.dst).1).merge = (s.router (mergePort q.src q.dst).1).merge ++ [((mergePort q.src q.dst).2, q)] ∧
          q.src = ioNode s.pkg ∧ q.dst = addrNode (s.ioArt sid) va ∧ q.sid = sid ∧
          q.body = (if w then .write va (whole ((lineBytes d).take k)) (.host pt 0) else .read va k .data (.host pt 0)) ∧
          queue t = [{ sid := sid, va := va, left := n, wr := w, bytes := if w then (lineBytes d).take n else [], sent := true }])) ∧
      (∀ h hs, spare sid → queue s = h :: hs → h.sent = true → ∃ t e, exec (.hostAccess p addr n w false d) s = .next t ∧
        queue t = h :: hs ++ [e] ∧ e.sent = false ∧ t.routers = s.routers)) ∧
    (∀ h q r, r < 2048 → queue s = [h] → h.sent = true → (s.router r).eject = [q] → q.malformed = false → q.dst = ioNode s.pkg →
      (∀ bs, q.body = .data bs (.host pt 0) → q.fault = false → h.wr = false → h.left = h.piece →
        ∃ t, exec (.packetDelivery r) s = .next t ∧ t.host.answer = some (h.bytes ++ bs) ∧ t.host.error = false ∧ queue t = []) ∧
      (∀ k, q.body = .ack (.host pt k) none → q.fault = true →
        ∃ t, exec (.packetDelivery r) s = .next t ∧ t.host.answer = none ∧ t.host.error = true ∧ queue t = [])) ∧
    (∀ v, p = .bmc → addr.toNat < 2 ^ 20 → addr.toNat % 8 = 0 → addr.toNat ≠ 0x4108 → s.regRead addr.toNat = some v →
      s.hostWaits .bmc addr = false → (ownersReg addr.toNat = true → owns s .bmc) →
      ∃ t, exec (.hostAccess .bmc addr 8 false false d) s = .next t ∧ t.host.answer = some (wordBytes v) ∧ t.host.error = false) ∧
    (p = .bmc → 8 ≤ n → n ≤ 64 → addr.toNat % 8 = 0 → s.hostWaits .bmc addr = false →
      (0x1000 ≤ addr.toNat → addr.toNat + n ≤ 0x1000 + 8240 → ∃ t, exec (.hostAccess .bmc addr n false false d) s = .next t ∧
        t.host.answer = some (((padTo 8240 s.io.attRep).drop (addr.toNat - 0x1000)).take n) ∧ t.host.error = false) ∧
      (0x320 ≤ addr.toNat → addr.toNat + n ≤ 0x340 → ∃ t, exec (.hostAccess .bmc addr n true false d) s = .next t ∧
        t.host.error = false ∧ (t.io.attChal.drop (addr.toNat - 0x320)).take n = (lineBytes d).take n)) ∧
    (p = .bmc → addr.toNat % 8 = 0 → ownersReg addr.toNat = true → ¬owns s .bmc → s.hostWaits .bmc addr = false →
      ∃ t, exec (.hostAccess .bmc addr 8 false false d) s = .next t ∧ t.host.error = true ∧ t.host.answer = none) ∧
    (∀ w0 hb vb v l, p ≠ .bmc → ¬window → s.aperture p addr = some (w0, hb, vb) → bitOf w0 62 = true → (addr - hb).toNat % 8 = 0 →
      let sid := w0.extractLsb' 0 16
      let e := (addr - hb).toNat / 8
      let i := l.ingress e
      spare sid → queue s = [] →
      s.ingressOf sid e = some l → s.hasLaunch l.lid = true → s.launch l.lid = l → e ∉ l.closed → e ∉ l.closing → bits v 62 8 = 0 →
      bits v 7 0 ≠ 0 → s.dist.images = [] →
      let c := l.cores.getD (bits i 57 47) 0
      ∃ t q, exec (.ingressWrite p addr 8 v) s = .next t ∧ mget 0 (t.launch l.lid).accepted e = mget 0 l.accepted e + 1 ∧
        mget 0 (t.launch l.lid).posted e = mget 0 l.posted e + 1 ∧ t.host.error = false ∧
        (e ∈ (t.launch l.lid).closing ↔ bitOf v 63 = true) ∧
        (t.router (gatewayOf (BitVec.ofNat 11 c).toNat)).merge = (s.router (gatewayOf (BitVec.ofNat 11 c).toNat)).merge ++ [(2, q)] ∧
        q.dst = ⟨s.pkg, BitVec.ofNat 11 c, 0⟩ ∧
        q.body = .sig (mget 0 (s.core c).ifps l.lid.toNat) (bits i 46 38) (bits v 7 0) .none) ∧
    (∀ lid ep, s.hasLaunch lid = true → ep ∈ (s.launch lid).closing →
      (mget 0 (s.launch lid).posted ep = 0 → ∃ t, exec (.ingressClose lid ep) s = .next t ∧ ep ∈ (t.launch lid).closed ∧
        ep ∉ (t.launch lid).closing) ∧
      (mget 0 (s.launch lid).posted ep ≠ 0 → exec (.ingressClose lid ep) s = .next s)) ∧
    (∀ sid va q more, let key : Half × Word := (sid, hostLine va.toNat)
      key ∉ more → s.host.pendInv = key :: more → s.host.waiting = [(q, key :: more)] →
      ∃ t, exec (.hostInvalidationComplete sid va) s = .next t ∧ t.host.pendInv = more ∧
        (more = [] → t.host.waiting = [] ∧ Replies s t q q.body) ∧
        (more ≠ [] → t.host.waiting = [(q, more)] ∧ t.routers = s.routers))

/-- R345: a host read of an ingress word answers whether its binding is open and how many writes it has accepted; a write of another
width, of an endpoint with no ingress word or a closed binding, or with a reserved bit set posts nothing and completes with
error status, and is not counted; one with count 0 posts no signal, is counted, and may close. -/
def Sys2Proof.Claims.IngressWordsAnswer : Prop :=
  ∀ (s : State) (p : Party) (addr : Word) (w0 hb vb : Word), s.daybroken = true → p ≠ .bmc →
    (∀ b, mhas s.io.trained (Party.code p) = true → mget 0 s.io.trained (Party.code p) = b →
      addr.toNat < b.toNat ∨ b.toNat + 2 ^ 20 ≤ addr.toNat) →
    s.aperture p addr = some (w0, hb, vb) → bitOf w0 62 = true → (addr - hb).toNat % 8 = 0 →
    mget [] s.host.queue (Party.code p) = [] →
    let sid := w0.extractLsb' 0 16
    bitOf s.io.sdel 62 = false ∨ s.io.sdel.extractLsb' 0 16 ≠ sid →
    let e := (addr - hb).toNat / 8
    let refused := fun (i : Instr) => ∃ t, exec i s = .next t ∧ t.host.error = true ∧ t.dist = s.dist ∧ t.routers = s.routers
    (∀ l d, s.ingressOf sid e = some l → mget 0 l.accepted e < 2 ^ 63 → ∃ t, exec (.hostAccess p addr 8 false false d) s = .next t ∧
      t.host.error = false ∧ t.dist = s.dist ∧
      t.host.answer = some (natLe 8 ((if e ∈ l.closed then 0 else 2 ^ 63) + mget 0 l.accepted e))) ∧
    (∀ l n v, s.ingressOf sid e = some l → 0 < n → n ≤ 64 → n ≠ 8 ∨ e ∈ l.closed ∨ e ∈ l.closing ∨ bits v 62 8 ≠ 0 →
      refused (.ingressWrite p addr n v)) ∧
    (∀ n v, s.ingressOf sid e = none → 0 < n → n ≤ 64 → refused (.ingressWrite p addr n v)) ∧
    (∀ l v, s.ingressOf sid e = some l → s.hasLaunch l.lid = true → s.launch l.lid = l → e ∉ l.closed → e ∉ l.closing →
      bits v 62 0 = 0 → ∃ t, exec (.ingressWrite p addr 8 v) s = .next t ∧ t.host.error = false ∧ t.routers = s.routers ∧
        mget 0 (t.launch l.lid).accepted e = mget 0 l.accepted e + 1 ∧ mget 0 (t.launch l.lid).posted e = mget 0 l.posted e ∧
        (e ∈ (t.launch l.lid).closing ↔ bitOf v 63 = true))

/-- Host accesses reach memory, ingress words and registers, or complete with error status. -/
def Obligations.HostAccessesReachTheDevice : Prop := Claims.HostAccessesReachTheDevice ∧ Claims.IngressWordsAnswer

/-- R26, R29, R30, R34, R35: what a head does before its block commits. A head that does not trap changes its block's
working copy alone: of the registers only its destination, of the flags none is cleared but by `sysw`, and it only adds stores and actions
for the commit; everything else in the machine is as before, but that a read is noted as the last touch of its frame (R120), and
that `tresume` to a line the core does not hold asks for the line, and that `qtile` waits while the matrix unit has requests
(R225), the block where it was. A head that traps discards the block. `falloc`, which reserves
a location, and `brk`, which tells the owner, are in statements of their own. -/
def Obligations.HeadsChangeOnlyTheirBlock : Prop :=
  ∀ (i : Instr) (s : State), i.isShokuxel = true → (∀ g d c, i ≠ .falloc g d c) → (∀ g c, i ≠ .brk g c) →
    (∃ u w, LastTouchOnly s u ∧ exec i s = .next (u.setWork w) ∧ w.k = s.work.k + 1 ∧ w.active = s.work.active ∧ w.line = s.work.line ∧
      w.image = s.work.image ∧ s.work.stores <+: w.stores ∧ s.work.acts <+: w.acts ∧ KeepsRegs i s.work.regs w.regs) ∨
    (∃ g p n, i = .tresume g p ∧ exec i s = .next (s.fetchLine s.cur.core s.me.lid n)) ∨
    (∃ g a d fm topk p sf, i = .qtile g a d fm topk p sf ∧ (s.core s.cur.core).mq ≠ [] ∧ exec i s = .next s) ∨
    (∃ tr, exec i s = .next (trapped s tr))

/-- R34, R35, R113: `x0` reads 0 and `q0` 0xffff whatever is written; a write changes its own register and no other, and the
pointer mark with it. -/
def Obligations.RegistersReadBack : Prop :=
  (∀ (r : Regs) (n m : XReg) (v : Word) (p : Bool), (r.wxm n v p).rx m = (if m = 0 then 0 else if m = n then v else r.rx m) ∧
    (r.wxm n v p).mark m = (m ≠ 0 && if m = n then p else r.mark m) ∧ (r.wxm n v p).rv = r.rv ∧ (r.wxm n v p).rq = r.rq ∧
    (r.wxm n v p).cf = r.cf) ∧
  (∀ (r : Regs) (n m : VReg) (v : Line64), (r.wv n v).rv m = (if m = n then v else r.rv m) ∧ (r.wv n v).rx = r.rx ∧
    (r.wv n v).rq = r.rq ∧ (r.wv n v).marks = r.marks) ∧
  (∀ (r : Regs) (n m : QReg) (v : Half), (r.wq n v).rq m = (if m = 0 then 0xffff else if m = n then v else r.rq m) ∧
    (r.wq n v).rx = r.rx ∧ (r.wq n v).rv = r.rv ∧ (r.wq n v).marks = r.marks)

/-- R21 to R26, R39, R84, R96: decoding what the encoder gives for a well-formed instruction gives the instruction, a head with its
tail or an instruction of the loader and storer cores, with every operand at every value its field admits. -/
def Obligations.DecodingUndoesEncoding : Prop :=
  ∀ (i : Instr), i.wellFormed = true →
    (∀ f, fieldsOf i = some f → encode i = some (packHead f :: packTail f) ∧ decodeHead (packHead f) (packTail f) = .ok i) ∧
    (∀ w, fieldsOf i = none → rvWordOf i = some w → encode i = some [w.extractLsb' 0 16, w.extractLsb' 16 16] ∧
      decodeRv (w.extractLsb' 0 16) (w.extractLsb' 16 16) = .ok i) ∧
    (∀ h j x, i = .rv64imcInstruction (.comp h j) → encode i = some [h] ∧ decodeRv h x = .ok i)

/-- R202's worked encodings, and words of RV64I, decode to the instructions they stand for; a head of major 0x7F, which no version
of the device assigns, decodes to none (R39). -/
def Obligations.WordsDecodeAsTabled : Prop :=
  decodeTableWord 48 0x400831c15305 = some (.fma ⟨0, false⟩ 5 6 7 8 .f32 .rne) ∧
  decodeTableWord 48 0x200810d36121 = some (.vfma ⟨2, false⟩ 1 2 3 4 .f32 .rne) ∧
  decodeTableWord 48 0x000621407b41 = some (.pmaskLt ⟨0, false⟩ 1 4 5 .s32) ∧
  decodeTableWord 48 0x000108006f09 = some (.vredsum ⟨0, false⟩ 9 1 .f32) ∧
  decodeTableWord 48 0x00000000fe80 = none ∧
  decodeTableWord 32 0x00100093 = some (.rv64imcInstruction (.full (.imm .addi 1 0 1))) ∧
  decodeTableWord 32 0x00208463 = some (.rv64imcInstruction (.full (.br .beq 1 2 4))) ∧
  decodeTableWord 16 0x4505 = some (.rv64imcInstruction (.comp 0x4505 (.imm .addi 10 0 1)))

/-- R14, R26, R29, R30, R84, R111, R123, R240, and log entries 1 and 66: in the turn of a context whose block is in progress the step runs the head
that its line holds at that place, or the commit; in the turn of a loader or storer core, the instruction its pc holds; an
event runs as it is; the clocks count. Before that the turn leaves the list of turns, the count of turns goes on, and the core
notes what of the A-cycle the turn uses. A head issues where its side offers the context an issue in
its round, and the side's next offer goes to the context after it. A turn does nothing where a context is unbound, where its side
has issued or a block has committed in this A-cycle, after a bank has not granted its access, or where a bank it reaches has
served a later rank in this A-cycle; a port's register access, while an access to memory before it has not completed. -/
def Obligations.StepsRunTheDecodedInstruction : Prop :=
  ∀ (s : State) (t : Turn) (rest : List Turn), s.turns = t :: rest →
    let u := { s with tick := s.tick + 1, turns := rest }
    let runs := fun (i : Instr) (at_ : State) => ∃ v, NotesOnly at_ v ∧ step s = exec i v
    (∀ c k, t = .ctx c k →
      let x := s.ctx c k
      let here := { u with cur := ⟨c, k⟩ }
      let head := x.work.active = true ∧ x.work.k < headsOf x.work
      let ready := x.bound = true ∧ x.replayAt ≠ some s.acyc ∧ (s.core c).checkedAt ≠ some s.acyc
      let m := headSide x.work.image x.work.k
      let served := fun (i : Instr) => ∀ b ∈ reached here i, (s.core b).rankOk s.acyc ((s.core c).ctxRank c k) = true
      (∀ i, ready → head → headAt x.work = .ok i → (s.core c).mayIssue s.acyc k m = true → here.offered c k m = true → served i →
        ∃ v, NotesOnly here v ∧ step s = exec i v ∧ (if m then (v.core c).rrM else (v.core c).rrS) = (k + 1) % 16 ∧
          ∀ b ∈ reached here i, ((v.core b).phase.1 = s.acyc ∧ (s.core c).ctxRank c k ≤ (v.core b).phase.2)) ∧
      (ready → x.work.active = true → headsOf x.work ≤ x.work.k → (s.core c).commitAt ≠ some s.acyc →
        served (.blockCommit c k) ∨ (x.work.updatesDir = true ∧ x.work.meetsPackets = false) → runs (.blockCommit c k) here) ∧
      (ready → x.work.active = false → runs (.lineFetch c k) here ∨ runs (.blockExecute c k) here) ∧
      (x.bound = false ∨ x.replayAt = some s.acyc ∨ (head ∧ ((s.core c).mayIssue s.acyc k m = false ∨ here.offered c k m = false)) ∨
          (head ∧ ∀ i, headAt x.work = .ok i → ¬served i) ∨
          (x.work.active = true ∧ headsOf x.work ≤ x.work.k ∧ (s.core c).commitAt = some s.acyc) → step s = .next here)) ∧
    (∀ c st h0 h1 i, t = .ls c st → (s.ls c st).running = true → (s.ls c st).waiting = none → (s.core c).stopped = false →
      (s.core c).rankOk s.acyc (if st then 5 else 4) = true → (s.core c).unitFree s.acyc (if st then 17 else 16) = true →
      lsFetch (s.ls c st) = some (h0, h1) → decodeRv h0 h1 = .ok i → runs i { u with cur := ⟨c, if st then 17 else 16⟩ }) ∧
    (∀ i, t = .ev i →
      (isEvent i = true → (∀ c, takesFrame i = some c → (s.core c).checkedAt ≠ some s.acyc) →
        (∀ p, portParty i = some p → mget [] s.host.queue (Party.code p) = []) →
        (∀ c r, bankRank s i = some (c, r) → (s.core c).rankOk s.acyc r = true ∧
          ∀ n, unitOf s i = some n → (s.core c).unitFree s.acyc n = true) → runs i u) ∧
      (isEvent i = false → step s = .next u) ∧
      (∀ p, portParty i = some p → mget [] s.host.queue (Party.code p) ≠ [] → step s = .next u)) ∧
    (t = .aCycle → ∃ v, step s = .next v ∧ v.acyc = s.acyc + 1 ∧ v.mem = s.mem ∧ v.turns = rest) ∧
    (t = .fCycle → ∃ v, step s = .next v ∧ v.fcyc = s.fcyc + 1 ∧ v.mem = s.mem ∧ v.cores = s.cores ∧ v.turns = rest)

/-- R29, R30, R84: every instruction has a meaning: it answers a next state, unless it is an event of a number that no agent of the
package has, which faults (the fault is the model's choice, log entry 18). -/
def Obligations.NothingIsRefused : Prop :=
  ∀ (i : Instr) (s : State), (¬absentAgent i → ∃ t, exec i s = .next t) ∧
    (absentAgent i → exec i s = .fault .noSuchAgent ∧ i.isShokuxel = false ∧ i.isRv = false)

/-- R6 and the Reset columns: right after reset no one owns the device, Daybreak has not run, the budget is 2,400 W, every
queue has weight 1 and priority 0, no launch is there, no accumulator has an owner, format registers, counters and windows are 0, every
location holds no frame; package memory lists nothing. (That an unlisted byte reads 0 is log entry 2, and that the general
registers are 0 is log entry 3: choices of the model, as are the values of the clocks.) -/
def Sys2Proof.Claims.ResetLeavesTheStatedValues : Prop :=
  let s := State.reset
  s.io.own = 0 ∧ s.io.dbk = 0 ∧ s.io.flog = 0 ∧ s.io.sdel = 0 ∧ s.io.attCtl = 0 ∧ s.dist.budget = 2400 ∧ s.dist.launches = [] ∧
    s.dist.frz = 0 ∧ s.dist.dbgCtl = 0 ∧ (∀ q < 16, mget 1 s.dist.q q = 1) ∧
    (∀ c n, mget 0 (s.core c).owner n = 0 ∧ mget 0 (s.core c).fmt n = 0 ∧ mget 0 (s.core c).ctr n = 0 ∧
      mget 0 (s.core c).ctrCfg n = 0 ∧ mget 0 (s.core c).win n = 0 ∧ ((s.core c).dir n).alloc = false ∧ (s.ctx c n).bound = false) ∧
    (∀ c, (s.core c).lids = [] ∧ (s.core c).loader.running = false ∧ (s.core c).storer.running = false) ∧ s.mem = []

/-- R52: package memory has its canonical form at reset. -/
def Sys2Proof.Claims.ResetMemoryIsCanonical : Prop := Memory.wf State.reset.mem = true

/-- Reset leaves the values the spec states, and memory in canonical form. -/
def Obligations.ResetLeavesTheStatedValues : Prop := Claims.ResetLeavesTheStatedValues ∧ Claims.ResetMemoryIsCanonical

/-- R52: package memory keeps its one canonical form in every step, so that equal memories are equal data (log entry 2). -/
def Obligations.StepsKeepMemoryCanonical : Prop :=
  ∀ (s t : State), Memory.wf s.mem = true → step s = .next t → Memory.wf t.mem = true
end

