-- ==== Sys2Proof/Laws/Encode.lean ====
section
/-! SUPPORT. Encode.lean: what packing a field record and unpacking it again gives back, field by field (R22, R24). -/

namespace Sys2Proof

theorem packHead_major (f : Fields) : (packHead f).extractLsb' 9 7 = f.major := by
  apply BitVec.eq_of_getLsbD_eq; intro i hi; simp [packHead]; grind
theorem packHead_tc (f : Fields) : (packHead f).extractLsb' 7 2 = f.tc := by
  apply BitVec.eq_of_getLsbD_eq; intro i hi; simp [packHead]; grind
theorem packHead_dest (f : Fields) : (packHead f).extractLsb' 0 7 = f.dest := by
  apply BitVec.eq_of_getLsbD_eq; intro i hi; simp [packHead]; grind
theorem packA_src1 (f : Fields) : (packA f).extractLsb' 11 5 = f.src1 := by
  apply BitVec.eq_of_getLsbD_eq; intro i hi; simp [packA]; grind
theorem packA_src2 (f : Fields) : (packA f).extractLsb' 6 5 = f.src2 := by
  apply BitVec.eq_of_getLsbD_eq; intro i hi; simp [packA]; grind
theorem packA_pred (f : Fields) : (packA f).extractLsb' 3 3 = f.pred := by
  apply BitVec.eq_of_getLsbD_eq; intro i hi; simp [packA]; grind
theorem packA_pol (f : Fields) : (packA f).extractLsb' 2 1 = f.pol := by
  apply BitVec.eq_of_getLsbD_eq; intro i hi; simp [packA]; grind
theorem packA_minor (f : Fields) : (packA f).extractLsb' 0 2 = f.minor := by
  apply BitVec.eq_of_getLsbD_eq; intro i hi; simp [packA]; grind
theorem cd_halves (v : BitVec 32) : v.extractLsb' 16 16 ++ v.extractLsb' 0 16 = v := by
  apply BitVec.eq_of_getLsbD_eq; intro i hi; simp; grind

/-- Unpacking what was packed gives the field record back, where the fields its tail leaves out are zero. -/
theorem unpack_pack (f : Fields) (h : f.tc = 3 ∨ (f.tc = 2 ∧ f.cd = 0) ∨ (f.tc = 1 ∧ f.cd = 0 ∧ f.b = 0)) :
    unpackHead (packHead f) (packTail f) = f := by
  rcases h with h | ⟨h, hc⟩ | ⟨h, hc, hb⟩ <;>
    (unfold packTail unpackHead
     rw [h]
     simp [tailHalves, packHead_major, packHead_tc, packHead_dest, packA_src1, packA_src2, packA_pred, packA_pol,
       packA_minor, cd_halves]
     try (obtain ⟨maj, tc, dest, s1, s2, p, pol, mn, b, cd⟩ := f
          simp_all))

/-- The tail of a packed record has the length its tail code gives. -/
theorem packTail_length (f : Fields) : (packTail f).length = tailHalves f.tc := by
  simp only [packTail, List.length_take, List.length_cons, List.length_nil, tailHalves]; split <;> (try split) <;> (try split) <;> simp

/-- A head and tail packed from a record decode as the record does. -/
theorem decodeHead_pack (f : Fields) (h : f.tc = 3 ∨ (f.tc = 2 ∧ f.cd = 0) ∨ (f.tc = 1 ∧ f.cd = 0 ∧ f.b = 0)) :
    decodeHead (packHead f) (packTail f) = decodeFields f := by
  simp [decodeHead, packTail_length, packHead_tc, unpack_pack f h]


/-! The parts of a field as the encoder lays them out, read back. -/

@[simp] theorem mkB_src3 (s : BitVec 5) (u : BitVec 4) (c : BitVec 3) (m : BitVec 4) : (mkB s u c m).extractLsb' 11 5 = s := by
  apply BitVec.eq_of_getLsbD_eq; intro i hi; simp [mkB]; grind
@[simp] theorem mkB_urg (s : BitVec 5) (u : BitVec 4) (c : BitVec 3) (m : BitVec 4) : (mkB s u c m).extractLsb' 7 4 = u := by
  apply BitVec.eq_of_getLsbD_eq; intro i hi; simp [mkB]; grind
@[simp] theorem mkB_scope (s : BitVec 5) (u : BitVec 4) (c : BitVec 3) (m : BitVec 4) : (mkB s u c m).extractLsb' 4 3 = c := by
  apply BitVec.eq_of_getLsbD_eq; intro i hi; simp [mkB]; grind
@[simp] theorem mkB_mod (s : BitVec 5) (u : BitVec 4) (c : BitVec 3) (m : BitVec 4) : (mkB s u c m).extractLsb' 0 4 = m := by
  apply BitVec.eq_of_getLsbD_eq; intro i hi; simp [mkB]; grind
@[simp] theorem cdS_mid (m : BitVec 21) (sf : SlotField) : (cdS m sf).extractLsb' 10 21 = m := by
  apply BitVec.eq_of_getLsbD_eq; intro i hi; simp [cdS]; grind
@[simp] theorem cdS_fresh (m : BitVec 21) (sf : SlotField) : (cdS m sf).extractLsb' 31 1 = bit1 sf.fresh := by
  apply BitVec.eq_of_getLsbD_eq; intro i hi; simp [cdS]; grind
@[simp] theorem cdS_sv (m : BitVec 21) (sf : SlotField) : (cdS m sf).extractLsb' 9 1 = bit1 sf.sv := by
  apply BitVec.eq_of_getLsbD_eq; intro i hi; simp [cdS]; grind
@[simp] theorem cdS_slot (m : BitVec 21) (sf : SlotField) : (cdS m sf).extractLsb' 0 9 = sf.slot := by
  apply BitVec.eq_of_getLsbD_eq; intro i hi; simp [cdS]; grind
@[simp] theorem cdSig_top (d : FWord) (n : BitVec 8) (w : FWord) : (cdSig d n w).extractLsb' 26 6 = 0 := by
  apply BitVec.eq_of_getLsbD_eq; intro i hi; simp [cdSig]; grind
@[simp] theorem cdSig_n (d : FWord) (n : BitVec 8) (w : FWord) : (cdSig d n w).extractLsb' 9 8 = n := by
  apply BitVec.eq_of_getLsbD_eq; intro i hi; simp [cdSig]; grind
@[simp] theorem cdSig_w (d : FWord) (n : BitVec 8) (w : FWord) : (cdSig d n w).extractLsb' 0 9 = w := by
  apply BitVec.eq_of_getLsbD_eq; intro i hi; simp [cdSig]; grind
@[simp] theorem cdSig_d (d : FWord) (n : BitVec 8) (w : FWord) : (cdSig d n w).extractLsb' 17 9 = d := by
  apply BitVec.eq_of_getLsbD_eq; intro i hi; simp [cdSig]; grind
@[simp] theorem cdF_top (w : FWord) : (cdF w).extractLsb' 9 23 = 0 := by
  apply BitVec.eq_of_getLsbD_eq; intro i hi; simp [cdF]; grind
@[simp] theorem cdF_w (w : FWord) : (cdF w).extractLsb' 0 9 = w := by
  apply BitVec.eq_of_getLsbD_eq; intro i hi; simp [cdF]; grind
@[simp] theorem bBf_top (l p : BitVec 6) : (bBf l p).extractLsb' 12 4 = 0 := by
  apply BitVec.eq_of_getLsbD_eq; intro i hi; simp [bBf]; grind
@[simp] theorem bBf_len (l p : BitVec 6) : (bBf l p).extractLsb' 6 6 = l := by
  apply BitVec.eq_of_getLsbD_eq; intro i hi; simp [bBf]; grind
@[simp] theorem bBf_pos (l p : BitVec 6) : (bBf l p).extractLsb' 0 6 = p := by
  apply BitVec.eq_of_getLsbD_eq; intro i hi; simp [bBf]; grind
@[simp] theorem bCvt_d (d s : Ty) (r : Rm) (h : Bool) : (bCvt d s r h).extractLsb' 12 4 = d.code := by
  apply BitVec.eq_of_getLsbD_eq; intro i hi; simp [bCvt]; grind
@[simp] theorem bCvt_s (d s : Ty) (r : Rm) (h : Bool) : (bCvt d s r h).extractLsb' 8 4 = s.code := by
  apply BitVec.eq_of_getLsbD_eq; intro i hi; simp [bCvt]; grind
@[simp] theorem bCvt_r (d s : Ty) (r : Rm) (h : Bool) : (bCvt d s r h).extractLsb' 5 3 = r.code := by
  apply BitVec.eq_of_getLsbD_eq; intro i hi; simp [bCvt]; grind
@[simp] theorem bCvt_z (d s : Ty) (r : Rm) (h : Bool) : (bCvt d s r h).extractLsb' 1 4 = 0 := by
  apply BitVec.eq_of_getLsbD_eq; intro i hi; simp [bCvt]; grind
@[simp] theorem bCvt_h (d s : Ty) (r : Rm) (h : Bool) : (bCvt d s r h).extractLsb' 0 1 = bit1 h := by
  apply BitVec.eq_of_getLsbD_eq; intro i hi; simp [bCvt]; grind
@[simp] theorem fm_rm (t : FTy) (r : Rm) : (fm t r).extractLsb' 0 3 = r.code := by
  apply BitVec.eq_of_getLsbD_eq; intro i hi; simp [fm]; grind
@[simp] theorem fm_ty (t : FTy) (r : Rm) : (fm t r).extractLsb' 3 1 = t.code := by
  apply BitVec.eq_of_getLsbD_eq; intro i hi; simp [fm]; grind
/-- The low part and the high part of two fields side by side. -/
@[simp] theorem append_lo {m n : Nat} (a : BitVec m) (b : BitVec n) : (a ++ b).extractLsb' 0 n = b := by
  apply BitVec.eq_of_getLsbD_eq; intro i hi; simp; grind
@[simp] theorem append_hi {m n : Nat} (a : BitVec m) (b : BitVec n) : (a ++ b).extractLsb' n m = a := by
  apply BitVec.eq_of_getLsbD_eq; intro i hi; simp; grind
@[simp] theorem bit1_one (b : Bool) : (bit1 b = 1#1) = (b = true) := by cases b <;> decide
@[simp] theorem tyOfCode_code (t : Ty) : tyOfCode t.code = some t := by cases t <;> rfl
@[simp] theorem rmOfCode_code (r : Rm) : rmOfCode r.code = some r := by cases r <;> rfl
@[simp] theorem scopeOfCode_code (c : Scope) : scopeOfCode c.code = some c := by cases c <;> rfl
@[simp] theorem fcondOf_code (c : FCond) (k : FCond → Dec) : fcondOf c.code k = k c := by cases c <;> rfl
@[simp] theorem icondOf_code (c : ICond) (k : ICond → Dec) : icondOf c.code k = k c := by cases c <;> rfl
@[simp] theorem sgnOf_code (c : SgnVar) (k : SgnVar → Dec) : sgnOf c.code k = k c := by cases c <;> rfl
@[simp] theorem redOf_code (c : RedOp) (k : RedOp → Dec) : redOf c.code k = k c := by cases c <;> rfl
@[simp] theorem s4_lo (v : BitVec 4) : (s4 v).extractLsb' 0 4 = v := by
  apply BitVec.eq_of_getLsbD_eq; intro i hi; simp [s4]; grind
@[simp] theorem s4_hi (v : BitVec 4) : (s4 v).extractLsb' 4 1 = 0 := by
  apply BitVec.eq_of_getLsbD_eq; intro i hi; simp [s4]; grind
@[simp] theorem s3_lo (v : BitVec 3) : (s3 v).extractLsb' 0 3 = v := by
  apply BitVec.eq_of_getLsbD_eq; intro i hi; simp [s3]; grind
@[simp] theorem s3_hi (v : BitVec 3) : (s3 v).extractLsb' 3 2 = 0 := by
  apply BitVec.eq_of_getLsbD_eq; intro i hi; simp [s3]; grind
@[simp] theorem srcV_s4 (v : VReg) (k : VReg → Dec) : srcV (s4 v) k = k v := by simp [srcV]
@[simp] theorem src8_s3 (v : BitVec 3) (k : BitVec 3 → Dec) : src8 (s3 v) k = k v := by simp [src8]
@[simp] theorem dX_lo (d : XReg) : (dX d).extractLsb' 0 5 = d := by
  apply BitVec.eq_of_getLsbD_eq; intro i hi; simp [dX]; grind
@[simp] theorem dX_hi (d : XReg) : (dX d).extractLsb' 5 2 = 0 := by
  apply BitVec.eq_of_getLsbD_eq; intro i hi; simp [dX]; grind
@[simp] theorem dV_lo (d : VReg) : (dV d).extractLsb' 0 4 = d := by
  apply BitVec.eq_of_getLsbD_eq; intro i hi; simp [dV]; grind
@[simp] theorem dV_mid (d : VReg) : (dV d).extractLsb' 4 1 = 0 := by
  apply BitVec.eq_of_getLsbD_eq; intro i hi; simp [dV]; grind
@[simp] theorem dV_hi (d : VReg) : (dV d).extractLsb' 5 2 = 1 := by
  apply BitVec.eq_of_getLsbD_eq; intro i hi; simp [dV]; grind
@[simp] theorem dQ_lo (d : QReg) : (dQ d).extractLsb' 0 3 = d := by
  apply BitVec.eq_of_getLsbD_eq; intro i hi; simp [dQ]; grind
@[simp] theorem dQ_mid (d : QReg) : (dQ d).extractLsb' 3 2 = 0 := by
  apply BitVec.eq_of_getLsbD_eq; intro i hi; simp [dQ]; grind
@[simp] theorem dQ_hi (d : QReg) : (dQ d).extractLsb' 5 2 = 2 := by
  apply BitVec.eq_of_getLsbD_eq; intro i hi; simp [dQ]; grind
@[simp] theorem dA_lo (d : AccReg) : (dA d).extractLsb' 0 3 = d := by
  apply BitVec.eq_of_getLsbD_eq; intro i hi; simp [dA]; grind
@[simp] theorem dA_mid (d : AccReg) : (dA d).extractLsb' 3 2 = 0 := by
  apply BitVec.eq_of_getLsbD_eq; intro i hi; simp [dA]; grind
@[simp] theorem dA_hi (d : AccReg) : (dA d).extractLsb' 5 2 = 3 := by
  apply BitVec.eq_of_getLsbD_eq; intro i hi; simp [dA]; grind
@[simp] theorem dF_lo (d : FmtReg) : ((dF d).extractLsb' 0 5 - 8#5).extractLsb' 0 4 = d := by
  revert d; decide
@[simp] theorem dF_mid (d : FmtReg) : ((dF d).extractLsb' 0 5 - 8#5).extractLsb' 4 1 = 0 := by
  revert d; decide
@[simp] theorem dF_hi (d : FmtReg) : (dF d).extractLsb' 5 2 = 3 := by
  revert d; decide
/-- The guard of a record is the one packed. -/
@[simp] theorem guard_eta (g : Guard) : (⟨g.pred, decide ((if g.pol = true then 1#1 else 0#1) = 1#1)⟩ : Guard) = g := by
  obtain ⟨p, q⟩ := g; cases q <;> simp
@[simp] theorem fty_code (t : FTy) : (if t.code = 1#1 then FTy.f32 else FTy.f64) = t := by cases t <;> rfl
theorem guard_ok (g : Guard) (h : g.wf = true) : (!decide (g.pred = 0#3) || !g.pol) = true := by
  simpa [Guard.wf] using h

end Sys2Proof
end

