-- ==== Sys2Proof/Laws/Exec.lean ====
section
/-! SUPPORT. Exec.lean: the meaning each constructor dispatches to, so that no proof unfolds the dispatch. -/

namespace Sys2Proof.Machine

theorem exec_blockExecute (s : State) : ∀ a0 a1, exec (.blockExecute a0 a1) s = execBlockExecute a0 a1 s := by intros; rfl
theorem exec_blockCommit (s : State) : ∀ a0 a1, exec (.blockCommit a0 a1) s = execBlockCommit a0 a1 s := by intros; rfl
theorem exec_lineFetch (s : State) : ∀ a0 a1, exec (.lineFetch a0 a1) s = execLineFetch a0 a1 s := by intros; rfl
theorem exec_lineFetchArrival (s : State) : ∀ a0, exec (.lineFetchArrival a0) s = execLineFetchArrival a0 s := by intros; rfl
theorem exec_endT (s : State) : ∀ a0, exec (.endT a0) s = execEndT a0 s := by intros; rfl
theorem exec_next (s : State) : ∀ a0, exec (.next a0) s = execNext a0 s := by intros; rfl
theorem exec_nop (s : State) : ∀ a0, exec (.nop a0) s = execNop a0 s := by intros; rfl
theorem exec_bEq (s : State) : ∀ a0 a1 a2 a3, exec (.bEq a0 a1 a2 a3) s = execBEq a0 a1 a2 a3 s := by intros; rfl
theorem exec_bNe (s : State) : ∀ a0 a1 a2 a3, exec (.bNe a0 a1 a2 a3) s = execBNe a0 a1 a2 a3 s := by intros; rfl
theorem exec_bLt (s : State) : ∀ a0 a1 a2 a3, exec (.bLt a0 a1 a2 a3) s = execBLt a0 a1 a2 a3 s := by intros; rfl
theorem exec_bGe (s : State) : ∀ a0 a1 a2 a3, exec (.bGe a0 a1 a2 a3) s = execBGe a0 a1 a2 a3 s := by intros; rfl
theorem exec_bLtu (s : State) : ∀ a0 a1 a2 a3, exec (.bLtu a0 a1 a2 a3) s = execBLtu a0 a1 a2 a3 s := by intros; rfl
theorem exec_bGeu (s : State) : ∀ a0 a1 a2 a3, exec (.bGeu a0 a1 a2 a3) s = execBGeu a0 a1 a2 a3 s := by intros; rfl
theorem exec_bLtz (s : State) : ∀ a0 a1 a2, exec (.bLtz a0 a1 a2) s = execBLtz a0 a1 a2 s := by intros; rfl
theorem exec_bGez (s : State) : ∀ a0 a1 a2, exec (.bGez a0 a1 a2) s = execBGez a0 a1 a2 s := by intros; rfl
theorem exec_bqAny (s : State) : ∀ a0 a1 a2, exec (.bqAny a0 a1 a2) s = execBqAny a0 a1 a2 s := by intros; rfl
theorem exec_bqAll (s : State) : ∀ a0 a1 a2, exec (.bqAll a0 a1 a2) s = execBqAll a0 a1 a2 s := by intros; rfl
theorem exec_jal (s : State) : ∀ a0 a1 a2, exec (.jal a0 a1 a2) s = execJal a0 a1 a2 s := by intros; rfl
theorem exec_jr (s : State) : ∀ a0 a1, exec (.jr a0 a1) s = execJr a0 a1 s := by intros; rfl
theorem exec_loop (s : State) : ∀ a0 a1 a2, exec (.loop a0 a1 a2) s = execLoop a0 a1 a2 s := by intros; rfl
theorem exec_loopi (s : State) : ∀ a0 a1 a2, exec (.loopi a0 a1 a2) s = execLoopi a0 a1 a2 s := by intros; rfl
theorem exec_sarm (s : State) : ∀ a0 a1 a2 a3 a4 a5, exec (.sarm a0 a1 a2 a3 a4 a5) s = execSarm a0 a1 a2 a3 a4 a5 s := by intros; rfl
theorem exec_sig (s : State) : ∀ a0 a1 a2 a3 a4, exec (.sig a0 a1 a2 a3 a4) s = execSig a0 a1 a2 a3 a4 s := by intros; rfl
theorem exec_sigw (s : State) : ∀ a0 a1 a2 a3 a4 a5 a6, exec (.sigw a0 a1 a2 a3 a4 a5 a6) s = execSigw a0 a1 a2 a3 a4 a5 a6 s := by intros; rfl
theorem exec_sigv (s : State) : ∀ a0 a1 a2 a3 a4 a5 a6, exec (.sigv a0 a1 a2 a3 a4 a5 a6) s = execSigv a0 a1 a2 a3 a4 a5 a6 s := by intros; rfl
theorem exec_falloc (s : State) : ∀ a0 a1 a2, exec (.falloc a0 a1 a2) s = execFalloc a0 a1 a2 s := by intros; rfl
theorem exec_ffree (s : State) : ∀ a0 a1, exec (.ffree a0 a1) s = execFfree a0 a1 s := by intros; rfl
theorem exec_fpin (s : State) : ∀ a0 a1, exec (.fpin a0 a1) s = execFpin a0 a1 s := by intros; rfl
theorem exec_funpin (s : State) : ∀ a0 a1, exec (.funpin a0 a1) s = execFunpin a0 a1 s := by intros; rfl
theorem exec_spawn (s : State) : ∀ a0 a1 a2 a3 a4 a5 a6 a7, exec (.spawn a0 a1 a2 a3 a4 a5 a6 a7) s = execSpawn a0 a1 a2 a3 a4 a5 a6 a7 s := by intros; rfl
theorem exec_tspawn (s : State) : ∀ a0 a1 a2 a3, exec (.tspawn a0 a1 a2 a3) s = execTspawn a0 a1 a2 a3 s := by intros; rfl
theorem exec_launch (s : State) : ∀ a0 a1 a2 a3 a4, exec (.launch a0 a1 a2 a3 a4) s = execLaunch a0 a1 a2 a3 a4 s := by intros; rfl
theorem exec_rbar (s : State) : ∀ a0 a1 a2 a3 a4, exec (.rbar a0 a1 a2 a3 a4) s = execRbar a0 a1 a2 a3 a4 s := by intros; rfl
theorem exec_rid (s : State) : ∀ a0 a1 a2, exec (.rid a0 a1 a2) s = execRid a0 a1 a2 s := by intros; rfl
theorem exec_fld (s : State) : ∀ a0 a1 a2 a3 a4, exec (.fld a0 a1 a2 a3 a4) s = execFld a0 a1 a2 a3 a4 s := by intros; rfl
theorem exec_fst (s : State) : ∀ a0 a1 a2 a3 a4, exec (.fst a0 a1 a2 a3 a4) s = execFst a0 a1 a2 a3 a4 s := by intros; rfl
theorem exec_fldv (s : State) : ∀ a0 a1 a2 a3 a4, exec (.fldv a0 a1 a2 a3 a4) s = execFldv a0 a1 a2 a3 a4 s := by intros; rfl
theorem exec_fstv (s : State) : ∀ a0 a1 a2 a3 a4, exec (.fstv a0 a1 a2 a3 a4) s = execFstv a0 a1 a2 a3 a4 s := by intros; rfl
theorem exec_trap (s : State) : ∀ a0 a1, exec (.trap a0 a1) s = execTrap a0 a1 s := by intros; rfl
theorem exec_brk (s : State) : ∀ a0 a1, exec (.brk a0 a1) s = execBrk a0 a1 s := by intros; rfl
theorem exec_tresume (s : State) : ∀ a0 a1, exec (.tresume a0 a1) s = execTresume a0 a1 s := by intros; rfl
theorem exec_add (s : State) : ∀ a0 a1 a2 a3, exec (.add a0 a1 a2 a3) s = execAdd a0 a1 a2 a3 s := by intros; rfl
theorem exec_sub (s : State) : ∀ a0 a1 a2 a3, exec (.sub a0 a1 a2 a3) s = execSub a0 a1 a2 a3 s := by intros; rfl
theorem exec_mul (s : State) : ∀ a0 a1 a2 a3, exec (.mul a0 a1 a2 a3) s = execMul a0 a1 a2 a3 s := by intros; rfl
theorem exec_mulh (s : State) : ∀ a0 a1 a2 a3, exec (.mulh a0 a1 a2 a3) s = execMulh a0 a1 a2 a3 s := by intros; rfl
theorem exec_mulhu (s : State) : ∀ a0 a1 a2 a3, exec (.mulhu a0 a1 a2 a3) s = execMulhu a0 a1 a2 a3 s := by intros; rfl
theorem exec_div (s : State) : ∀ a0 a1 a2 a3, exec (.div a0 a1 a2 a3) s = execDiv a0 a1 a2 a3 s := by intros; rfl
theorem exec_divu (s : State) : ∀ a0 a1 a2 a3, exec (.divu a0 a1 a2 a3) s = execDivu a0 a1 a2 a3 s := by intros; rfl
theorem exec_rem (s : State) : ∀ a0 a1 a2 a3, exec (.rem a0 a1 a2 a3) s = execRem a0 a1 a2 a3 s := by intros; rfl
theorem exec_remu (s : State) : ∀ a0 a1 a2 a3, exec (.remu a0 a1 a2 a3) s = execRemu a0 a1 a2 a3 s := by intros; rfl
theorem exec_min (s : State) : ∀ a0 a1 a2 a3, exec (.min a0 a1 a2 a3) s = execMin a0 a1 a2 a3 s := by intros; rfl
theorem exec_max (s : State) : ∀ a0 a1 a2 a3, exec (.max a0 a1 a2 a3) s = execMax a0 a1 a2 a3 s := by intros; rfl
theorem exec_minu (s : State) : ∀ a0 a1 a2 a3, exec (.minu a0 a1 a2 a3) s = execMinu a0 a1 a2 a3 s := by intros; rfl
theorem exec_maxu (s : State) : ∀ a0 a1 a2 a3, exec (.maxu a0 a1 a2 a3) s = execMaxu a0 a1 a2 a3 s := by intros; rfl
theorem exec_and (s : State) : ∀ a0 a1 a2 a3, exec (.and a0 a1 a2 a3) s = execAnd a0 a1 a2 a3 s := by intros; rfl
theorem exec_or (s : State) : ∀ a0 a1 a2 a3, exec (.or a0 a1 a2 a3) s = execOr a0 a1 a2 a3 s := by intros; rfl
theorem exec_xor (s : State) : ∀ a0 a1 a2 a3, exec (.xor a0 a1 a2 a3) s = execXor a0 a1 a2 a3 s := by intros; rfl
theorem exec_andn (s : State) : ∀ a0 a1 a2 a3, exec (.andn a0 a1 a2 a3) s = execAndn a0 a1 a2 a3 s := by intros; rfl
theorem exec_sll (s : State) : ∀ a0 a1 a2 a3, exec (.sll a0 a1 a2 a3) s = execSll a0 a1 a2 a3 s := by intros; rfl
theorem exec_srl (s : State) : ∀ a0 a1 a2 a3, exec (.srl a0 a1 a2 a3) s = execSrl a0 a1 a2 a3 s := by intros; rfl
theorem exec_sra (s : State) : ∀ a0 a1 a2 a3, exec (.sra a0 a1 a2 a3) s = execSra a0 a1 a2 a3 s := by intros; rfl
theorem exec_rol (s : State) : ∀ a0 a1 a2 a3, exec (.rol a0 a1 a2 a3) s = execRol a0 a1 a2 a3 s := by intros; rfl
theorem exec_ror (s : State) : ∀ a0 a1 a2 a3, exec (.ror a0 a1 a2 a3) s = execRor a0 a1 a2 a3 s := by intros; rfl
theorem exec_clz (s : State) : ∀ a0 a1 a2, exec (.clz a0 a1 a2) s = execClz a0 a1 a2 s := by intros; rfl
theorem exec_ctz (s : State) : ∀ a0 a1 a2, exec (.ctz a0 a1 a2) s = execCtz a0 a1 a2 s := by intros; rfl
theorem exec_popc (s : State) : ∀ a0 a1 a2, exec (.popc a0 a1 a2) s = execPopc a0 a1 a2 s := by intros; rfl
theorem exec_bswap (s : State) : ∀ a0 a1 a2, exec (.bswap a0 a1 a2) s = execBswap a0 a1 a2 s := by intros; rfl
theorem exec_seq (s : State) : ∀ a0 a1 a2 a3, exec (.seq a0 a1 a2 a3) s = execSeq a0 a1 a2 a3 s := by intros; rfl
theorem exec_sne (s : State) : ∀ a0 a1 a2 a3, exec (.sne a0 a1 a2 a3) s = execSne a0 a1 a2 a3 s := by intros; rfl
theorem exec_slt (s : State) : ∀ a0 a1 a2 a3, exec (.slt a0 a1 a2 a3) s = execSlt a0 a1 a2 a3 s := by intros; rfl
theorem exec_sltu (s : State) : ∀ a0 a1 a2 a3, exec (.sltu a0 a1 a2 a3) s = execSltu a0 a1 a2 a3 s := by intros; rfl
theorem exec_sext (s : State) : ∀ a0 a1 a2 a3, exec (.sext a0 a1 a2 a3) s = execSext a0 a1 a2 a3 s := by intros; rfl
theorem exec_zext (s : State) : ∀ a0 a1 a2 a3, exec (.zext a0 a1 a2 a3) s = execZext a0 a1 a2 a3 s := by intros; rfl
theorem exec_bfx (s : State) : ∀ a0 a1 a2 a3 a4, exec (.bfx a0 a1 a2 a3 a4) s = execBfx a0 a1 a2 a3 a4 s := by intros; rfl
theorem exec_bfxu (s : State) : ∀ a0 a1 a2 a3 a4, exec (.bfxu a0 a1 a2 a3 a4) s = execBfxu a0 a1 a2 a3 a4 s := by intros; rfl
theorem exec_bfi (s : State) : ∀ a0 a1 a2 a3 a4 a5, exec (.bfi a0 a1 a2 a3 a4 a5) s = execBfi a0 a1 a2 a3 a4 a5 s := by intros; rfl
theorem exec_sel (s : State) : ∀ a0 a1 a2 a3 a4, exec (.sel a0 a1 a2 a3 a4) s = execSel a0 a1 a2 a3 a4 s := by intros; rfl
theorem exec_addi (s : State) : ∀ a0 a1 a2 a3, exec (.addi a0 a1 a2 a3) s = execAddi a0 a1 a2 a3 s := by intros; rfl
theorem exec_andi (s : State) : ∀ a0 a1 a2 a3, exec (.andi a0 a1 a2 a3) s = execAndi a0 a1 a2 a3 s := by intros; rfl
theorem exec_ori (s : State) : ∀ a0 a1 a2 a3, exec (.ori a0 a1 a2 a3) s = execOri a0 a1 a2 a3 s := by intros; rfl
theorem exec_xori (s : State) : ∀ a0 a1 a2 a3, exec (.xori a0 a1 a2 a3) s = execXori a0 a1 a2 a3 s := by intros; rfl
theorem exec_slli (s : State) : ∀ a0 a1 a2 a3, exec (.slli a0 a1 a2 a3) s = execSlli a0 a1 a2 a3 s := by intros; rfl
theorem exec_srli (s : State) : ∀ a0 a1 a2 a3, exec (.srli a0 a1 a2 a3) s = execSrli a0 a1 a2 a3 s := by intros; rfl
theorem exec_srai (s : State) : ∀ a0 a1 a2 a3, exec (.srai a0 a1 a2 a3) s = execSrai a0 a1 a2 a3 s := by intros; rfl
theorem exec_slti (s : State) : ∀ a0 a1 a2 a3, exec (.slti a0 a1 a2 a3) s = execSlti a0 a1 a2 a3 s := by intros; rfl
theorem exec_sltiu (s : State) : ∀ a0 a1 a2 a3, exec (.sltiu a0 a1 a2 a3) s = execSltiu a0 a1 a2 a3 s := by intros; rfl
theorem exec_lea (s : State) : ∀ a0 a1 a2 a3 a4 a5, exec (.lea a0 a1 a2 a3 a4 a5) s = execLea a0 a1 a2 a3 a4 a5 s := by intros; rfl
theorem exec_li (s : State) : ∀ a0 a1 a2, exec (.li a0 a1 a2) s = execLi a0 a1 a2 s := by intros; rfl
theorem exec_lih (s : State) : ∀ a0 a1 a2 a3, exec (.lih a0 a1 a2 a3) s = execLih a0 a1 a2 a3 s := by intros; rfl
theorem exec_mov (s : State) : ∀ a0 a1 a2, exec (.mov a0 a1 a2) s = execMov a0 a1 a2 s := by intros; rfl
theorem exec_fadd (s : State) : ∀ a0 a1 a2 a3 a4 a5, exec (.fadd a0 a1 a2 a3 a4 a5) s = execFadd a0 a1 a2 a3 a4 a5 s := by intros; rfl
theorem exec_fsub (s : State) : ∀ a0 a1 a2 a3 a4 a5, exec (.fsub a0 a1 a2 a3 a4 a5) s = execFsub a0 a1 a2 a3 a4 a5 s := by intros; rfl
theorem exec_fmul (s : State) : ∀ a0 a1 a2 a3 a4 a5, exec (.fmul a0 a1 a2 a3 a4 a5) s = execFmul a0 a1 a2 a3 a4 a5 s := by intros; rfl
theorem exec_fdiv (s : State) : ∀ a0 a1 a2 a3 a4 a5, exec (.fdiv a0 a1 a2 a3 a4 a5) s = execFdiv a0 a1 a2 a3 a4 a5 s := by intros; rfl
theorem exec_fsqrt (s : State) : ∀ a0 a1 a2 a3 a4, exec (.fsqrt a0 a1 a2 a3 a4) s = execFsqrt a0 a1 a2 a3 a4 s := by intros; rfl
theorem exec_fma (s : State) : ∀ a0 a1 a2 a3 a4 a5 a6, exec (.fma a0 a1 a2 a3 a4 a5 a6) s = execFma a0 a1 a2 a3 a4 a5 a6 s := by intros; rfl
theorem exec_fmin (s : State) : ∀ a0 a1 a2 a3 a4, exec (.fmin a0 a1 a2 a3 a4) s = execFmin a0 a1 a2 a3 a4 s := by intros; rfl
theorem exec_fmax (s : State) : ∀ a0 a1 a2 a3 a4, exec (.fmax a0 a1 a2 a3 a4) s = execFmax a0 a1 a2 a3 a4 s := by intros; rfl
theorem exec_fcmp (s : State) : ∀ a0 a1 a2 a3 a4 a5, exec (.fcmp a0 a1 a2 a3 a4 a5) s = execFcmp a0 a1 a2 a3 a4 a5 s := by intros; rfl
theorem exec_fclass (s : State) : ∀ a0 a1 a2 a3, exec (.fclass a0 a1 a2 a3) s = execFclass a0 a1 a2 a3 s := by intros; rfl
theorem exec_fsgnj (s : State) : ∀ a0 a1 a2 a3 a4 a5, exec (.fsgnj a0 a1 a2 a3 a4 a5) s = execFsgnj a0 a1 a2 a3 a4 a5 s := by intros; rfl
theorem exec_fcvt (s : State) : ∀ a0 a1 a2 a3 a4 a5, exec (.fcvt a0 a1 a2 a3 a4 a5) s = execFcvt a0 a1 a2 a3 a4 a5 s := by intros; rfl
theorem exec_vfadd (s : State) : ∀ a0 a1 a2 a3 a4 a5, exec (.vfadd a0 a1 a2 a3 a4 a5) s = execVfadd a0 a1 a2 a3 a4 a5 s := by intros; rfl
theorem exec_vfsub (s : State) : ∀ a0 a1 a2 a3 a4 a5, exec (.vfsub a0 a1 a2 a3 a4 a5) s = execVfsub a0 a1 a2 a3 a4 a5 s := by intros; rfl
theorem exec_vfmul (s : State) : ∀ a0 a1 a2 a3 a4 a5, exec (.vfmul a0 a1 a2 a3 a4 a5) s = execVfmul a0 a1 a2 a3 a4 a5 s := by intros; rfl
theorem exec_vfma (s : State) : ∀ a0 a1 a2 a3 a4 a5 a6, exec (.vfma a0 a1 a2 a3 a4 a5 a6) s = execVfma a0 a1 a2 a3 a4 a5 a6 s := by intros; rfl
theorem exec_vfmin (s : State) : ∀ a0 a1 a2 a3 a4, exec (.vfmin a0 a1 a2 a3 a4) s = execVfmin a0 a1 a2 a3 a4 s := by intros; rfl
theorem exec_vfmax (s : State) : ∀ a0 a1 a2 a3 a4, exec (.vfmax a0 a1 a2 a3 a4) s = execVfmax a0 a1 a2 a3 a4 s := by intros; rfl
theorem exec_vfdiv (s : State) : ∀ a0 a1 a2 a3 a4 a5, exec (.vfdiv a0 a1 a2 a3 a4 a5) s = execVfdiv a0 a1 a2 a3 a4 a5 s := by intros; rfl
theorem exec_vfsqrt (s : State) : ∀ a0 a1 a2 a3 a4, exec (.vfsqrt a0 a1 a2 a3 a4) s = execVfsqrt a0 a1 a2 a3 a4 s := by intros; rfl
theorem exec_vadd (s : State) : ∀ a0 a1 a2 a3 a4 a5, exec (.vadd a0 a1 a2 a3 a4 a5) s = execVadd a0 a1 a2 a3 a4 a5 s := by intros; rfl
theorem exec_vsub (s : State) : ∀ a0 a1 a2 a3 a4 a5, exec (.vsub a0 a1 a2 a3 a4 a5) s = execVsub a0 a1 a2 a3 a4 a5 s := by intros; rfl
theorem exec_vmul (s : State) : ∀ a0 a1 a2 a3 a4, exec (.vmul a0 a1 a2 a3 a4) s = execVmul a0 a1 a2 a3 a4 s := by intros; rfl
theorem exec_vmulh (s : State) : ∀ a0 a1 a2 a3 a4, exec (.vmulh a0 a1 a2 a3 a4) s = execVmulh a0 a1 a2 a3 a4 s := by intros; rfl
theorem exec_vmin (s : State) : ∀ a0 a1 a2 a3 a4, exec (.vmin a0 a1 a2 a3 a4) s = execVmin a0 a1 a2 a3 a4 s := by intros; rfl
theorem exec_vmax (s : State) : ∀ a0 a1 a2 a3 a4, exec (.vmax a0 a1 a2 a3 a4) s = execVmax a0 a1 a2 a3 a4 s := by intros; rfl
theorem exec_vand (s : State) : ∀ a0 a1 a2 a3 a4, exec (.vand a0 a1 a2 a3 a4) s = execVand a0 a1 a2 a3 a4 s := by intros; rfl
theorem exec_vor (s : State) : ∀ a0 a1 a2 a3 a4, exec (.vor a0 a1 a2 a3 a4) s = execVor a0 a1 a2 a3 a4 s := by intros; rfl
theorem exec_vxor (s : State) : ∀ a0 a1 a2 a3 a4, exec (.vxor a0 a1 a2 a3 a4) s = execVxor a0 a1 a2 a3 a4 s := by intros; rfl
theorem exec_vsll (s : State) : ∀ a0 a1 a2 a3 a4, exec (.vsll a0 a1 a2 a3 a4) s = execVsll a0 a1 a2 a3 a4 s := by intros; rfl
theorem exec_vsrl (s : State) : ∀ a0 a1 a2 a3 a4, exec (.vsrl a0 a1 a2 a3 a4) s = execVsrl a0 a1 a2 a3 a4 s := by intros; rfl
theorem exec_vsra (s : State) : ∀ a0 a1 a2 a3 a4, exec (.vsra a0 a1 a2 a3 a4) s = execVsra a0 a1 a2 a3 a4 s := by intros; rfl
theorem exec_vfcmp (s : State) : ∀ a0 a1 a2 a3 a4 a5, exec (.vfcmp a0 a1 a2 a3 a4 a5) s = execVfcmp a0 a1 a2 a3 a4 a5 s := by intros; rfl
theorem exec_vcmp (s : State) : ∀ a0 a1 a2 a3 a4 a5, exec (.vcmp a0 a1 a2 a3 a4 a5) s = execVcmp a0 a1 a2 a3 a4 a5 s := by intros; rfl
theorem exec_vsel (s : State) : ∀ a0 a1 a2 a3 a4 a5, exec (.vsel a0 a1 a2 a3 a4 a5) s = execVsel a0 a1 a2 a3 a4 a5 s := by intros; rfl
theorem exec_vredsum (s : State) : ∀ a0 a1 a2 a3, exec (.vredsum a0 a1 a2 a3) s = execVredsum a0 a1 a2 a3 s := by intros; rfl
theorem exec_vredmin (s : State) : ∀ a0 a1 a2 a3, exec (.vredmin a0 a1 a2 a3) s = execVredmin a0 a1 a2 a3 s := by intros; rfl
theorem exec_vredmax (s : State) : ∀ a0 a1 a2 a3, exec (.vredmax a0 a1 a2 a3) s = execVredmax a0 a1 a2 a3 s := by intros; rfl
theorem exec_vscan (s : State) : ∀ a0 a1 a2 a3 a4, exec (.vscan a0 a1 a2 a3 a4) s = execVscan a0 a1 a2 a3 a4 s := by intros; rfl
theorem exec_vperm (s : State) : ∀ a0 a1 a2 a3 a4, exec (.vperm a0 a1 a2 a3 a4) s = execVperm a0 a1 a2 a3 a4 s := by intros; rfl
theorem exec_vbcast (s : State) : ∀ a0 a1 a2 a3, exec (.vbcast a0 a1 a2 a3) s = execVbcast a0 a1 a2 a3 s := by intros; rfl
theorem exec_vext (s : State) : ∀ a0 a1 a2 a3 a4, exec (.vext a0 a1 a2 a3 a4) s = execVext a0 a1 a2 a3 a4 s := by intros; rfl
theorem exec_vins (s : State) : ∀ a0 a1 a2 a3 a4, exec (.vins a0 a1 a2 a3 a4) s = execVins a0 a1 a2 a3 a4 s := by intros; rfl
theorem exec_vcompress (s : State) : ∀ a0 a1 a2 a3, exec (.vcompress a0 a1 a2 a3) s = execVcompress a0 a1 a2 a3 s := by intros; rfl
theorem exec_vexpand (s : State) : ∀ a0 a1 a2 a3, exec (.vexpand a0 a1 a2 a3) s = execVexpand a0 a1 a2 a3 s := by intros; rfl
theorem exec_vcvt (s : State) : ∀ a0 a1 a2 a3 a4 a5 a6, exec (.vcvt a0 a1 a2 a3 a4 a5 a6) s = execVcvt a0 a1 a2 a3 a4 a5 a6 s := by intros; rfl
theorem exec_vexp2 (s : State) : ∀ a0 a1 a2 a3, exec (.vexp2 a0 a1 a2 a3) s = execVexp2 a0 a1 a2 a3 s := by intros; rfl
theorem exec_vrcp (s : State) : ∀ a0 a1 a2 a3, exec (.vrcp a0 a1 a2 a3) s = execVrcp a0 a1 a2 a3 s := by intros; rfl
theorem exec_vrsqrt (s : State) : ∀ a0 a1 a2 a3, exec (.vrsqrt a0 a1 a2 a3) s = execVrsqrt a0 a1 a2 a3 s := by intros; rfl
theorem exec_pmaskLt (s : State) : ∀ a0 a1 a2 a3 a4, exec (.pmaskLt a0 a1 a2 a3 a4) s = execPmaskLt a0 a1 a2 a3 a4 s := by intros; rfl
theorem exec_pand (s : State) : ∀ a0 a1 a2 a3, exec (.pand a0 a1 a2 a3) s = execPand a0 a1 a2 a3 s := by intros; rfl
theorem exec_por (s : State) : ∀ a0 a1 a2 a3, exec (.por a0 a1 a2 a3) s = execPor a0 a1 a2 a3 s := by intros; rfl
theorem exec_pxor (s : State) : ∀ a0 a1 a2 a3, exec (.pxor a0 a1 a2 a3) s = execPxor a0 a1 a2 a3 s := by intros; rfl
theorem exec_pnot (s : State) : ∀ a0 a1 a2, exec (.pnot a0 a1 a2) s = execPnot a0 a1 a2 s := by intros; rfl
theorem exec_pcnt (s : State) : ∀ a0 a1 a2, exec (.pcnt a0 a1 a2) s = execPcnt a0 a1 a2 s := by intros; rfl
theorem exec_pfirst (s : State) : ∀ a0 a1 a2, exec (.pfirst a0 a1 a2) s = execPfirst a0 a1 a2 s := by intros; rfl
theorem exec_ld (s : State) : ∀ a0 a1 a2 a3 a4 a5, exec (.ld a0 a1 a2 a3 a4 a5) s = execLd a0 a1 a2 a3 a4 a5 s := by intros; rfl
theorem exec_st (s : State) : ∀ a0 a1 a2 a3 a4 a5, exec (.st a0 a1 a2 a3 a4 a5) s = execSt a0 a1 a2 a3 a4 a5 s := by intros; rfl
theorem exec_vld (s : State) : ∀ a0 a1 a2 a3 a4 a5, exec (.vld a0 a1 a2 a3 a4 a5) s = execVld a0 a1 a2 a3 a4 a5 s := by intros; rfl
theorem exec_vst (s : State) : ∀ a0 a1 a2 a3 a4 a5, exec (.vst a0 a1 a2 a3 a4 a5) s = execVst a0 a1 a2 a3 a4 a5 s := by intros; rfl
theorem exec_vldf (s : State) : ∀ a0 a1 a2 a3 a4 a5, exec (.vldf a0 a1 a2 a3 a4 a5) s = execVldf a0 a1 a2 a3 a4 a5 s := by intros; rfl
theorem exec_vstq (s : State) : ∀ a0 a1 a2 a3 a4 a5 a6, exec (.vstq a0 a1 a2 a3 a4 a5 a6) s = execVstq a0 a1 a2 a3 a4 a5 a6 s := by intros; rfl
theorem exec_get (s : State) : ∀ a0 a1 a2 a3 a4 a5, exec (.get a0 a1 a2 a3 a4 a5) s = execGet a0 a1 a2 a3 a4 a5 s := by intros; rfl
theorem exec_put (s : State) : ∀ a0 a1 a2 a3 a4 a5, exec (.put a0 a1 a2 a3 a4 a5) s = execPut a0 a1 a2 a3 a4 a5 s := by intros; rfl
theorem exec_vget (s : State) : ∀ a0 a1 a2 a3 a4, exec (.vget a0 a1 a2 a3 a4) s = execVget a0 a1 a2 a3 a4 s := by intros; rfl
theorem exec_vput (s : State) : ∀ a0 a1 a2 a3 a4, exec (.vput a0 a1 a2 a3 a4) s = execVput a0 a1 a2 a3 a4 s := by intros; rfl
theorem exec_copy (s : State) : ∀ a0 a1 a2 a3 a4 a5, exec (.copy a0 a1 a2 a3 a4 a5) s = execCopy a0 a1 a2 a3 a4 a5 s := by intros; rfl
theorem exec_gather (s : State) : ∀ a0 a1 a2 a3 a4 a5 a6 a7 a8, exec (.gather a0 a1 a2 a3 a4 a5 a6 a7 a8) s = execGather a0 a1 a2 a3 a4 a5 a6 a7 a8 s := by intros; rfl
theorem exec_scatter (s : State) : ∀ a0 a1 a2 a3 a4 a5 a6 a7 a8, exec (.scatter a0 a1 a2 a3 a4 a5 a6 a7 a8) s = execScatter a0 a1 a2 a3 a4 a5 a6 a7 a8 s := by intros; rfl
theorem exec_amsg (s : State) : ∀ a0 a1 a2 a3 a4 a5 a6, exec (.amsg a0 a1 a2 a3 a4 a5 a6) s = execAmsg a0 a1 a2 a3 a4 a5 a6 s := by intros; rfl
theorem exec_own (s : State) : ∀ a0 a1 a2 a3 a4 a5, exec (.own a0 a1 a2 a3 a4 a5) s = execOwn a0 a1 a2 a3 a4 a5 s := by intros; rfl
theorem exec_ldfe (s : State) : ∀ a0 a1 a2 a3 a4, exec (.ldfe a0 a1 a2 a3 a4) s = execLdfe a0 a1 a2 a3 a4 s := by intros; rfl
theorem exec_stef (s : State) : ∀ a0 a1 a2 a3 a4, exec (.stef a0 a1 a2 a3 a4) s = execStef a0 a1 a2 a3 a4 s := by intros; rfl
theorem exec_tagf (s : State) : ∀ a0 a1 a2 a3, exec (.tagf a0 a1 a2 a3) s = execTagf a0 a1 a2 a3 s := by intros; rfl
theorem exec_tage (s : State) : ∀ a0 a1 a2 a3, exec (.tage a0 a1 a2 a3) s = execTage a0 a1 a2 a3 s := by intros; rfl
theorem exec_amoAdd (s : State) : ∀ a0 a1 a2 a3 a4 a5 a6, exec (.amoAdd a0 a1 a2 a3 a4 a5 a6) s = execAmoAdd a0 a1 a2 a3 a4 a5 a6 s := by intros; rfl
theorem exec_amoAnd (s : State) : ∀ a0 a1 a2 a3 a4 a5 a6, exec (.amoAnd a0 a1 a2 a3 a4 a5 a6) s = execAmoAnd a0 a1 a2 a3 a4 a5 a6 s := by intros; rfl
theorem exec_amoOr (s : State) : ∀ a0 a1 a2 a3 a4 a5 a6, exec (.amoOr a0 a1 a2 a3 a4 a5 a6) s = execAmoOr a0 a1 a2 a3 a4 a5 a6 s := by intros; rfl
theorem exec_amoXor (s : State) : ∀ a0 a1 a2 a3 a4 a5 a6, exec (.amoXor a0 a1 a2 a3 a4 a5 a6) s = execAmoXor a0 a1 a2 a3 a4 a5 a6 s := by intros; rfl
theorem exec_amoMin (s : State) : ∀ a0 a1 a2 a3 a4 a5 a6, exec (.amoMin a0 a1 a2 a3 a4 a5 a6) s = execAmoMin a0 a1 a2 a3 a4 a5 a6 s := by intros; rfl
theorem exec_amoMax (s : State) : ∀ a0 a1 a2 a3 a4 a5 a6, exec (.amoMax a0 a1 a2 a3 a4 a5 a6) s = execAmoMax a0 a1 a2 a3 a4 a5 a6 s := by intros; rfl
theorem exec_amoSwap (s : State) : ∀ a0 a1 a2 a3 a4 a5 a6, exec (.amoSwap a0 a1 a2 a3 a4 a5 a6) s = execAmoSwap a0 a1 a2 a3 a4 a5 a6 s := by intros; rfl
theorem exec_amoCas (s : State) : ∀ a0 a1 a2 a3 a4 a5 a6 a7, exec (.amoCas a0 a1 a2 a3 a4 a5 a6 a7) s = execAmoCas a0 a1 a2 a3 a4 a5 a6 a7 s := by intros; rfl
theorem exec_redAdd (s : State) : ∀ a0 a1 a2 a3 a4, exec (.redAdd a0 a1 a2 a3 a4) s = execRedAdd a0 a1 a2 a3 a4 s := by intros; rfl
theorem exec_redMin (s : State) : ∀ a0 a1 a2 a3 a4, exec (.redMin a0 a1 a2 a3 a4) s = execRedMin a0 a1 a2 a3 a4 s := by intros; rfl
theorem exec_redMax (s : State) : ∀ a0 a1 a2 a3 a4, exec (.redMax a0 a1 a2 a3 a4) s = execRedMax a0 a1 a2 a3 a4 s := by intros; rfl
theorem exec_csnap (s : State) : ∀ a0 a1 a2 a3 a4, exec (.csnap a0 a1 a2 a3 a4) s = execCsnap a0 a1 a2 a3 a4 s := by intros; rfl
theorem exec_fenceRel (s : State) : ∀ a0 a1, exec (.fenceRel a0 a1) s = execFenceRel a0 a1 s := by intros; rfl
theorem exec_fenceAcq (s : State) : ∀ a0 a1, exec (.fenceAcq a0 a1) s = execFenceAcq a0 a1 s := by intros; rfl
theorem exec_sigRel (s : State) : ∀ a0 a1 a2 a3 a4, exec (.sigRel a0 a1 a2 a3 a4) s = execSigRel a0 a1 a2 a3 a4 s := by intros; rfl
theorem exec_enq (s : State) : ∀ a0 a1 a2 a3 a4 a5 a6, exec (.enq a0 a1 a2 a3 a4 a5 a6) s = execEnq a0 a1 a2 a3 a4 a5 a6 s := by intros; rfl
theorem exec_enqA (s : State) : ∀ a0 a1 a2 a3 a4 a5 a6, exec (.enqA a0 a1 a2 a3 a4 a5 a6) s = execEnqA a0 a1 a2 a3 a4 a5 a6 s := by intros; rfl
theorem exec_deq (s : State) : ∀ a0 a1 a2 a3 a4 a5 a6, exec (.deq a0 a1 a2 a3 a4 a5 a6) s = execDeq a0 a1 a2 a3 a4 a5 a6 s := by intros; rfl
theorem exec_stgClaim (s : State) : ∀ a0 a1 a2, exec (.stgClaim a0 a1 a2) s = execStgClaim a0 a1 a2 s := by intros; rfl
theorem exec_stgFree (s : State) : ∀ a0 a1 a2, exec (.stgFree a0 a1 a2) s = execStgFree a0 a1 a2 s := by intros; rfl
theorem exec_mma (s : State) : ∀ a0 a1 a2 a3 a4 a5 a6, exec (.mma a0 a1 a2 a3 a4 a5 a6) s = execMma a0 a1 a2 a3 a4 a5 a6 s := by intros; rfl
theorem exec_mmaF32 (s : State) : ∀ a0 a1 a2 a3 a4 a5 a6, exec (.mmaF32 a0 a1 a2 a3 a4 a5 a6) s = execMmaF32 a0 a1 a2 a3 a4 a5 a6 s := by intros; rfl
theorem exec_mmaF64 (s : State) : ∀ a0 a1 a2 a3 a4 a5 a6, exec (.mmaF64 a0 a1 a2 a3 a4 a5 a6) s = execMmaF64 a0 a1 a2 a3 a4 a5 a6 s := by intros; rfl
theorem exec_mmag (s : State) : ∀ a0 a1 a2 a3 a4 a5 a6 a7, exec (.mmag a0 a1 a2 a3 a4 a5 a6 a7) s = execMmag a0 a1 a2 a3 a4 a5 a6 a7 s := by intros; rfl
theorem exec_mmas (s : State) : ∀ a0 a1 a2 a3 a4 a5 a6, exec (.mmas a0 a1 a2 a3 a4 a5 a6) s = execMmas a0 a1 a2 a3 a4 a5 a6 s := by intros; rfl
theorem exec_mscan (s : State) : ∀ a0 a1 a2 a3 a4 a5 a6, exec (.mscan a0 a1 a2 a3 a4 a5 a6) s = execMscan a0 a1 a2 a3 a4 a5 a6 s := by intros; rfl
theorem exec_mscanSeg (s : State) : ∀ a0 a1 a2 a3 a4 a5 a6, exec (.mscanSeg a0 a1 a2 a3 a4 a5 a6) s = execMscanSeg a0 a1 a2 a3 a4 a5 a6 s := by intros; rfl
theorem exec_accGet (s : State) : ∀ a0 a1, exec (.accGet a0 a1) s = execAccGet a0 a1 s := by intros; rfl
theorem exec_accGive (s : State) : ∀ a0 a1, exec (.accGive a0 a1) s = execAccGive a0 a1 s := by intros; rfl
theorem exec_accZero (s : State) : ∀ a0 a1, exec (.accZero a0 a1) s = execAccZero a0 a1 s := by intros; rfl
theorem exec_accLd (s : State) : ∀ a0 a1 a2 a3 a4 a5 a6, exec (.accLd a0 a1 a2 a3 a4 a5 a6) s = execAccLd a0 a1 a2 a3 a4 a5 a6 s := by intros; rfl
theorem exec_accSt (s : State) : ∀ a0 a1 a2 a3 a4 a5 a6, exec (.accSt a0 a1 a2 a3 a4 a5 a6) s = execAccSt a0 a1 a2 a3 a4 a5 a6 s := by intros; rfl
theorem exec_accAdd (s : State) : ∀ a0 a1 a2 a3, exec (.accAdd a0 a1 a2 a3) s = execAccAdd a0 a1 a2 a3 s := by intros; rfl
theorem exec_accRed (s : State) : ∀ a0 a1 a2 a3, exec (.accRed a0 a1 a2 a3) s = execAccRed a0 a1 a2 a3 s := by intros; rfl
theorem exec_qtile (s : State) : ∀ a0 a1 a2 a3 a4 a5 a6, exec (.qtile a0 a1 a2 a3 a4 a5 a6) s = execQtile a0 a1 a2 a3 a4 a5 a6 s := by intros; rfl
theorem exec_fmtSet (s : State) : ∀ a0 a1 a2, exec (.fmtSet a0 a1 a2) s = execFmtSet a0 a1 a2 s := by intros; rfl
theorem exec_fmtGet (s : State) : ∀ a0 a1 a2, exec (.fmtGet a0 a1 a2) s = execFmtGet a0 a1 a2 s := by intros; rfl
theorem exec_sysr (s : State) : ∀ a0 a1 a2, exec (.sysr a0 a1 a2) s = execSysr a0 a1 a2 s := by intros; rfl
theorem exec_sysw (s : State) : ∀ a0 a1 a2, exec (.sysw a0 a1 a2) s = execSysw a0 a1 a2 s := by intros; rfl
theorem exec_ctrRd (s : State) : ∀ a0 a1 a2, exec (.ctrRd a0 a1 a2) s = execCtrRd a0 a1 a2 s := by intros; rfl
theorem exec_ctrCfg (s : State) : ∀ a0 a1 a2, exec (.ctrCfg a0 a1 a2) s = execCtrCfg a0 a1 a2 s := by intros; rfl
theorem exec_rv64imcInstruction (s : State) : ∀ a0, exec (.rv64imcInstruction a0) s = execRv64imcInstruction a0 s := by intros; rfl
theorem exec_cpGo (s : State) : ∀ a0 a1, exec (.cpGo a0 a1) s = execCpGo a0 a1 s := by intros; rfl
theorem exec_cpWait (s : State) : ∀ a0 a1 a2, exec (.cpWait a0 a1 a2) s = execCpWait a0 a1 a2 s := by intros; rfl
theorem exec_cpStat (s : State) : ∀ a0 a1, exec (.cpStat a0 a1) s = execCpStat a0 a1 s := by intros; rfl
theorem exec_lsSig (s : State) : ∀ a0 a1, exec (.lsSig a0 a1) s = execLsSig a0 a1 s := by intros; rfl
theorem exec_lsRid (s : State) : ∀ a0 a1, exec (.lsRid a0 a1) s = execLsRid a0 a1 s := by intros; rfl
theorem exec_lsEnd (s : State) : exec .lsEnd s = execLsEnd s := rfl
theorem exec_stgAcq (s : State) : ∀ a0 a1 a2, exec (.stgAcq a0 a1 a2) s = execStgAcq a0 a1 a2 s := by intros; rfl
theorem exec_stgTry (s : State) : ∀ a0 a1 a2, exec (.stgTry a0 a1 a2) s = execStgTry a0 a1 a2 s := by intros; rfl
theorem exec_stgRd (s : State) : ∀ a0 a1 a2, exec (.stgRd a0 a1 a2) s = execStgRd a0 a1 a2 s := by intros; rfl
theorem exec_epRd (s : State) : ∀ a0 a1 a2, exec (.epRd a0 a1 a2) s = execEpRd a0 a1 a2 s := by intros; rfl
theorem exec_lsLdw (s : State) : ∀ a0 a1 a2, exec (.lsLdw a0 a1 a2) s = execLsLdw a0 a1 a2 s := by intros; rfl
theorem exec_lsStw (s : State) : ∀ a0 a1, exec (.lsStw a0 a1) s = execLsStw a0 a1 s := by intros; rfl
theorem exec_cpGoChannelStart (s : State) : ∀ a0 a1, exec (.cpGoChannelStart a0 a1) s = execCpGoChannelStart a0 a1 s := by intros; rfl
theorem exec_cpWaitResume (s : State) : ∀ a0 a1, exec (.cpWaitResume a0 a1) s = execCpWaitResume a0 a1 s := by intros; rfl
theorem exec_stgAcqResume (s : State) : ∀ a0 a1, exec (.stgAcqResume a0 a1) s = execStgAcqResume a0 a1 s := by intros; rfl
theorem exec_copyBeatComplete (s : State) : ∀ a0, exec (.copyBeatComplete a0) s = execCopyBeatComplete a0 s := by intros; rfl
theorem exec_sliceRequest (s : State) : ∀ a0, exec (.sliceRequest a0) s = execSliceRequest a0 s := by intros; rfl
theorem exec_mergeWindowClose (s : State) : ∀ a0, exec (.mergeWindowClose a0) s = execMergeWindowClose a0 s := by intros; rfl
theorem exec_lineFill (s : State) : ∀ a0, exec (.lineFill a0) s = execLineFill a0 s := by intros; rfl
theorem exec_redInjectRelease (s : State) : ∀ a0, exec (.redInjectRelease a0) s = execRedInjectRelease a0 s := by intros; rfl
theorem exec_stcInvAll (s : State) : ∀ a0 a1 a2, exec (.stcInvAll a0 a1 a2) s = execStcInvAll a0 a1 a2 s := by intros; rfl
theorem exec_stcInvSid (s : State) : ∀ a0 a1 a2, exec (.stcInvSid a0 a1 a2) s = execStcInvSid a0 a1 a2 s := by intros; rfl
theorem exec_stcInvPage (s : State) : ∀ a0 a1 a2, exec (.stcInvPage a0 a1 a2) s = execStcInvPage a0 a1 a2 s := by intros; rfl
theorem exec_stcInvWriteback (s : State) : ∀ a0, exec (.stcInvWriteback a0) s = execStcInvWriteback a0 s := by intros; rfl
theorem exec_stcInvComplete (s : State) : ∀ a0, exec (.stcInvComplete a0) s = execStcInvComplete a0 s := by intros; rfl
theorem exec_faultReplay (s : State) : ∀ a0 a1 a2, exec (.faultReplay a0 a1 a2) s = execFaultReplay a0 a1 a2 s := by intros; rfl
theorem exec_faultFatal (s : State) : ∀ a0 a1 a2, exec (.faultFatal a0 a1 a2) s = execFaultFatal a0 a1 a2 s := by intros; rfl
theorem exec_bankRequest (s : State) : ∀ a0, exec (.bankRequest a0) s = execBankRequest a0 s := by intros; rfl
theorem exec_bankReplay (s : State) : ∀ a0 a1, exec (.bankReplay a0 a1) s = execBankReplay a0 a1 s := by intros; rfl
theorem exec_feRetry (s : State) : ∀ a0, exec (.feRetry a0) s = execFeRetry a0 s := by intros; rfl
theorem exec_spillAcknowledged (s : State) : ∀ a0, exec (.spillAcknowledged a0) s = execSpillAcknowledged a0 s := by intros; rfl
theorem exec_framePacketArrival (s : State) : ∀ a0, exec (.framePacketArrival a0) s = execFramePacketArrival a0 s := by intros; rfl
theorem exec_forwardedSignal (s : State) : ∀ a0, exec (.forwardedSignal a0) s = execForwardedSignal a0 s := by intros; rfl
theorem exec_refillRequest (s : State) : ∀ a0, exec (.refillRequest a0) s = execRefillRequest a0 s := by intros; rfl
theorem exec_refillReadComplete (s : State) : ∀ a0, exec (.refillReadComplete a0) s = execRefillReadComplete a0 s := by intros; rfl
theorem exec_refillInstall (s : State) : ∀ a0, exec (.refillInstall a0) s = execRefillInstall a0 s := by intros; rfl
theorem exec_replyDelivery (s : State) : ∀ a0, exec (.replyDelivery a0) s = execReplyDelivery a0 s := by intros; rfl
theorem exec_tokenBind (s : State) : ∀ a0, exec (.tokenBind a0) s = execTokenBind a0 s := by intros; rfl
theorem exec_tokenPromotion (s : State) : ∀ a0, exec (.tokenPromotion a0) s = execTokenPromotion a0 s := by intros; rfl
theorem exec_amsgArrival (s : State) : ∀ a0, exec (.amsgArrival a0) s = execAmsgArrival a0 s := by intros; rfl
theorem exec_amsgRetry (s : State) : ∀ a0, exec (.amsgRetry a0) s = execAmsgRetry a0 s := by intros; rfl
theorem exec_spawnArrival (s : State) : ∀ a0, exec (.spawnArrival a0) s = execSpawnArrival a0 s := by intros; rfl
theorem exec_spawnRetry (s : State) : ∀ a0, exec (.spawnRetry a0) s = execSpawnRetry a0 s := by intros; rfl
theorem exec_enqEntryArrival (s : State) : ∀ a0, exec (.enqEntryArrival a0) s = execEnqEntryArrival a0 s := by intros; rfl
theorem exec_enqBufferRelease (s : State) : ∀ a0, exec (.enqBufferRelease a0) s = execEnqBufferRelease a0 s := by intros; rfl
theorem exec_creditArrival (s : State) : ∀ a0, exec (.creditArrival a0) s = execCreditArrival a0 s := by intros; rfl
theorem exec_heldPacketRelease (s : State) : ∀ a0, exec (.heldPacketRelease a0) s = execHeldPacketRelease a0 s := by intros; rfl
theorem exec_rbarArrival (s : State) : ∀ a0, exec (.rbarArrival a0) s = execRbarArrival a0 s := by intros; rfl
theorem exec_rbarCompletion (s : State) : ∀ a0, exec (.rbarCompletion a0) s = execRbarCompletion a0 s := by intros; rfl
theorem exec_matrixRequest (s : State) : ∀ a0, exec (.matrixRequest a0) s = execMatrixRequest a0 s := by intros; rfl
theorem exec_matrixRequestComplete (s : State) : ∀ a0, exec (.matrixRequestComplete a0) s = execMatrixRequestComplete a0 s := by intros; rfl
theorem exec_taskPush (s : State) : ∀ a0, exec (.taskPush a0) s = execTaskPush a0 s := by intros; rfl
theorem exec_pop (s : State) : ∀ a0 a1, exec (.pop a0 a1) s = execPop a0 a1 s := by intros; rfl
theorem exec_popDelivery (s : State) : ∀ a0, exec (.popDelivery a0) s = execPopDelivery a0 s := by intros; rfl
theorem exec_popRetry (s : State) : ∀ a0, exec (.popRetry a0) s = execPopRetry a0 s := by intros; rfl
theorem exec_stealRequest (s : State) : ∀ a0, exec (.stealRequest a0) s = execStealRequest a0 s := by intros; rfl
theorem exec_stealReply (s : State) : ∀ a0, exec (.stealReply a0) s = execStealReply a0 s := by intros; rfl
theorem exec_stealRetry (s : State) : ∀ a0 a1, exec (.stealRetry a0 a1) s = execStealRetry a0 a1 s := by intros; rfl
theorem exec_packetArrivalRouter (s : State) : ∀ a0 a1, exec (.packetArrivalRouter a0 a1) s = execPacketArrivalRouter a0 a1 s := by intros; rfl
theorem exec_routerGrant (s : State) : ∀ a0 a1 a2, exec (.routerGrant a0 a1 a2) s = execRouterGrant a0 a1 a2 s := by intros; rfl
theorem exec_slackTick (s : State) : ∀ a0, exec (.slackTick a0) s = execSlackTick a0 s := by intros; rfl
theorem exec_slackExhaustion (s : State) : ∀ a0, exec (.slackExhaustion a0) s = execSlackExhaustion a0 s := by intros; rfl
theorem exec_packetDelivery (s : State) : ∀ a0, exec (.packetDelivery a0) s = execPacketDelivery a0 s := by intros; rfl
theorem exec_flitReceive (s : State) : ∀ a0 a1 a2 a3, exec (.flitReceive a0 a1 a2 a3) s = execFlitReceive a0 a1 a2 a3 s := by intros; rfl
theorem exec_nackReceive (s : State) : ∀ a0 a1 a2, exec (.nackReceive a0 a1 a2) s = execNackReceive a0 a1 a2 s := by intros; rfl
theorem exec_ackReceive (s : State) : ∀ a0 a1 a2, exec (.ackReceive a0 a1 a2) s = execAckReceive a0 a1 a2 s := by intros; rfl
theorem exec_laneRetire (s : State) : ∀ a0 a1 a2, exec (.laneRetire a0 a1 a2) s = execLaneRetire a0 a1 a2 s := by intros; rfl
theorem exec_creditResyncSend (s : State) : ∀ a0 a1 a2, exec (.creditResyncSend a0 a1 a2) s = execCreditResyncSend a0 a1 a2 s := by intros; rfl
theorem exec_creditResyncReceive (s : State) : ∀ a0 a1 a2, exec (.creditResyncReceive a0 a1 a2) s = execCreditResyncReceive a0 a1 a2 s := by intros; rfl
theorem exec_launchSubmit (s : State) : ∀ a0 a1, exec (.launchSubmit a0 a1) s = execLaunchSubmit a0 a1 s := by intros; rfl
theorem exec_launchSubmission (s : State) : exec .launchSubmission s = execLaunchSubmission s := rfl
theorem exec_descriptorReadComplete (s : State) : ∀ a0, exec (.descriptorReadComplete a0) s = execDescriptorReadComplete a0 s := by intros; rfl
theorem exec_poolReservationRequest (s : State) : ∀ a0 a1, exec (.poolReservationRequest a0 a1) s = execPoolReservationRequest a0 a1 s := by intros; rfl
theorem exec_placementDecision (s : State) : exec .placementDecision s = execPlacementDecision s := rfl
theorem exec_reservingTimeout (s : State) : ∀ a0, exec (.reservingTimeout a0) s = execReservingTimeout a0 s := by intros; rfl
theorem exec_terminationSweep (s : State) : ∀ a0, exec (.terminationSweep a0) s = execTerminationSweep a0 s := by intros; rfl
theorem exec_hangTimeout (s : State) : ∀ a0, exec (.hangTimeout a0) s = execHangTimeout a0 s := by intros; rfl
theorem exec_faultedEnd (s : State) : ∀ a0, exec (.faultedEnd a0) s = execFaultedEnd a0 s := by intros; rfl
theorem exec_faultRecordAppend (s : State) : ∀ a0, exec (.faultRecordAppend a0) s = execFaultRecordAppend a0 s := by intros; rfl
theorem exec_powerLevelApply (s : State) : exec .powerLevelApply s = execPowerLevelApply s := rfl
theorem exec_supergroupPowerOff (s : State) : ∀ a0, exec (.supergroupPowerOff a0) s = execSupergroupPowerOff a0 s := by intros; rfl
theorem exec_wakeComplete (s : State) : ∀ a0, exec (.wakeComplete a0) s = execWakeComplete a0 s := by intros; rfl
theorem exec_duskWave (s : State) : ∀ a0 a1, exec (.duskWave a0 a1) s = execDuskWave a0 a1 s := by intros; rfl
theorem exec_freezeInPlace (s : State) : ∀ a0 a1, exec (.freezeInPlace a0 a1) s = execFreezeInPlace a0 a1 s := by intros; rfl
theorem exec_thaw (s : State) : ∀ a0 a1, exec (.thaw a0 a1) s = execThaw a0 a1 s := by intros; rfl
theorem exec_restore (s : State) : ∀ a0 a1, exec (.restore a0 a1) s = execRestore a0 a1 s := by intros; rfl
theorem exec_waveDrainComplete (s : State) : exec .waveDrainComplete s = execWaveDrainComplete s := rfl
theorem exec_waveFailure (s : State) : exec .waveFailure s = execWaveFailure s := rfl
theorem exec_restoreForward (s : State) : ∀ a0, exec (.restoreForward a0) s = execRestoreForward a0 s := by intros; rfl
theorem exec_dbgGo (s : State) : ∀ a0 a1, exec (.dbgGo a0 a1) s = execDbgGo a0 a1 s := by intros; rfl
theorem exec_dbgGoLoader (s : State) : ∀ a0 a1, exec (.dbgGoLoader a0 a1) s = execDbgGoLoader a0 a1 s := by intros; rfl
theorem exec_hostAccess (s : State) : ∀ a0 a1 a2 a3 a4 a5, exec (.hostAccess a0 a1 a2 a3 a4 a5) s = execHostAccess a0 a1 a2 a3 a4 a5 s := by intros; rfl
theorem exec_ingressWrite (s : State) : ∀ a0 a1 a2 a3, exec (.ingressWrite a0 a1 a2 a3) s = execIngressWrite a0 a1 a2 a3 s := by intros; rfl
theorem exec_ingressClose (s : State) : ∀ a0 a1, exec (.ingressClose a0 a1) s = execIngressClose a0 a1 s := by intros; rfl
theorem exec_ownershipClaim (s : State) : ∀ a0 a1, exec (.ownershipClaim a0 a1) s = execOwnershipClaim a0 a1 s := by intros; rfl
theorem exec_ownHandover (s : State) : ∀ a0 a1, exec (.ownHandover a0 a1) s = execOwnHandover a0 a1 s := by intros; rfl
theorem exec_ownRelease (s : State) : ∀ a0, exec (.ownRelease a0) s = execOwnRelease a0 s := by intros; rfl
theorem exec_ownerTimeout (s : State) : exec .ownerTimeout s = execOwnerTimeout s := rfl
theorem exec_budgetWrite (s : State) : ∀ a0 a1, exec (.budgetWrite a0 a1) s = execBudgetWrite a0 a1 s := by intros; rfl
theorem exec_daybreak (s : State) : exec .daybreak s = execDaybreak s := rfl
theorem exec_svnBurn (s : State) : ∀ a0 a1, exec (.svnBurn a0 a1) s = execSvnBurn a0 a1 s := by intros; rfl
theorem exec_attestationRequest (s : State) : ∀ a0, exec (.attestationRequest a0) s = execAttestationRequest a0 s := by intros; rfl
theorem exec_attestationComplete (s : State) : exec .attestationComplete s = execAttestationComplete s := rfl
theorem exec_spaceRetire (s : State) : ∀ a0 a1, exec (.spaceRetire a0 a1) s = execSpaceRetire a0 a1 s := by intros; rfl
theorem exec_spaceRetireComplete (s : State) : exec .spaceRetireComplete s = execSpaceRetireComplete s := rfl
theorem exec_cfgDataRead (s : State) : ∀ a0, exec (.cfgDataRead a0) s = execCfgDataRead a0 s := by intros; rfl
theorem exec_cfgDataWrite (s : State) : ∀ a0 a1, exec (.cfgDataWrite a0 a1) s = execCfgDataWrite a0 a1 s := by intros; rfl
theorem exec_windowAccess (s : State) : ∀ a0, exec (.windowAccess a0) s = execWindowAccess a0 s := by intros; rfl
theorem exec_registerWrite (s : State) : ∀ a0 a1 a2, exec (.registerWrite a0 a1 a2) s = execRegisterWrite a0 a1 a2 s := by intros; rfl
theorem exec_copyBeatIssue (s : State) : ∀ a0, exec (.copyBeatIssue a0) s = execCopyBeatIssue a0 s := by intros; rfl
theorem exec_placementReadComplete (s : State) : ∀ a0, exec (.placementReadComplete a0) s = execPlacementReadComplete a0 s := by intros; rfl
theorem exec_zeroisationComplete (s : State) : ∀ a0, exec (.zeroisationComplete a0) s = execZeroisationComplete a0 s := by intros; rfl
theorem exec_hostInvalidationComplete (s : State) : ∀ a0 a1, exec (.hostInvalidationComplete a0 a1) s = execHostInvalidationComplete a0 a1 s := by intros; rfl
theorem exec_managementHeartbeat (s : State) : exec .managementHeartbeat s = execManagementHeartbeat s := rfl
theorem exec_linkTraining (s : State) : ∀ a0 a1, exec (.linkTraining a0 a1) s = execLinkTraining a0 a1 s := by intros; rfl
theorem exec_creditCountSoftError (s : State) : ∀ a0 a1 a2 a3, exec (.creditCountSoftError a0 a1 a2 a3) s = execCreditCountSoftError a0 a1 a2 a3 s := by intros; rfl

end Sys2Proof.Machine
end

