-- ==== Sys2Proof/Laws/Map.lean ====
section
/-! SUPPORT. Laws/Map.lean: what reading a sparse map gives after each update, and that updates keep the canonical form. -/

namespace Sys2Proof.Machine

variable {α : Type}

@[simp] theorem mget_nil (d : α) (i : Nat) : mget d [] i = d := rfl
@[simp] theorem mhas_nil (i : Nat) : mhas ([] : Map α) i = false := rfl
theorem mget_of_not_mhas (d : α) (m : Map α) (i : Nat) (h : mhas m i = false) : mget d m i = d := by
  induction m with
  | nil => rfl
  | cons p t ih => simp_all [mhas, mget]
@[simp] theorem mget_merase (d : α) (i : Nat) (m : Map α) (j : Nat) :
    mget d (merase i m) j = if j = i then d else mget d m j := by
  induction m with
  | nil => simp [merase]
  | cons p t ih => grind [merase, mget]
@[simp] theorem mhas_merase (i : Nat) (m : Map α) (j : Nat) : mhas (merase i m) j = (j ≠ i && mhas m j) := by
  induction m with
  | nil => simp [merase]
  | cons p t ih => grind [merase, mhas]
theorem mget_mins (d : α) (i : Nat) (v : α) (m : Map α) (h : mhas m i = false) (j : Nat) :
    mget d (mins i v m) j = if j = i then v else mget d m j := by
  induction m with
  | nil => simp [mins, mget]
  | cons p t ih => grind [mins, mget, mhas]
/-- Reading after a write. -/
@[simp] theorem mget_mput (d : α) (i : Nat) (v : α) (m : Map α) (j : Nat) :
    mget d (mput i v m) j = if j = i then v else mget d m j := by
  rw [mput, mget_mins _ _ _ _ (by simp)]
  split <;> simp_all
@[simp] theorem mget_mset [DecidableEq α] (d : α) (i : Nat) (v : α) (m : Map α) (j : Nat) :
    mget d (mset d i v m) j = if j = i then v else mget d m j := by
  unfold mset
  split <;> simp_all
/-- A map rises exactly when its tail does and its first key is below the others. -/
theorem mrising_cons (k : Nat) (v : α) (t : Map α) :
    mrising ((k, v) :: t) = true ↔ mrising t = true ∧ ∀ p ∈ t, k < p.1 := by
  induction t generalizing k v with
  | nil => simp [mrising]
  | cons q t ih =>
    obtain ⟨k', v'⟩ := q
    simp only [mrising, Bool.and_eq_true, decide_eq_true_eq, List.mem_cons, forall_eq_or_imp]
    rw [ih k' v']
    constructor
    · rintro ⟨h, h1, h2⟩
      exact ⟨⟨h1, h2⟩, h, fun p hp => Nat.lt_trans h (h2 p hp)⟩
    · rintro ⟨⟨h1, h2⟩, h, _⟩
      exact ⟨h, h1, h2⟩
theorem mem_merase (i : Nat) (m : Map α) (p : Nat × α) : p ∈ merase i m ↔ p ∈ m ∧ p.1 ≠ i := by
  induction m with
  | nil => simp [merase]
  | cons q t ih => grind [merase]
theorem mem_mins (i : Nat) (v : α) (m : Map α) (p : Nat × α) : p ∈ mins i v m ↔ p = (i, v) ∨ p ∈ m := by
  induction m with
  | nil => simp [mins]
  | cons q t ih => grind [mins]
theorem mrising_merase (i : Nat) (m : Map α) (h : mrising m = true) : mrising (merase i m) = true := by
  induction m with
  | nil => simpa [merase] using h
  | cons q t ih =>
    obtain ⟨k, v⟩ := q
    obtain ⟨h1, h2⟩ := (mrising_cons k v t).1 h
    unfold merase
    split
    · exact ih h1
    · exact (mrising_cons _ _ _).2 ⟨ih h1, fun p hp => h2 p ((mem_merase i t p).1 hp).1⟩
theorem mrising_mins (i : Nat) (v : α) (m : Map α) (h : mrising m = true) (hi : ∀ p ∈ m, p.1 ≠ i) :
    mrising (mins i v m) = true := by
  induction m with
  | nil => rfl
  | cons q t ih =>
    obtain ⟨k, w⟩ := q
    obtain ⟨h1, h2⟩ := (mrising_cons k w t).1 h
    have hk : k ≠ i := hi (k, w) (by simp)
    unfold mins
    split
    · refine (mrising_cons _ _ _).2 ⟨h, ?_⟩
      rintro p hp
      rcases List.mem_cons.1 hp with rfl | hp
      · assumption
      · exact Nat.lt_trans ‹i < k› (h2 p hp)
    · refine (mrising_cons _ _ _).2 ⟨ih h1 fun p hp => hi p (List.mem_cons_of_mem _ hp), ?_⟩
      rintro p hp
      rcases (mem_mins i v t p).1 hp with rfl | hp
      · show k < i; omega
      · exact h2 p hp
/-- The canonical form is kept. -/
theorem mcanon_merase [DecidableEq α] (d : α) (i : Nat) (m : Map α) (h : mcanon d m = true) : mcanon d (merase i m) = true := by
  simp only [mcanon, Bool.and_eq_true, List.all_eq_true, decide_eq_true_eq] at *
  exact ⟨mrising_merase i m h.1, fun p hp => h.2 p ((mem_merase i m p).1 hp).1⟩
theorem mcanon_mset [DecidableEq α] (d : α) (i : Nat) (v : α) (m : Map α) (h : mcanon d m = true) : mcanon d (mset d i v m) = true := by
  unfold mset
  split
  · exact mcanon_merase d i m h
  · rename_i hv
    have he := mcanon_merase d i m h
    simp only [mcanon, Bool.and_eq_true, List.all_eq_true, decide_eq_true_eq] at *
    refine ⟨mrising_mins i v _ he.1 fun p hp => ((mem_merase i m p).1 hp).2, fun p hp => ?_⟩
    rcases (mem_mins i v _ p).1 hp with rfl | hp
    · exact hv
    · exact he.2 p hp
theorem mhas_eq_false (m : Map α) (i : Nat) : mhas m i = false ↔ ∀ p ∈ m, p.1 ≠ i := by
  induction m with
  | nil => simp
  | cons q t ih => grind [mhas]

end Sys2Proof.Machine
end

