-- ==== Sys2Proof/Laws/State.lean ====
section
/-! SUPPORT. Laws/State.lean: for each update of the state, what every field holds after it, and what the parts read. -/

namespace Sys2Proof.Machine

@[simp] theorem State.setCore_tick (s : State) (c : Nat) (x : Core) : (s.setCore c x).tick = s.tick := rfl
@[simp] theorem State.setCore_free (s : State) (c : Nat) (x : Core) : (s.setCore c x).free = s.free := rfl
@[simp] theorem State.setCore_acyc (s : State) (c : Nat) (x : Core) : (s.setCore c x).acyc = s.acyc := rfl
@[simp] theorem State.setCore_fcyc (s : State) (c : Nat) (x : Core) : (s.setCore c x).fcyc = s.fcyc := rfl
@[simp] theorem State.setCore_turns (s : State) (c : Nat) (x : Core) : (s.setCore c x).turns = s.turns := rfl
@[simp] theorem State.setCore_cur (s : State) (c : Nat) (x : Core) : (s.setCore c x).cur = s.cur := rfl
@[simp] theorem State.setCore_nextId (s : State) (c : Nat) (x : Core) : (s.setCore c x).nextId = s.nextId := rfl
@[simp] theorem State.setCore_pkg (s : State) (c : Nat) (x : Core) : (s.setCore c x).pkg = s.pkg := rfl
@[simp] theorem State.setCore_present (s : State) (c : Nat) (x : Core) : (s.setCore c x).present = s.present := rfl
@[simp] theorem State.setCore_slices (s : State) (c : Nat) (x : Core) : (s.setCore c x).slices = s.slices := rfl
@[simp] theorem State.setCore_units (s : State) (c : Nat) (x : Core) : (s.setCore c x).units = s.units := rfl
@[simp] theorem State.setCore_routers (s : State) (c : Nat) (x : Core) : (s.setCore c x).routers = s.routers := rfl
@[simp] theorem State.setCore_sysIn (s : State) (c : Nat) (x : Core) : (s.setCore c x).sysIn = s.sysIn := rfl
@[simp] theorem State.setCore_sysOut (s : State) (c : Nat) (x : Core) : (s.setCore c x).sysOut = s.sysOut := rfl
@[simp] theorem State.setCore_mem (s : State) (c : Nat) (x : Core) : (s.setCore c x).mem = s.mem := rfl
@[simp] theorem State.setCore_poison (s : State) (c : Nat) (x : Core) : (s.setCore c x).poison = s.poison := rfl
@[simp] theorem State.setCore_dist (s : State) (c : Nat) (x : Core) : (s.setCore c x).dist = s.dist := rfl
@[simp] theorem State.setCore_io (s : State) (c : Nat) (x : Core) : (s.setCore c x).io = s.io := rfl
@[simp] theorem State.setCore_host (s : State) (c : Nat) (x : Core) : (s.setCore c x).host = s.host := rfl
@[simp] theorem State.modCore_tick (s : State) (c : Nat) (f : Core → Core) : (s.modCore c f).tick = s.tick := rfl
@[simp] theorem State.modCore_free (s : State) (c : Nat) (f : Core → Core) : (s.modCore c f).free = s.free := rfl
@[simp] theorem State.modCore_acyc (s : State) (c : Nat) (f : Core → Core) : (s.modCore c f).acyc = s.acyc := rfl
@[simp] theorem State.modCore_fcyc (s : State) (c : Nat) (f : Core → Core) : (s.modCore c f).fcyc = s.fcyc := rfl
@[simp] theorem State.modCore_turns (s : State) (c : Nat) (f : Core → Core) : (s.modCore c f).turns = s.turns := rfl
@[simp] theorem State.modCore_cur (s : State) (c : Nat) (f : Core → Core) : (s.modCore c f).cur = s.cur := rfl
@[simp] theorem State.modCore_nextId (s : State) (c : Nat) (f : Core → Core) : (s.modCore c f).nextId = s.nextId := rfl
@[simp] theorem State.modCore_pkg (s : State) (c : Nat) (f : Core → Core) : (s.modCore c f).pkg = s.pkg := rfl
@[simp] theorem State.modCore_present (s : State) (c : Nat) (f : Core → Core) : (s.modCore c f).present = s.present := rfl
@[simp] theorem State.modCore_slices (s : State) (c : Nat) (f : Core → Core) : (s.modCore c f).slices = s.slices := rfl
@[simp] theorem State.modCore_units (s : State) (c : Nat) (f : Core → Core) : (s.modCore c f).units = s.units := rfl
@[simp] theorem State.modCore_routers (s : State) (c : Nat) (f : Core → Core) : (s.modCore c f).routers = s.routers := rfl
@[simp] theorem State.modCore_sysIn (s : State) (c : Nat) (f : Core → Core) : (s.modCore c f).sysIn = s.sysIn := rfl
@[simp] theorem State.modCore_sysOut (s : State) (c : Nat) (f : Core → Core) : (s.modCore c f).sysOut = s.sysOut := rfl
@[simp] theorem State.modCore_mem (s : State) (c : Nat) (f : Core → Core) : (s.modCore c f).mem = s.mem := rfl
@[simp] theorem State.modCore_poison (s : State) (c : Nat) (f : Core → Core) : (s.modCore c f).poison = s.poison := rfl
@[simp] theorem State.modCore_dist (s : State) (c : Nat) (f : Core → Core) : (s.modCore c f).dist = s.dist := rfl
@[simp] theorem State.modCore_io (s : State) (c : Nat) (f : Core → Core) : (s.modCore c f).io = s.io := rfl
@[simp] theorem State.modCore_host (s : State) (c : Nat) (f : Core → Core) : (s.modCore c f).host = s.host := rfl
@[simp] theorem State.modNi_tick (s : State) (c : Nat) (f : Ni → Ni) : (s.modNi c f).tick = s.tick := rfl
@[simp] theorem State.modNi_free (s : State) (c : Nat) (f : Ni → Ni) : (s.modNi c f).free = s.free := rfl
@[simp] theorem State.modNi_acyc (s : State) (c : Nat) (f : Ni → Ni) : (s.modNi c f).acyc = s.acyc := rfl
@[simp] theorem State.modNi_fcyc (s : State) (c : Nat) (f : Ni → Ni) : (s.modNi c f).fcyc = s.fcyc := rfl
@[simp] theorem State.modNi_turns (s : State) (c : Nat) (f : Ni → Ni) : (s.modNi c f).turns = s.turns := rfl
@[simp] theorem State.modNi_cur (s : State) (c : Nat) (f : Ni → Ni) : (s.modNi c f).cur = s.cur := rfl
@[simp] theorem State.modNi_nextId (s : State) (c : Nat) (f : Ni → Ni) : (s.modNi c f).nextId = s.nextId := rfl
@[simp] theorem State.modNi_pkg (s : State) (c : Nat) (f : Ni → Ni) : (s.modNi c f).pkg = s.pkg := rfl
@[simp] theorem State.modNi_present (s : State) (c : Nat) (f : Ni → Ni) : (s.modNi c f).present = s.present := rfl
@[simp] theorem State.modNi_slices (s : State) (c : Nat) (f : Ni → Ni) : (s.modNi c f).slices = s.slices := rfl
@[simp] theorem State.modNi_units (s : State) (c : Nat) (f : Ni → Ni) : (s.modNi c f).units = s.units := rfl
@[simp] theorem State.modNi_routers (s : State) (c : Nat) (f : Ni → Ni) : (s.modNi c f).routers = s.routers := rfl
@[simp] theorem State.modNi_sysIn (s : State) (c : Nat) (f : Ni → Ni) : (s.modNi c f).sysIn = s.sysIn := rfl
@[simp] theorem State.modNi_sysOut (s : State) (c : Nat) (f : Ni → Ni) : (s.modNi c f).sysOut = s.sysOut := rfl
@[simp] theorem State.modNi_mem (s : State) (c : Nat) (f : Ni → Ni) : (s.modNi c f).mem = s.mem := rfl
@[simp] theorem State.modNi_poison (s : State) (c : Nat) (f : Ni → Ni) : (s.modNi c f).poison = s.poison := rfl
@[simp] theorem State.modNi_dist (s : State) (c : Nat) (f : Ni → Ni) : (s.modNi c f).dist = s.dist := rfl
@[simp] theorem State.modNi_io (s : State) (c : Nat) (f : Ni → Ni) : (s.modNi c f).io = s.io := rfl
@[simp] theorem State.modNi_host (s : State) (c : Nat) (f : Ni → Ni) : (s.modNi c f).host = s.host := rfl
@[simp] theorem State.modFr_tick (s : State) (c : Nat) (f : Frames → Frames) : (s.modFr c f).tick = s.tick := rfl
@[simp] theorem State.modFr_free (s : State) (c : Nat) (f : Frames → Frames) : (s.modFr c f).free = s.free := rfl
@[simp] theorem State.modFr_acyc (s : State) (c : Nat) (f : Frames → Frames) : (s.modFr c f).acyc = s.acyc := rfl
@[simp] theorem State.modFr_fcyc (s : State) (c : Nat) (f : Frames → Frames) : (s.modFr c f).fcyc = s.fcyc := rfl
@[simp] theorem State.modFr_turns (s : State) (c : Nat) (f : Frames → Frames) : (s.modFr c f).turns = s.turns := rfl
@[simp] theorem State.modFr_cur (s : State) (c : Nat) (f : Frames → Frames) : (s.modFr c f).cur = s.cur := rfl
@[simp] theorem State.modFr_nextId (s : State) (c : Nat) (f : Frames → Frames) : (s.modFr c f).nextId = s.nextId := rfl
@[simp] theorem State.modFr_pkg (s : State) (c : Nat) (f : Frames → Frames) : (s.modFr c f).pkg = s.pkg := rfl
@[simp] theorem State.modFr_present (s : State) (c : Nat) (f : Frames → Frames) : (s.modFr c f).present = s.present := rfl
@[simp] theorem State.modFr_slices (s : State) (c : Nat) (f : Frames → Frames) : (s.modFr c f).slices = s.slices := rfl
@[simp] theorem State.modFr_units (s : State) (c : Nat) (f : Frames → Frames) : (s.modFr c f).units = s.units := rfl
@[simp] theorem State.modFr_routers (s : State) (c : Nat) (f : Frames → Frames) : (s.modFr c f).routers = s.routers := rfl
@[simp] theorem State.modFr_sysIn (s : State) (c : Nat) (f : Frames → Frames) : (s.modFr c f).sysIn = s.sysIn := rfl
@[simp] theorem State.modFr_sysOut (s : State) (c : Nat) (f : Frames → Frames) : (s.modFr c f).sysOut = s.sysOut := rfl
@[simp] theorem State.modFr_mem (s : State) (c : Nat) (f : Frames → Frames) : (s.modFr c f).mem = s.mem := rfl
@[simp] theorem State.modFr_poison (s : State) (c : Nat) (f : Frames → Frames) : (s.modFr c f).poison = s.poison := rfl
@[simp] theorem State.modFr_dist (s : State) (c : Nat) (f : Frames → Frames) : (s.modFr c f).dist = s.dist := rfl
@[simp] theorem State.modFr_io (s : State) (c : Nat) (f : Frames → Frames) : (s.modFr c f).io = s.io := rfl
@[simp] theorem State.modFr_host (s : State) (c : Nat) (f : Frames → Frames) : (s.modFr c f).host = s.host := rfl
@[simp] theorem State.modDir_tick (s : State) (c u : Nat) (f : FDir → FDir) : (s.modDir c u f).tick = s.tick := rfl
@[simp] theorem State.modDir_free (s : State) (c u : Nat) (f : FDir → FDir) : (s.modDir c u f).free = s.free := rfl
@[simp] theorem State.modDir_acyc (s : State) (c u : Nat) (f : FDir → FDir) : (s.modDir c u f).acyc = s.acyc := rfl
@[simp] theorem State.modDir_fcyc (s : State) (c u : Nat) (f : FDir → FDir) : (s.modDir c u f).fcyc = s.fcyc := rfl
@[simp] theorem State.modDir_turns (s : State) (c u : Nat) (f : FDir → FDir) : (s.modDir c u f).turns = s.turns := rfl
@[simp] theorem State.modDir_cur (s : State) (c u : Nat) (f : FDir → FDir) : (s.modDir c u f).cur = s.cur := rfl
@[simp] theorem State.modDir_nextId (s : State) (c u : Nat) (f : FDir → FDir) : (s.modDir c u f).nextId = s.nextId := rfl
@[simp] theorem State.modDir_pkg (s : State) (c u : Nat) (f : FDir → FDir) : (s.modDir c u f).pkg = s.pkg := rfl
@[simp] theorem State.modDir_present (s : State) (c u : Nat) (f : FDir → FDir) : (s.modDir c u f).present = s.present := rfl
@[simp] theorem State.modDir_slices (s : State) (c u : Nat) (f : FDir → FDir) : (s.modDir c u f).slices = s.slices := rfl
@[simp] theorem State.modDir_units (s : State) (c u : Nat) (f : FDir → FDir) : (s.modDir c u f).units = s.units := rfl
@[simp] theorem State.modDir_routers (s : State) (c u : Nat) (f : FDir → FDir) : (s.modDir c u f).routers = s.routers := rfl
@[simp] theorem State.modDir_sysIn (s : State) (c u : Nat) (f : FDir → FDir) : (s.modDir c u f).sysIn = s.sysIn := rfl
@[simp] theorem State.modDir_sysOut (s : State) (c u : Nat) (f : FDir → FDir) : (s.modDir c u f).sysOut = s.sysOut := rfl
@[simp] theorem State.modDir_mem (s : State) (c u : Nat) (f : FDir → FDir) : (s.modDir c u f).mem = s.mem := rfl
@[simp] theorem State.modDir_poison (s : State) (c u : Nat) (f : FDir → FDir) : (s.modDir c u f).poison = s.poison := rfl
@[simp] theorem State.modDir_dist (s : State) (c u : Nat) (f : FDir → FDir) : (s.modDir c u f).dist = s.dist := rfl
@[simp] theorem State.modDir_io (s : State) (c u : Nat) (f : FDir → FDir) : (s.modDir c u f).io = s.io := rfl
@[simp] theorem State.modDir_host (s : State) (c u : Nat) (f : FDir → FDir) : (s.modDir c u f).host = s.host := rfl
@[simp] theorem State.setCtx_tick (s : State) (c k : Nat) (x : Ctx) : (s.setCtx c k x).tick = s.tick := rfl
@[simp] theorem State.setCtx_free (s : State) (c k : Nat) (x : Ctx) : (s.setCtx c k x).free = s.free := rfl
@[simp] theorem State.setCtx_acyc (s : State) (c k : Nat) (x : Ctx) : (s.setCtx c k x).acyc = s.acyc := rfl
@[simp] theorem State.setCtx_fcyc (s : State) (c k : Nat) (x : Ctx) : (s.setCtx c k x).fcyc = s.fcyc := rfl
@[simp] theorem State.setCtx_turns (s : State) (c k : Nat) (x : Ctx) : (s.setCtx c k x).turns = s.turns := rfl
@[simp] theorem State.setCtx_cur (s : State) (c k : Nat) (x : Ctx) : (s.setCtx c k x).cur = s.cur := rfl
@[simp] theorem State.setCtx_nextId (s : State) (c k : Nat) (x : Ctx) : (s.setCtx c k x).nextId = s.nextId := rfl
@[simp] theorem State.setCtx_pkg (s : State) (c k : Nat) (x : Ctx) : (s.setCtx c k x).pkg = s.pkg := rfl
@[simp] theorem State.setCtx_present (s : State) (c k : Nat) (x : Ctx) : (s.setCtx c k x).present = s.present := rfl
@[simp] theorem State.setCtx_slices (s : State) (c k : Nat) (x : Ctx) : (s.setCtx c k x).slices = s.slices := rfl
@[simp] theorem State.setCtx_units (s : State) (c k : Nat) (x : Ctx) : (s.setCtx c k x).units = s.units := rfl
@[simp] theorem State.setCtx_routers (s : State) (c k : Nat) (x : Ctx) : (s.setCtx c k x).routers = s.routers := rfl
@[simp] theorem State.setCtx_sysIn (s : State) (c k : Nat) (x : Ctx) : (s.setCtx c k x).sysIn = s.sysIn := rfl
@[simp] theorem State.setCtx_sysOut (s : State) (c k : Nat) (x : Ctx) : (s.setCtx c k x).sysOut = s.sysOut := rfl
@[simp] theorem State.setCtx_mem (s : State) (c k : Nat) (x : Ctx) : (s.setCtx c k x).mem = s.mem := rfl
@[simp] theorem State.setCtx_poison (s : State) (c k : Nat) (x : Ctx) : (s.setCtx c k x).poison = s.poison := rfl
@[simp] theorem State.setCtx_dist (s : State) (c k : Nat) (x : Ctx) : (s.setCtx c k x).dist = s.dist := rfl
@[simp] theorem State.setCtx_io (s : State) (c k : Nat) (x : Ctx) : (s.setCtx c k x).io = s.io := rfl
@[simp] theorem State.setCtx_host (s : State) (c k : Nat) (x : Ctx) : (s.setCtx c k x).host = s.host := rfl
@[simp] theorem State.modCtx_tick (s : State) (c k : Nat) (f : Ctx → Ctx) : (s.modCtx c k f).tick = s.tick := rfl
@[simp] theorem State.modCtx_free (s : State) (c k : Nat) (f : Ctx → Ctx) : (s.modCtx c k f).free = s.free := rfl
@[simp] theorem State.modCtx_acyc (s : State) (c k : Nat) (f : Ctx → Ctx) : (s.modCtx c k f).acyc = s.acyc := rfl
@[simp] theorem State.modCtx_fcyc (s : State) (c k : Nat) (f : Ctx → Ctx) : (s.modCtx c k f).fcyc = s.fcyc := rfl
@[simp] theorem State.modCtx_turns (s : State) (c k : Nat) (f : Ctx → Ctx) : (s.modCtx c k f).turns = s.turns := rfl
@[simp] theorem State.modCtx_cur (s : State) (c k : Nat) (f : Ctx → Ctx) : (s.modCtx c k f).cur = s.cur := rfl
@[simp] theorem State.modCtx_nextId (s : State) (c k : Nat) (f : Ctx → Ctx) : (s.modCtx c k f).nextId = s.nextId := rfl
@[simp] theorem State.modCtx_pkg (s : State) (c k : Nat) (f : Ctx → Ctx) : (s.modCtx c k f).pkg = s.pkg := rfl
@[simp] theorem State.modCtx_present (s : State) (c k : Nat) (f : Ctx → Ctx) : (s.modCtx c k f).present = s.present := rfl
@[simp] theorem State.modCtx_slices (s : State) (c k : Nat) (f : Ctx → Ctx) : (s.modCtx c k f).slices = s.slices := rfl
@[simp] theorem State.modCtx_units (s : State) (c k : Nat) (f : Ctx → Ctx) : (s.modCtx c k f).units = s.units := rfl
@[simp] theorem State.modCtx_routers (s : State) (c k : Nat) (f : Ctx → Ctx) : (s.modCtx c k f).routers = s.routers := rfl
@[simp] theorem State.modCtx_sysIn (s : State) (c k : Nat) (f : Ctx → Ctx) : (s.modCtx c k f).sysIn = s.sysIn := rfl
@[simp] theorem State.modCtx_sysOut (s : State) (c k : Nat) (f : Ctx → Ctx) : (s.modCtx c k f).sysOut = s.sysOut := rfl
@[simp] theorem State.modCtx_mem (s : State) (c k : Nat) (f : Ctx → Ctx) : (s.modCtx c k f).mem = s.mem := rfl
@[simp] theorem State.modCtx_poison (s : State) (c k : Nat) (f : Ctx → Ctx) : (s.modCtx c k f).poison = s.poison := rfl
@[simp] theorem State.modCtx_dist (s : State) (c k : Nat) (f : Ctx → Ctx) : (s.modCtx c k f).dist = s.dist := rfl
@[simp] theorem State.modCtx_io (s : State) (c k : Nat) (f : Ctx → Ctx) : (s.modCtx c k f).io = s.io := rfl
@[simp] theorem State.modCtx_host (s : State) (c k : Nat) (f : Ctx → Ctx) : (s.modCtx c k f).host = s.host := rfl
@[simp] theorem State.setWork_tick (s : State) (w : Work) : (s.setWork w).tick = s.tick := rfl
@[simp] theorem State.setWork_free (s : State) (w : Work) : (s.setWork w).free = s.free := rfl
@[simp] theorem State.setWork_acyc (s : State) (w : Work) : (s.setWork w).acyc = s.acyc := rfl
@[simp] theorem State.setWork_fcyc (s : State) (w : Work) : (s.setWork w).fcyc = s.fcyc := rfl
@[simp] theorem State.setWork_turns (s : State) (w : Work) : (s.setWork w).turns = s.turns := rfl
@[simp] theorem State.setWork_cur (s : State) (w : Work) : (s.setWork w).cur = s.cur := rfl
@[simp] theorem State.setWork_nextId (s : State) (w : Work) : (s.setWork w).nextId = s.nextId := rfl
@[simp] theorem State.setWork_pkg (s : State) (w : Work) : (s.setWork w).pkg = s.pkg := rfl
@[simp] theorem State.setWork_present (s : State) (w : Work) : (s.setWork w).present = s.present := rfl
@[simp] theorem State.setWork_slices (s : State) (w : Work) : (s.setWork w).slices = s.slices := rfl
@[simp] theorem State.setWork_units (s : State) (w : Work) : (s.setWork w).units = s.units := rfl
@[simp] theorem State.setWork_routers (s : State) (w : Work) : (s.setWork w).routers = s.routers := rfl
@[simp] theorem State.setWork_sysIn (s : State) (w : Work) : (s.setWork w).sysIn = s.sysIn := rfl
@[simp] theorem State.setWork_sysOut (s : State) (w : Work) : (s.setWork w).sysOut = s.sysOut := rfl
@[simp] theorem State.setWork_mem (s : State) (w : Work) : (s.setWork w).mem = s.mem := rfl
@[simp] theorem State.setWork_poison (s : State) (w : Work) : (s.setWork w).poison = s.poison := rfl
@[simp] theorem State.setWork_dist (s : State) (w : Work) : (s.setWork w).dist = s.dist := rfl
@[simp] theorem State.setWork_io (s : State) (w : Work) : (s.setWork w).io = s.io := rfl
@[simp] theorem State.setWork_host (s : State) (w : Work) : (s.setWork w).host = s.host := rfl
@[simp] theorem State.modSlice_tick (s : State) (n : Nat) (f : Slice → Slice) : (s.modSlice n f).tick = s.tick := rfl
@[simp] theorem State.modSlice_free (s : State) (n : Nat) (f : Slice → Slice) : (s.modSlice n f).free = s.free := rfl
@[simp] theorem State.modSlice_acyc (s : State) (n : Nat) (f : Slice → Slice) : (s.modSlice n f).acyc = s.acyc := rfl
@[simp] theorem State.modSlice_fcyc (s : State) (n : Nat) (f : Slice → Slice) : (s.modSlice n f).fcyc = s.fcyc := rfl
@[simp] theorem State.modSlice_turns (s : State) (n : Nat) (f : Slice → Slice) : (s.modSlice n f).turns = s.turns := rfl
@[simp] theorem State.modSlice_cur (s : State) (n : Nat) (f : Slice → Slice) : (s.modSlice n f).cur = s.cur := rfl
@[simp] theorem State.modSlice_nextId (s : State) (n : Nat) (f : Slice → Slice) : (s.modSlice n f).nextId = s.nextId := rfl
@[simp] theorem State.modSlice_pkg (s : State) (n : Nat) (f : Slice → Slice) : (s.modSlice n f).pkg = s.pkg := rfl
@[simp] theorem State.modSlice_present (s : State) (n : Nat) (f : Slice → Slice) : (s.modSlice n f).present = s.present := rfl
@[simp] theorem State.modSlice_cores (s : State) (n : Nat) (f : Slice → Slice) : (s.modSlice n f).cores = s.cores := rfl
@[simp] theorem State.modSlice_units (s : State) (n : Nat) (f : Slice → Slice) : (s.modSlice n f).units = s.units := rfl
@[simp] theorem State.modSlice_routers (s : State) (n : Nat) (f : Slice → Slice) : (s.modSlice n f).routers = s.routers := rfl
@[simp] theorem State.modSlice_sysIn (s : State) (n : Nat) (f : Slice → Slice) : (s.modSlice n f).sysIn = s.sysIn := rfl
@[simp] theorem State.modSlice_sysOut (s : State) (n : Nat) (f : Slice → Slice) : (s.modSlice n f).sysOut = s.sysOut := rfl
@[simp] theorem State.modSlice_mem (s : State) (n : Nat) (f : Slice → Slice) : (s.modSlice n f).mem = s.mem := rfl
@[simp] theorem State.modSlice_poison (s : State) (n : Nat) (f : Slice → Slice) : (s.modSlice n f).poison = s.poison := rfl
@[simp] theorem State.modSlice_dist (s : State) (n : Nat) (f : Slice → Slice) : (s.modSlice n f).dist = s.dist := rfl
@[simp] theorem State.modSlice_io (s : State) (n : Nat) (f : Slice → Slice) : (s.modSlice n f).io = s.io := rfl
@[simp] theorem State.modSlice_host (s : State) (n : Nat) (f : Slice → Slice) : (s.modSlice n f).host = s.host := rfl
@[simp] theorem State.modUnit_tick (s : State) (n : Nat) (f : DonUnit → DonUnit) : (s.modUnit n f).tick = s.tick := rfl
@[simp] theorem State.modUnit_free (s : State) (n : Nat) (f : DonUnit → DonUnit) : (s.modUnit n f).free = s.free := rfl
@[simp] theorem State.modUnit_acyc (s : State) (n : Nat) (f : DonUnit → DonUnit) : (s.modUnit n f).acyc = s.acyc := rfl
@[simp] theorem State.modUnit_fcyc (s : State) (n : Nat) (f : DonUnit → DonUnit) : (s.modUnit n f).fcyc = s.fcyc := rfl
@[simp] theorem State.modUnit_turns (s : State) (n : Nat) (f : DonUnit → DonUnit) : (s.modUnit n f).turns = s.turns := rfl
@[simp] theorem State.modUnit_cur (s : State) (n : Nat) (f : DonUnit → DonUnit) : (s.modUnit n f).cur = s.cur := rfl
@[simp] theorem State.modUnit_nextId (s : State) (n : Nat) (f : DonUnit → DonUnit) : (s.modUnit n f).nextId = s.nextId := rfl
@[simp] theorem State.modUnit_pkg (s : State) (n : Nat) (f : DonUnit → DonUnit) : (s.modUnit n f).pkg = s.pkg := rfl
@[simp] theorem State.modUnit_present (s : State) (n : Nat) (f : DonUnit → DonUnit) : (s.modUnit n f).present = s.present := rfl
@[simp] theorem State.modUnit_cores (s : State) (n : Nat) (f : DonUnit → DonUnit) : (s.modUnit n f).cores = s.cores := rfl
@[simp] theorem State.modUnit_slices (s : State) (n : Nat) (f : DonUnit → DonUnit) : (s.modUnit n f).slices = s.slices := rfl
@[simp] theorem State.modUnit_routers (s : State) (n : Nat) (f : DonUnit → DonUnit) : (s.modUnit n f).routers = s.routers := rfl
@[simp] theorem State.modUnit_sysIn (s : State) (n : Nat) (f : DonUnit → DonUnit) : (s.modUnit n f).sysIn = s.sysIn := rfl
@[simp] theorem State.modUnit_sysOut (s : State) (n : Nat) (f : DonUnit → DonUnit) : (s.modUnit n f).sysOut = s.sysOut := rfl
@[simp] theorem State.modUnit_mem (s : State) (n : Nat) (f : DonUnit → DonUnit) : (s.modUnit n f).mem = s.mem := rfl
@[simp] theorem State.modUnit_poison (s : State) (n : Nat) (f : DonUnit → DonUnit) : (s.modUnit n f).poison = s.poison := rfl
@[simp] theorem State.modUnit_dist (s : State) (n : Nat) (f : DonUnit → DonUnit) : (s.modUnit n f).dist = s.dist := rfl
@[simp] theorem State.modUnit_io (s : State) (n : Nat) (f : DonUnit → DonUnit) : (s.modUnit n f).io = s.io := rfl
@[simp] theorem State.modUnit_host (s : State) (n : Nat) (f : DonUnit → DonUnit) : (s.modUnit n f).host = s.host := rfl
@[simp] theorem State.modRouter_tick (s : State) (n : Nat) (f : Router → Router) : (s.modRouter n f).tick = s.tick := rfl
@[simp] theorem State.modRouter_free (s : State) (n : Nat) (f : Router → Router) : (s.modRouter n f).free = s.free := rfl
@[simp] theorem State.modRouter_acyc (s : State) (n : Nat) (f : Router → Router) : (s.modRouter n f).acyc = s.acyc := rfl
@[simp] theorem State.modRouter_fcyc (s : State) (n : Nat) (f : Router → Router) : (s.modRouter n f).fcyc = s.fcyc := rfl
@[simp] theorem State.modRouter_turns (s : State) (n : Nat) (f : Router → Router) : (s.modRouter n f).turns = s.turns := rfl
@[simp] theorem State.modRouter_cur (s : State) (n : Nat) (f : Router → Router) : (s.modRouter n f).cur = s.cur := rfl
@[simp] theorem State.modRouter_nextId (s : State) (n : Nat) (f : Router → Router) : (s.modRouter n f).nextId = s.nextId := rfl
@[simp] theorem State.modRouter_pkg (s : State) (n : Nat) (f : Router → Router) : (s.modRouter n f).pkg = s.pkg := rfl
@[simp] theorem State.modRouter_present (s : State) (n : Nat) (f : Router → Router) : (s.modRouter n f).present = s.present := rfl
@[simp] theorem State.modRouter_cores (s : State) (n : Nat) (f : Router → Router) : (s.modRouter n f).cores = s.cores := rfl
@[simp] theorem State.modRouter_slices (s : State) (n : Nat) (f : Router → Router) : (s.modRouter n f).slices = s.slices := rfl
@[simp] theorem State.modRouter_units (s : State) (n : Nat) (f : Router → Router) : (s.modRouter n f).units = s.units := rfl
@[simp] theorem State.modRouter_sysIn (s : State) (n : Nat) (f : Router → Router) : (s.modRouter n f).sysIn = s.sysIn := rfl
@[simp] theorem State.modRouter_sysOut (s : State) (n : Nat) (f : Router → Router) : (s.modRouter n f).sysOut = s.sysOut := rfl
@[simp] theorem State.modRouter_mem (s : State) (n : Nat) (f : Router → Router) : (s.modRouter n f).mem = s.mem := rfl
@[simp] theorem State.modRouter_poison (s : State) (n : Nat) (f : Router → Router) : (s.modRouter n f).poison = s.poison := rfl
@[simp] theorem State.modRouter_dist (s : State) (n : Nat) (f : Router → Router) : (s.modRouter n f).dist = s.dist := rfl
@[simp] theorem State.modRouter_io (s : State) (n : Nat) (f : Router → Router) : (s.modRouter n f).io = s.io := rfl
@[simp] theorem State.modRouter_host (s : State) (n : Nat) (f : Router → Router) : (s.modRouter n f).host = s.host := rfl
@[simp] theorem State.modDist_tick (s : State) (f : Dist → Dist) : (s.modDist f).tick = s.tick := rfl
@[simp] theorem State.modDist_free (s : State) (f : Dist → Dist) : (s.modDist f).free = s.free := rfl
@[simp] theorem State.modDist_acyc (s : State) (f : Dist → Dist) : (s.modDist f).acyc = s.acyc := rfl
@[simp] theorem State.modDist_fcyc (s : State) (f : Dist → Dist) : (s.modDist f).fcyc = s.fcyc := rfl
@[simp] theorem State.modDist_turns (s : State) (f : Dist → Dist) : (s.modDist f).turns = s.turns := rfl
@[simp] theorem State.modDist_cur (s : State) (f : Dist → Dist) : (s.modDist f).cur = s.cur := rfl
@[simp] theorem State.modDist_nextId (s : State) (f : Dist → Dist) : (s.modDist f).nextId = s.nextId := rfl
@[simp] theorem State.modDist_pkg (s : State) (f : Dist → Dist) : (s.modDist f).pkg = s.pkg := rfl
@[simp] theorem State.modDist_present (s : State) (f : Dist → Dist) : (s.modDist f).present = s.present := rfl
@[simp] theorem State.modDist_cores (s : State) (f : Dist → Dist) : (s.modDist f).cores = s.cores := rfl
@[simp] theorem State.modDist_slices (s : State) (f : Dist → Dist) : (s.modDist f).slices = s.slices := rfl
@[simp] theorem State.modDist_units (s : State) (f : Dist → Dist) : (s.modDist f).units = s.units := rfl
@[simp] theorem State.modDist_routers (s : State) (f : Dist → Dist) : (s.modDist f).routers = s.routers := rfl
@[simp] theorem State.modDist_sysIn (s : State) (f : Dist → Dist) : (s.modDist f).sysIn = s.sysIn := rfl
@[simp] theorem State.modDist_sysOut (s : State) (f : Dist → Dist) : (s.modDist f).sysOut = s.sysOut := rfl
@[simp] theorem State.modDist_mem (s : State) (f : Dist → Dist) : (s.modDist f).mem = s.mem := rfl
@[simp] theorem State.modDist_poison (s : State) (f : Dist → Dist) : (s.modDist f).poison = s.poison := rfl
@[simp] theorem State.modDist_io (s : State) (f : Dist → Dist) : (s.modDist f).io = s.io := rfl
@[simp] theorem State.modDist_host (s : State) (f : Dist → Dist) : (s.modDist f).host = s.host := rfl
@[simp] theorem State.modLaunch_tick (s : State) (l : BitVec 32) (f : Launch → Launch) : (s.modLaunch l f).tick = s.tick := rfl
@[simp] theorem State.modLaunch_free (s : State) (l : BitVec 32) (f : Launch → Launch) : (s.modLaunch l f).free = s.free := rfl
@[simp] theorem State.modLaunch_acyc (s : State) (l : BitVec 32) (f : Launch → Launch) : (s.modLaunch l f).acyc = s.acyc := rfl
@[simp] theorem State.modLaunch_fcyc (s : State) (l : BitVec 32) (f : Launch → Launch) : (s.modLaunch l f).fcyc = s.fcyc := rfl
@[simp] theorem State.modLaunch_turns (s : State) (l : BitVec 32) (f : Launch → Launch) : (s.modLaunch l f).turns = s.turns := rfl
@[simp] theorem State.modLaunch_cur (s : State) (l : BitVec 32) (f : Launch → Launch) : (s.modLaunch l f).cur = s.cur := rfl
@[simp] theorem State.modLaunch_nextId (s : State) (l : BitVec 32) (f : Launch → Launch) : (s.modLaunch l f).nextId = s.nextId := rfl
@[simp] theorem State.modLaunch_pkg (s : State) (l : BitVec 32) (f : Launch → Launch) : (s.modLaunch l f).pkg = s.pkg := rfl
@[simp] theorem State.modLaunch_present (s : State) (l : BitVec 32) (f : Launch → Launch) : (s.modLaunch l f).present = s.present := rfl
@[simp] theorem State.modLaunch_cores (s : State) (l : BitVec 32) (f : Launch → Launch) : (s.modLaunch l f).cores = s.cores := rfl
@[simp] theorem State.modLaunch_slices (s : State) (l : BitVec 32) (f : Launch → Launch) : (s.modLaunch l f).slices = s.slices := rfl
@[simp] theorem State.modLaunch_units (s : State) (l : BitVec 32) (f : Launch → Launch) : (s.modLaunch l f).units = s.units := rfl
@[simp] theorem State.modLaunch_routers (s : State) (l : BitVec 32) (f : Launch → Launch) : (s.modLaunch l f).routers = s.routers := rfl
@[simp] theorem State.modLaunch_sysIn (s : State) (l : BitVec 32) (f : Launch → Launch) : (s.modLaunch l f).sysIn = s.sysIn := rfl
@[simp] theorem State.modLaunch_sysOut (s : State) (l : BitVec 32) (f : Launch → Launch) : (s.modLaunch l f).sysOut = s.sysOut := rfl
@[simp] theorem State.modLaunch_mem (s : State) (l : BitVec 32) (f : Launch → Launch) : (s.modLaunch l f).mem = s.mem := rfl
@[simp] theorem State.modLaunch_poison (s : State) (l : BitVec 32) (f : Launch → Launch) : (s.modLaunch l f).poison = s.poison := rfl
@[simp] theorem State.modLaunch_io (s : State) (l : BitVec 32) (f : Launch → Launch) : (s.modLaunch l f).io = s.io := rfl
@[simp] theorem State.modLaunch_host (s : State) (l : BitVec 32) (f : Launch → Launch) : (s.modLaunch l f).host = s.host := rfl
@[simp] theorem State.modIo_tick (s : State) (f : Io → Io) : (s.modIo f).tick = s.tick := rfl
@[simp] theorem State.modIo_free (s : State) (f : Io → Io) : (s.modIo f).free = s.free := rfl
@[simp] theorem State.modIo_acyc (s : State) (f : Io → Io) : (s.modIo f).acyc = s.acyc := rfl
@[simp] theorem State.modIo_fcyc (s : State) (f : Io → Io) : (s.modIo f).fcyc = s.fcyc := rfl
@[simp] theorem State.modIo_turns (s : State) (f : Io → Io) : (s.modIo f).turns = s.turns := rfl
@[simp] theorem State.modIo_cur (s : State) (f : Io → Io) : (s.modIo f).cur = s.cur := rfl
@[simp] theorem State.modIo_nextId (s : State) (f : Io → Io) : (s.modIo f).nextId = s.nextId := rfl
@[simp] theorem State.modIo_pkg (s : State) (f : Io → Io) : (s.modIo f).pkg = s.pkg := rfl
@[simp] theorem State.modIo_present (s : State) (f : Io → Io) : (s.modIo f).present = s.present := rfl
@[simp] theorem State.modIo_cores (s : State) (f : Io → Io) : (s.modIo f).cores = s.cores := rfl
@[simp] theorem State.modIo_slices (s : State) (f : Io → Io) : (s.modIo f).slices = s.slices := rfl
@[simp] theorem State.modIo_units (s : State) (f : Io → Io) : (s.modIo f).units = s.units := rfl
@[simp] theorem State.modIo_routers (s : State) (f : Io → Io) : (s.modIo f).routers = s.routers := rfl
@[simp] theorem State.modIo_sysIn (s : State) (f : Io → Io) : (s.modIo f).sysIn = s.sysIn := rfl
@[simp] theorem State.modIo_sysOut (s : State) (f : Io → Io) : (s.modIo f).sysOut = s.sysOut := rfl
@[simp] theorem State.modIo_mem (s : State) (f : Io → Io) : (s.modIo f).mem = s.mem := rfl
@[simp] theorem State.modIo_poison (s : State) (f : Io → Io) : (s.modIo f).poison = s.poison := rfl
@[simp] theorem State.modIo_dist (s : State) (f : Io → Io) : (s.modIo f).dist = s.dist := rfl
@[simp] theorem State.modIo_host (s : State) (f : Io → Io) : (s.modIo f).host = s.host := rfl
@[simp] theorem State.modHost_tick (s : State) (f : HostSide → HostSide) : (s.modHost f).tick = s.tick := rfl
@[simp] theorem State.modHost_free (s : State) (f : HostSide → HostSide) : (s.modHost f).free = s.free := rfl
@[simp] theorem State.modHost_acyc (s : State) (f : HostSide → HostSide) : (s.modHost f).acyc = s.acyc := rfl
@[simp] theorem State.modHost_fcyc (s : State) (f : HostSide → HostSide) : (s.modHost f).fcyc = s.fcyc := rfl
@[simp] theorem State.modHost_turns (s : State) (f : HostSide → HostSide) : (s.modHost f).turns = s.turns := rfl
@[simp] theorem State.modHost_cur (s : State) (f : HostSide → HostSide) : (s.modHost f).cur = s.cur := rfl
@[simp] theorem State.modHost_nextId (s : State) (f : HostSide → HostSide) : (s.modHost f).nextId = s.nextId := rfl
@[simp] theorem State.modHost_pkg (s : State) (f : HostSide → HostSide) : (s.modHost f).pkg = s.pkg := rfl
@[simp] theorem State.modHost_present (s : State) (f : HostSide → HostSide) : (s.modHost f).present = s.present := rfl
@[simp] theorem State.modHost_cores (s : State) (f : HostSide → HostSide) : (s.modHost f).cores = s.cores := rfl
@[simp] theorem State.modHost_slices (s : State) (f : HostSide → HostSide) : (s.modHost f).slices = s.slices := rfl
@[simp] theorem State.modHost_units (s : State) (f : HostSide → HostSide) : (s.modHost f).units = s.units := rfl
@[simp] theorem State.modHost_routers (s : State) (f : HostSide → HostSide) : (s.modHost f).routers = s.routers := rfl
@[simp] theorem State.modHost_sysIn (s : State) (f : HostSide → HostSide) : (s.modHost f).sysIn = s.sysIn := rfl
@[simp] theorem State.modHost_sysOut (s : State) (f : HostSide → HostSide) : (s.modHost f).sysOut = s.sysOut := rfl
@[simp] theorem State.modHost_mem (s : State) (f : HostSide → HostSide) : (s.modHost f).mem = s.mem := rfl
@[simp] theorem State.modHost_poison (s : State) (f : HostSide → HostSide) : (s.modHost f).poison = s.poison := rfl
@[simp] theorem State.modHost_dist (s : State) (f : HostSide → HostSide) : (s.modHost f).dist = s.dist := rfl
@[simp] theorem State.modHost_io (s : State) (f : HostSide → HostSide) : (s.modHost f).io = s.io := rfl
@[simp] theorem State.record_tick (s : State) (r : FRec) : (s.record r).tick = s.tick := rfl
@[simp] theorem State.record_free (s : State) (r : FRec) : (s.record r).free = s.free := rfl
@[simp] theorem State.record_acyc (s : State) (r : FRec) : (s.record r).acyc = s.acyc := rfl
@[simp] theorem State.record_fcyc (s : State) (r : FRec) : (s.record r).fcyc = s.fcyc := rfl
@[simp] theorem State.record_turns (s : State) (r : FRec) : (s.record r).turns = s.turns := rfl
@[simp] theorem State.record_cur (s : State) (r : FRec) : (s.record r).cur = s.cur := rfl
@[simp] theorem State.record_nextId (s : State) (r : FRec) : (s.record r).nextId = s.nextId := rfl
@[simp] theorem State.record_pkg (s : State) (r : FRec) : (s.record r).pkg = s.pkg := rfl
@[simp] theorem State.record_present (s : State) (r : FRec) : (s.record r).present = s.present := rfl
@[simp] theorem State.record_cores (s : State) (r : FRec) : (s.record r).cores = s.cores := rfl
@[simp] theorem State.record_slices (s : State) (r : FRec) : (s.record r).slices = s.slices := rfl
@[simp] theorem State.record_units (s : State) (r : FRec) : (s.record r).units = s.units := rfl
@[simp] theorem State.record_routers (s : State) (r : FRec) : (s.record r).routers = s.routers := rfl
@[simp] theorem State.record_sysIn (s : State) (r : FRec) : (s.record r).sysIn = s.sysIn := rfl
@[simp] theorem State.record_sysOut (s : State) (r : FRec) : (s.record r).sysOut = s.sysOut := rfl
@[simp] theorem State.record_mem (s : State) (r : FRec) : (s.record r).mem = s.mem := rfl
@[simp] theorem State.record_poison (s : State) (r : FRec) : (s.record r).poison = s.poison := rfl
@[simp] theorem State.record_dist (s : State) (r : FRec) : (s.record r).dist = s.dist := rfl
@[simp] theorem State.record_host (s : State) (r : FRec) : (s.record r).host = s.host := rfl
@[simp] theorem State.pwrite_tick (s : State) (a : Nat) (bs : List (Option Byte)) : (s.pwrite a bs).tick = s.tick := rfl
@[simp] theorem State.pwrite_free (s : State) (a : Nat) (bs : List (Option Byte)) : (s.pwrite a bs).free = s.free := rfl
@[simp] theorem State.pwrite_acyc (s : State) (a : Nat) (bs : List (Option Byte)) : (s.pwrite a bs).acyc = s.acyc := rfl
@[simp] theorem State.pwrite_fcyc (s : State) (a : Nat) (bs : List (Option Byte)) : (s.pwrite a bs).fcyc = s.fcyc := rfl
@[simp] theorem State.pwrite_turns (s : State) (a : Nat) (bs : List (Option Byte)) : (s.pwrite a bs).turns = s.turns := rfl
@[simp] theorem State.pwrite_cur (s : State) (a : Nat) (bs : List (Option Byte)) : (s.pwrite a bs).cur = s.cur := rfl
@[simp] theorem State.pwrite_nextId (s : State) (a : Nat) (bs : List (Option Byte)) : (s.pwrite a bs).nextId = s.nextId := rfl
@[simp] theorem State.pwrite_pkg (s : State) (a : Nat) (bs : List (Option Byte)) : (s.pwrite a bs).pkg = s.pkg := rfl
@[simp] theorem State.pwrite_present (s : State) (a : Nat) (bs : List (Option Byte)) : (s.pwrite a bs).present = s.present := rfl
@[simp] theorem State.pwrite_cores (s : State) (a : Nat) (bs : List (Option Byte)) : (s.pwrite a bs).cores = s.cores := rfl
@[simp] theorem State.pwrite_slices (s : State) (a : Nat) (bs : List (Option Byte)) : (s.pwrite a bs).slices = s.slices := rfl
@[simp] theorem State.pwrite_units (s : State) (a : Nat) (bs : List (Option Byte)) : (s.pwrite a bs).units = s.units := rfl
@[simp] theorem State.pwrite_routers (s : State) (a : Nat) (bs : List (Option Byte)) : (s.pwrite a bs).routers = s.routers := rfl
@[simp] theorem State.pwrite_sysIn (s : State) (a : Nat) (bs : List (Option Byte)) : (s.pwrite a bs).sysIn = s.sysIn := rfl
@[simp] theorem State.pwrite_sysOut (s : State) (a : Nat) (bs : List (Option Byte)) : (s.pwrite a bs).sysOut = s.sysOut := rfl
@[simp] theorem State.pwrite_poison (s : State) (a : Nat) (bs : List (Option Byte)) : (s.pwrite a bs).poison = s.poison := rfl
@[simp] theorem State.pwrite_dist (s : State) (a : Nat) (bs : List (Option Byte)) : (s.pwrite a bs).dist = s.dist := rfl
@[simp] theorem State.pwrite_io (s : State) (a : Nat) (bs : List (Option Byte)) : (s.pwrite a bs).io = s.io := rfl
@[simp] theorem State.pwrite_host (s : State) (a : Nat) (bs : List (Option Byte)) : (s.pwrite a bs).host = s.host := rfl
@[simp] theorem State.pwriteWord_tick (s : State) (a : Nat) (v : Word) : (s.pwriteWord a v).tick = s.tick := rfl
@[simp] theorem State.pwriteWord_free (s : State) (a : Nat) (v : Word) : (s.pwriteWord a v).free = s.free := rfl
@[simp] theorem State.pwriteWord_acyc (s : State) (a : Nat) (v : Word) : (s.pwriteWord a v).acyc = s.acyc := rfl
@[simp] theorem State.pwriteWord_fcyc (s : State) (a : Nat) (v : Word) : (s.pwriteWord a v).fcyc = s.fcyc := rfl
@[simp] theorem State.pwriteWord_turns (s : State) (a : Nat) (v : Word) : (s.pwriteWord a v).turns = s.turns := rfl
@[simp] theorem State.pwriteWord_cur (s : State) (a : Nat) (v : Word) : (s.pwriteWord a v).cur = s.cur := rfl
@[simp] theorem State.pwriteWord_nextId (s : State) (a : Nat) (v : Word) : (s.pwriteWord a v).nextId = s.nextId := rfl
@[simp] theorem State.pwriteWord_pkg (s : State) (a : Nat) (v : Word) : (s.pwriteWord a v).pkg = s.pkg := rfl
@[simp] theorem State.pwriteWord_present (s : State) (a : Nat) (v : Word) : (s.pwriteWord a v).present = s.present := rfl
@[simp] theorem State.pwriteWord_cores (s : State) (a : Nat) (v : Word) : (s.pwriteWord a v).cores = s.cores := rfl
@[simp] theorem State.pwriteWord_slices (s : State) (a : Nat) (v : Word) : (s.pwriteWord a v).slices = s.slices := rfl
@[simp] theorem State.pwriteWord_units (s : State) (a : Nat) (v : Word) : (s.pwriteWord a v).units = s.units := rfl
@[simp] theorem State.pwriteWord_routers (s : State) (a : Nat) (v : Word) : (s.pwriteWord a v).routers = s.routers := rfl
@[simp] theorem State.pwriteWord_sysIn (s : State) (a : Nat) (v : Word) : (s.pwriteWord a v).sysIn = s.sysIn := rfl
@[simp] theorem State.pwriteWord_sysOut (s : State) (a : Nat) (v : Word) : (s.pwriteWord a v).sysOut = s.sysOut := rfl
@[simp] theorem State.pwriteWord_poison (s : State) (a : Nat) (v : Word) : (s.pwriteWord a v).poison = s.poison := rfl
@[simp] theorem State.pwriteWord_dist (s : State) (a : Nat) (v : Word) : (s.pwriteWord a v).dist = s.dist := rfl
@[simp] theorem State.pwriteWord_io (s : State) (a : Nat) (v : Word) : (s.pwriteWord a v).io = s.io := rfl
@[simp] theorem State.pwriteWord_host (s : State) (a : Nat) (v : Word) : (s.pwriteWord a v).host = s.host := rfl

@[simp] theorem State.modDist_dist (s : State) (f : Dist → Dist) : (s.modDist f).dist = f s.dist := rfl
@[simp] theorem State.modIo_io (s : State) (f : Io → Io) : (s.modIo f).io = f s.io := rfl
@[simp] theorem State.modHost_host (s : State) (f : HostSide → HostSide) : (s.modHost f).host = f s.host := rfl
@[simp] theorem State.pwrite_mem (s : State) (a : Nat) (bs : List (Option Byte)) : (s.pwrite a bs).mem = Memory.writes s.mem a bs := rfl
@[simp] theorem State.record_io (s : State) (r : FRec) : (s.record r).io = { s.io with recIn := s.io.recIn ++ [r] } := rfl

/-! Parts. -/

@[simp] theorem State.core_setCore (s : State) (c : Nat) (x : Core) (d : Nat) :
    (s.setCore c x).core d = if d = c then x else s.core d := by simp [State.core, State.setCore]
@[simp] theorem State.core_modCore (s : State) (c : Nat) (f : Core → Core) (d : Nat) :
    (s.modCore c f).core d = if d = c then f (s.core c) else s.core d := by simp [State.modCore]
@[simp] theorem State.core_modNi (s : State) (c : Nat) (f : Ni → Ni) (d : Nat) :
    (s.modNi c f).core d = if d = c then { s.core c with ni := f (s.core c).ni } else s.core d := by simp [State.modNi]
@[simp] theorem State.core_modFr (s : State) (c : Nat) (f : Frames → Frames) (d : Nat) :
    (s.modFr c f).core d = if d = c then { s.core c with fr := f (s.core c).fr } else s.core d := by simp [State.modFr]
@[simp] theorem State.ctx_setCtx (s : State) (c k : Nat) (x : Ctx) (d j : Nat) :
    (s.setCtx c k x).ctx d j = if d = c ∧ j = k then x else s.ctx d j := by
  simp only [State.ctx, State.setCtx, State.core_modCore, Core.ctx]
  by_cases h : d = c <;> simp [h]
@[simp] theorem State.ctx_modCtx (s : State) (c k : Nat) (f : Ctx → Ctx) (d j : Nat) :
    (s.modCtx c k f).ctx d j = if d = c ∧ j = k then f (s.ctx c k) else s.ctx d j := by simp [State.modCtx]
@[simp] theorem State.me_setWork (s : State) (w : Work) : (s.setWork w).me = { s.me with work := w } := by
  simp [State.me, State.setWork]
@[simp] theorem State.work_setWork (s : State) (w : Work) : (s.setWork w).work = w := by simp [State.work]
@[simp] theorem State.slice_modSlice (s : State) (n : Nat) (f : Slice → Slice) (m : Nat) :
    (s.modSlice n f).slice m = if m = n then f (s.slice n) else s.slice m := by simp [State.slice, State.modSlice]
@[simp] theorem State.unit_modUnit (s : State) (n : Nat) (f : DonUnit → DonUnit) (m : Nat) :
    (s.modUnit n f).unit m = if m = n then f (s.unit n) else s.unit m := by simp [State.unit, State.modUnit]
@[simp] theorem State.router_modRouter (s : State) (n : Nat) (f : Router → Router) (m : Nat) :
    (s.modRouter n f).router m = if m = n then f (s.router n) else s.router m := by simp [State.router, State.modRouter]
@[simp] theorem State.launch_modLaunch (s : State) (l : BitVec 32) (f : Launch → Launch) (m : BitVec 32) :
    (s.modLaunch l f).launch m = if m = l then f (s.launch l) else s.launch m := by
  simp [State.launch, State.modLaunch, BitVec.toNat_inj]

/-! A fold keeps what each of its steps keeps. -/

theorem State.each_keeps {α : Type} (P : State → Prop) (s : State) (l : List α) (f : State → α → State)
    (h : ∀ s a, P s → P (f s a)) (hs : P s) : P (s.each l f) := by
  induction l generalizing s with
  | nil => exact hs
  | cons a t ih => exact ih (f s a) (h s a hs)
theorem State.each_eq {α β : Type} (g : State → β) (s : State) (l : List α) (f : State → α → State)
    (h : ∀ s a, g (f s a) = g s) : g (s.each l f) = g s :=
  State.each_keeps (fun t => g t = g s) s l f (fun t a e => (h t a).trans e) rfl

/-! Package memory (R52). -/

theorem Memory.wf_write (m : Memory) (a : Nat) (v : Byte) (h : Memory.wf m = true) : Memory.wf (Memory.write m a v) = true :=
  mcanon_mset _ _ _ _ h
theorem Memory.wf_writes (m : Memory) (a : Nat) (bs : List (Option Byte)) (h : Memory.wf m = true) : Memory.wf (Memory.writes m a bs) = true := by
  induction bs generalizing m a with
  | nil => exact h
  | cons b t ih => cases b <;> simp only [Memory.writes]
                   · exact ih m (a + 1) h
                   · exact ih _ (a + 1) (Memory.wf_write m a _ h)
/-- Reading a byte after a write of one. -/
@[simp] theorem Memory.read_write (m : Memory) (a : Nat) (v : Byte) (b : Nat) :
    Memory.read (Memory.write m a v) b = if b = a then v else Memory.read m b := mget_mset _ _ _ _ _
/-- A write of bytes leaves every address before it alone. -/
theorem Memory.read_writes_before (m : Memory) (a : Nat) (bs : List (Option Byte)) (b : Nat) (h : b < a) :
    Memory.read (Memory.writes m a bs) b = Memory.read m b := by
  induction bs generalizing m a with
  | nil => rfl
  | cons x t ih =>
    cases x with
    | none => exact ih m (a + 1) (by omega)
    | some v => simp [Memory.writes, ih _ (a + 1) (by omega), show b ≠ a by omega]
/-- A byte written, or one no byte is written to. -/
theorem Memory.read_writes (m : Memory) (a : Nat) (bs : List (Option Byte)) (b : Nat) :
    Memory.read (Memory.writes m a bs) b =
      if a ≤ b ∧ b < a + bs.length then (bs.getD (b - a) none).getD (Memory.read m b) else Memory.read m b := by
  induction bs generalizing m a with
  | nil => simp [Memory.writes, show ¬ (a ≤ b ∧ b < a) by omega]
  | cons x t ih =>
    by_cases hb : b = a
    · subst hb
      cases x <;> simp [Memory.writes, Memory.read_writes_before]
    · by_cases ha : a ≤ b
      · have e : b - a = (b - (a + 1)) + 1 := by omega
        cases x <;>
          (simp only [Memory.writes, ih, Memory.read_write, List.length_cons, e, List.getD_cons_succ, hb, if_false]
           congr 1
           simp only [eq_iff_iff]
           omega)
      · have h1 : ¬ (a + 1 ≤ b ∧ b < a + 1 + t.length) := by omega
        have h2 : ¬ (a ≤ b ∧ b < a + (x :: t).length) := fun h => ha h.1
        cases x
        · rw [Memory.writes, ih, if_neg h1, if_neg h2]
        · rw [Memory.writes, ih, if_neg h1, if_neg h2, Memory.read_write, if_neg hb]
theorem State.reset_memOk : Memory.wf State.reset.mem = true := rfl

end Sys2Proof.Machine
end

