-- ==== Sys2Proof/Laws/Heads.lean ====
section
/-! SUPPORT. Laws/Heads.lean: for each shared operation that meanings are made of, everything it can answer. -/

namespace Sys2Proof.Machine

/-! What a finished head changes. -/

/-- The state a head leaves that does not trap: the working copy is w, and the next head is due. -/
theorem headDone_next {s t : State} {w : Work} (h : headDone s w = .next t) : t = s.setWork { w with k := s.work.k + 1 } := by
  simpa [headDone] using h.symm
@[simp] theorem setWork_mem (s : State) (w : Work) : (s.setWork w).mem = s.mem := rfl
@[simp] theorem setWork_poison (s : State) (w : Work) : (s.setWork w).poison = s.poison := rfl
@[simp] theorem setWork_dist (s : State) (w : Work) : (s.setWork w).dist = s.dist := rfl
@[simp] theorem setWork_io (s : State) (w : Work) : (s.setWork w).io = s.io := rfl
@[simp] theorem setWork_host (s : State) (w : Work) : (s.setWork w).host = s.host := rfl
@[simp] theorem setWork_slices (s : State) (w : Work) : (s.setWork w).slices = s.slices := rfl
@[simp] theorem setWork_units (s : State) (w : Work) : (s.setWork w).units = s.units := rfl
@[simp] theorem setWork_routers (s : State) (w : Work) : (s.setWork w).routers = s.routers := rfl
@[simp] theorem setWork_cur (s : State) (w : Work) : (s.setWork w).cur = s.cur := rfl
/-- The working copy changes no other core. -/
theorem setWork_core (s : State) (w : Work) (c : Nat) (h : c ≠ s.cur.core) : (s.setWork w).core c = s.core c := by
  simp [State.setWork, State.modCtx, State.setCtx, State.modCore, State.setCore, State.core, h]
/-- The working copy changes no other context. -/
theorem setWork_ctx (s : State) (w : Work) (k : Nat) (h : k ≠ s.cur.unit) : (s.setWork w).ctx s.cur.core k = s.ctx s.cur.core k := by
  simp [State.setWork, State.modCtx, State.setCtx, State.modCore, State.setCore, State.core, State.ctx, Core.ctx, h]
/-- The working copy leaves the core's scratch, tags and queues. -/
theorem setWork_scr (s : State) (w : Work) (c : Nat) : ((s.setWork w).core c).scr = (s.core c).scr := by
  by_cases h : c = s.cur.core
  · subst h
    simp [State.setWork, State.modCtx, State.setCtx, State.modCore, State.setCore, State.core]
  · rw [setWork_core s w c h]

/-! How a head ends (R26, R29). -/

theorem headEnd_ok (s : State) (w : Work) : headEnd s (.ok w) = headDone s w := rfl
theorem headEnd_error (s : State) (t : Trap) : headEnd s (.error t) = headTrap s t := rfl
/-- With no failing `tresume` head before it, a head's trap is the block's (R33, R277). -/
theorem headTrapOf_own (s : State) (t : Trap) (h : s.resumeBad s.work = false) : s.headTrapOf t = (t, s.work.k) := by
  simp [State.headTrapOf, h]
/-- A failing `tresume` head before it is the block's trap. -/
theorem headTrapOf_resume (s : State) (t : Trap) (h : s.resumeBad s.work = true) :
    s.headTrapOf t = ({ cls := .control }, s.work.ctlHead) := by simp [State.headTrapOf, h]
/-- A predicated-off head changes nothing. -/
theorem runHead_off (s : State) (g : Guard) (f : Work → HeadRes) (h : s.work.regs.on g = false) :
    runHead s g f = headDone s s.work := by simp [runHead, h]
/-- An enabled head ends as its result says. -/
theorem runHead_on (s : State) (g : Guard) (f : Work → HeadRes) (h : s.work.regs.on g = true) :
    runHead s g f = headEnd s (f s.work) := by simp [runHead, h]
/-- All a head governed by bit 0 can answer: nothing changed, its working copy, or its trap. -/
theorem runHead_cases {s t : State} {g : Guard} {f : Work → HeadRes} (h : runHead s g f = .next t) :
    (s.work.regs.on g = false ∧ headDone s s.work = .next t) ∨
    (s.work.regs.on g = true ∧ ∃ w, f s.work = .ok w ∧ headDone s w = .next t) ∨
    (s.work.regs.on g = true ∧ ∃ e, f s.work = .error e ∧ headTrap s e = .next t) := by
  unfold runHead at h
  split at h
  · rename_i hg
    cases e : f s.work with
    | ok w => exact .inr (.inl ⟨hg, w, rfl, by simpa [e, headEnd] using h⟩)
    | error x => exact .inr (.inr ⟨hg, x, rfl, by simpa [e, headEnd] using h⟩)
  · rename_i hg
    exact .inl ⟨by simpa using hg, h⟩
theorem runHeadS_off (s : State) (g : Guard) (f : Work → Except Trap (State × Work)) (h : s.work.regs.on g = false) :
    runHeadS s g f = headDone s s.work := by simp [runHeadS, h]
/-- All a head can answer that also changes state outside the working copy. -/
theorem runHeadS_cases {s t : State} {g : Guard} {f : Work → Except Trap (State × Work)} (h : runHeadS s g f = .next t) :
    (s.work.regs.on g = false ∧ headDone s s.work = .next t) ∨
    (s.work.regs.on g = true ∧ ∃ s' w, f s.work = .ok (s', w) ∧ t = s'.setWork { w with k := s.work.k + 1 }) ∨
    (s.work.regs.on g = true ∧ ∃ e, f s.work = .error e ∧ headTrap s e = .next t) := by
  unfold runHeadS at h
  split at h
  · rename_i hg
    cases e : f s.work with
    | ok p => exact .inr (.inl ⟨hg, p.1, p.2, rfl, by simpa [e, headEndS] using h.symm⟩)
    | error x => exact .inr (.inr ⟨hg, x, rfl, by simpa [e, headEndS] using h⟩)
  · rename_i hg
    exact .inl ⟨by simpa using hg, h⟩
/-- A register head never traps. -/
theorem regHead_eq (s : State) (g : Guard) (f : Regs → Regs) :
    regHead s g f = headDone s (if s.work.regs.on g then { s.work with regs := f s.work.regs } else s.work) := by
  unfold regHead runHead
  split <;> rfl
/-- Every head that ends goes on: no fault and no refusal. -/
theorem headEnd_next (s : State) (r : HeadRes) : ∃ t, headEnd s r = .next t := by
  cases r with
  | ok w => exact ⟨_, rfl⟩
  | error e => exact ⟨_, rfl⟩
theorem runHead_next (s : State) (g : Guard) (f : Work → HeadRes) : ∃ t, runHead s g f = .next t := by
  unfold runHead
  split
  · exact headEnd_next s _
  · exact ⟨_, rfl⟩
theorem headEndS_next (s : State) (r : Except Trap (State × Work)) : ∃ t, headEndS s r = .next t := by
  cases r with
  | ok p => exact ⟨_, rfl⟩
  | error e => exact ⟨_, rfl⟩
theorem runHeadS_next (s : State) (g : Guard) (f : Work → Except Trap (State × Work)) : ∃ t, runHeadS s g f = .next t := by
  unfold runHeadS
  split
  · exact headEndS_next s _
  · exact ⟨_, rfl⟩

/-! The checks of a head. -/

theorem check_true {α : Type} (c : TrapClass) (a : Word) (k : Except Trap α) : check true c a k = k := rfl
theorem check_false {α : Type} (c : TrapClass) (a : Word) (k : Except Trap α) : check false c a k = trapAt c a := rfl
/-- A check that lets through: its condition holds and what follows it gives the result. -/
theorem check_ok {α : Type} {b : Bool} {c : TrapClass} {a : Word} {k : Except Trap α} {r : α} (h : check b c a k = .ok r) :
    b = true ∧ k = .ok r := by
  cases b
  · cases h
  · exact ⟨rfl, h⟩
/-- A check that traps: itself, or what follows it. -/
theorem check_error {α : Type} {b : Bool} {c : TrapClass} {a : Word} {k : Except Trap α} {e : Trap} (h : check b c a k = .error e) :
    (b = false ∧ e = { cls := c, addr := a }) ∨ (b = true ∧ k = .error e) := by
  cases b
  · left; exact ⟨rfl, by simpa [check, trapAt] using h.symm⟩
  · right; exact ⟨rfl, h⟩
/-- A local operand lets through: the address is one core's and permitted (R82, R110). -/
theorem localAt_ok {α : Type} {s : State} {a : Word} {n : Nat} {wr : Bool} {k : Nat → Nat → Except Trap α} {r : α}
    (h : localAt s a n wr k = .ok r) : ∃ c off, s.localOk s.cur.core s.mySid a n wr = some (c, off) ∧ k c off = .ok r := by
  unfold localAt at h
  split at h
  · exact ⟨_, _, ‹_›, h⟩
  · cases h
/-- A local operand that is read and written lets through: it lies whole in one core's scratch, and one window grants both
rights (R82, R110). -/
theorem localRW_ok {α : Type} {s : State} {a : Word} {n : Nat} {k : Nat → Nat → Except Trap α} {r : α}
    (h : localRW s a n k = .ok r) : ∃ c off, s.localAddr s.cur.core a = some (c, off) ∧ off + n ≤ 0x100000 ∧
      (s.core c).grants s.mySid off n true true = true ∧ k c off = .ok r := by
  unfold localRW at h
  split at h
  · obtain ⟨hb, hk⟩ := check_ok h
    simp only [Bool.and_eq_true, decide_eq_true_eq] at hb
    exact ⟨_, _, ‹_›, hb.1, hb.2, hk⟩
  · cases h
/-- A touch (R120) leaves of a core all but its directory as it is, and of an entry all but its last touch. -/
theorem Core.touch_eq (x : Core) (off now : Nat) : ∃ dir, x.touch off now = { x with fr := { x.fr with dir := dir } } ∧
    ∀ u, { mget ({} : FDir) dir u with touch := (x.dir u).touch } = x.dir u := by
  unfold Core.touch
  split
  · exact ⟨x.fr.dir, rfl, fun u => rfl⟩
  · refine ⟨_, rfl, fun v => ?_⟩
    rw [mget_mput]
    split
    · subst_vars; rfl
    · rfl
/-- So does a row of touches. -/
theorem touches_eq (now : Nat) (l : List Nat) (x : Core) :
    ∃ dir, l.foldl (fun x o => x.touch o now) x = { x with fr := { x.fr with dir := dir } } ∧
      ∀ u, { mget ({} : FDir) dir u with touch := (x.dir u).touch } = x.dir u := by
  induction l generalizing x with
  | nil => exact ⟨x.fr.dir, rfl, fun u => rfl⟩
  | cons o t ih =>
    obtain ⟨d1, e1, h1⟩ := x.touch_eq o now
    obtain ⟨d2, e2, h2⟩ := ih (x.touch o now)
    refine ⟨d2, by rw [List.foldl_cons, e2, e1], fun u => ?_⟩
    have h := h2 u
    rw [e1] at h
    rw [← h1 u]
    simp only [Core.dir] at h ⊢
    rw [← h]
/-- An access of n bytes is noted on the frames it falls in (R120): all else of the core stays. -/
theorem Core.touchN_eq (x : Core) (off n now : Nat) : ∃ dir, x.touchN off n now = { x with fr := { x.fr with dir := dir } } ∧
    ∀ u, { mget ({} : FDir) dir u with touch := (x.dir u).touch } = x.dir u := by
  have h := touches_eq now ((List.range ((off + n + 63) / 64 - off / 64)).map fun j => 64 * (off / 64 + j)) x
  rwa [List.foldl_map] at h
/-- The words a form names lie in the frame (R150). -/
theorem wordsOk_ok {s : State} {a b : Option Nat} {k : HeadRes} {w : Work} (h : wordsOk s a b k = .ok w) :
    (a.all fun n => n < s.myWords) = true ∧ (b.all fun n => n < s.myWords) = true ∧ k = .ok w := by
  obtain ⟨h1, h⟩ := check_ok h
  obtain ⟨h2, h⟩ := check_ok h
  exact ⟨h1, h2, h⟩
/-- A control head that is taken: none was before it (R31). -/
theorem takeCtl_ok {w w' : Work} {c : Ctl} (h : takeCtl w c = .ok w') :
    w.ctl = .fall ∧ w' = { w with ctl := c, ctlHead := w.k } := by
  obtain ⟨h1, h2⟩ := check_ok h
  exact ⟨by simpa using h1, by simpa using h2.symm⟩
/-- A jump that is taken: its line lies in the segment and no control head was taken before (R259). -/
theorem jumpTo_ok {s : State} {w w' : Work} {t : Int} (h : jumpTo s w t = .ok w') :
    0 ≤ t ∧ t < s.myLaunch.clen ∧ w.ctl = .fall ∧ w' = { w with ctl := .jump t.toNat, ctlHead := w.k } := by
  obtain ⟨h1, h2⟩ := check_ok h
  simp only [Bool.and_eq_true, decide_eq_true_eq] at h1
  exact ⟨h1.1, h1.2, takeCtl_ok h2⟩

/-! Events: the agents they name, and the packets they take. -/

theorem needCore_cases {c : Nat} {k o : Out} (h : needCore c k = o) : (c < 2048 ∧ k = o) ∨ (2048 ≤ c ∧ o = .fault .noSuchAgent) := by
  unfold needCore at h
  split at h
  · exact .inl ⟨‹_›, h⟩
  · exact .inr ⟨by omega, h.symm⟩
theorem needSlice_cases {n : Nat} {k o : Out} (h : needSlice n k = o) : (n < 128 ∧ k = o) ∨ (128 ≤ n ∧ o = .fault .noSuchAgent) := by
  unfold needSlice at h
  split at h
  · exact .inl ⟨‹_›, h⟩
  · exact .inr ⟨by omega, h.symm⟩
theorem needUnit_cases {n : Nat} {k o : Out} (h : needUnit n k = o) : (n < 128 ∧ k = o) ∨ (128 ≤ n ∧ o = .fault .noSuchAgent) := by
  unfold needUnit at h
  split at h
  · exact .inl ⟨‹_›, h⟩
  · exact .inr ⟨by omega, h.symm⟩
/-- An event over a core's deliveries answers a next state exactly where the core exists: with no such packet nothing
changes, else the first one is taken and served. -/
theorem onPacket_next {s t : State} {c : Nat} {f : Packet → Bool} {k : Packet → State → State} (h : onPacket s c f k = .next t) :
    c < 2048 ∧ (((s.core c).first f = none ∧ t = s) ∨
      ∃ p rest, (s.core c).first f = some (p, rest) ∧ t = k p (s.modCore c fun x => x.took rest)) := by
  rcases needCore_cases h with ⟨hc, h⟩ | ⟨_, h⟩
  · refine ⟨hc, ?_⟩
    cases e : (s.core c).first f with
    | none => exact .inl ⟨rfl, by simpa [e] using h.symm⟩
    | some q => exact .inr ⟨q.1, q.2, rfl, by simpa [e] using h.symm⟩
  · cases h
/-- A write of the owner's: only the owner is obeyed, another party gets error status (R347). -/
theorem ownerWrite_eq (s : State) (p : Party) (k : State → State) :
    s.ownerWrite p k = if s.isOwner p then k ((s.heard p).status false) else s.status true := rfl

/-! Slots (R242, R243). -/

/-- A signal to a word with a reserved bit set is refused with kind 20. -/
theorem sigStep_reserved (v : Word) (n : Nat) (h : bits v 44 32 ≠ 0) : sigStep v n = .error 20 := by simp [sigStep, h]
/-- A signal that fires leaves count 0 and the slot not armed. -/
theorem sigStep_fires {v r : Word} {n : Nat} (h : sigStep v n = .ok (r, true)) :
    bits v 44 32 = 0 ∧ bitOf v 47 = true ∧ slotCount v = n ∧ r = slotWord 0 false (bits v 46 0) := by
  unfold sigStep at h
  split at h
  · cases h
  · rename_i hr
    simp only at h
    split at h
    · cases h
    · split at h
      · cases h
      · split at h
        · rename_i hz
          simp only [Bool.and_eq_true, decide_eq_true_eq] at hz
          injection h with h
          exact ⟨by simpa using hr, hz.1, by omega, (congrArg Prod.fst h).symm⟩
        · injection h with h
          cases congrArg Prod.snd h

end Sys2Proof.Machine
end

