-- ==== Sys2Proof/Laws/Lanes.lean ====
section
/-! SUPPORT. Lanes.lean: what writing lanes leaves in each lane (R190): the digits of a number in base 2^w. -/

namespace Sys2Proof.Machine

/-- The digits laid together, lowest first, in base b. -/
theorem digits_lt (b : Nat) (hb : 0 < b) (l : List Nat) :
    l.foldr (fun v acc => v % b + b * acc) 0 < b ^ l.length := by
  induction l with
  | nil => simp
  | cons x t ih =>
    simp only [List.foldr_cons, List.length_cons]
    have h1 : x % b < b := Nat.mod_lt _ hb
    have h2 : b * (t.foldr (fun v acc => v % b + b * acc) 0 + 1) ≤ b * b ^ t.length := Nat.mul_le_mul_left b ih
    rw [Nat.pow_succ, Nat.mul_comm (b ^ _)]
    have h3 : b * (t.foldr (fun v acc => v % b + b * acc) 0 + 1) = b * t.foldr (fun v acc => v % b + b * acc) 0 + b := by
      rw [Nat.mul_add, Nat.mul_one]
    omega

/-- Digit i of the digits laid together. -/
theorem digits_get (b : Nat) (hb : 0 < b) (l : List Nat) (i : Nat) :
    (l.foldr (fun v acc => v % b + b * acc) 0 / b ^ i) % b = l.getD i 0 % b := by
  induction l generalizing i with
  | nil => simp
  | cons x t ih =>
    cases i with
    | zero => simp [Nat.add_mul_mod_self_left]
    | succ k =>
      simp only [List.foldr_cons, List.getD_cons_succ]
      rw [Nat.pow_succ, Nat.mul_comm (b ^ k) b, ← Nat.div_div_eq_div_mul,
        Nat.add_mul_div_left _ _ hb, Nat.div_eq_of_lt (Nat.mod_lt _ hb), Nat.zero_add]
      exact ih k

/-- Lane i of a vector made of lane values. -/
theorem getLane_ofLanes (wide : Bool) (l : List Nat) (h : l.length = laneCount wide) (i : Nat) :
    getLane wide (ofLanes wide l) i = l.getD i 0 % 2 ^ laneBits wide := by
  have hb : 0 < 2 ^ laneBits wide := Nat.two_pow_pos _
  have hl := digits_lt (2 ^ laneBits wide) hb l
  have e : (2 ^ laneBits wide) ^ l.length = 2 ^ 512 := by
    rw [h, ← Nat.pow_mul]
    congr 1
    cases wide <;> decide
  rw [e] at hl
  rw [getLane, ofLanes, BitVec.toNat_ofNat, Nat.mod_eq_of_lt hl, Nat.pow_mul]
  exact digits_get _ hb l i

/-- Writing the enabled lanes: an enabled lane holds its new value, the others keep theirs. -/
theorem getLane_mapLanes (wide : Bool) (m : Half) (old : Line64) (f : Nat → Nat) (i : Nat) (h : i < laneCount wide) :
    getLane wide (mapLanes wide m old f) i =
      if laneOn m wide i then f i % 2 ^ laneBits wide else getLane wide old i := by
  rw [mapLanes, getLane_ofLanes wide _ (by simp) i]
  simp only [List.getD_eq_getElem?_getD]
  rw [List.getElem?_map, List.getElem?_range h]
  simp only [Option.map_some, Option.getD_some]
  split
  · rfl
  · exact Nat.mod_eq_of_lt (Nat.mod_lt _ (Nat.two_pow_pos _))

/-- Lane i as the bits of the register. -/
theorem getLane_eq_extract (wide : Bool) (v : Line64) (i : Nat) :
    getLane wide v i = (v.extractLsb' (laneBits wide * i) (laneBits wide)).toNat := by
  simp [getLane, BitVec.extractLsb'_toNat, Nat.shiftRight_eq_div_pow]

end Sys2Proof.Machine
end

