-- ==== Sys2Proof/Laws/Memory.lean ====
section
/-! SUPPORT. Laws/Memory.lean: package memory: what a read gives after a write, and that every memory operation keeps the
canonical form. -/

namespace Sys2Proof.Machine

theorem memory_read_nil (a : Nat) : Memory.read [] a = unlisted := rfl
/-- Reading after one byte is written. -/
@[simp] theorem memory_read_write (m : Memory) (a : Nat) (v : Byte) (b : Nat) :
    Memory.read (Memory.write m a v) b = if b = a then v else Memory.read m b := by
  simp [Memory.read, Memory.write]
theorem memory_wf_nil : Memory.wf [] = true := rfl
/-- A byte's write keeps the canonical form. -/
theorem memory_wf_write (m : Memory) (a : Nat) (v : Byte) (h : Memory.wf m = true) : Memory.wf (Memory.write m a v) = true :=
  mcanon_mset (0 : Byte) a v m h
/-- A write of consecutive bytes keeps the canonical form. -/
theorem memory_wf_writes (m : Memory) (a : Nat) (bs : List (Option Byte)) (h : Memory.wf m = true) :
    Memory.wf (Memory.writes m a bs) = true := by
  induction bs generalizing m a with
  | nil => exact h
  | cons b t ih =>
    cases b with
    | none => exact ih m (a + 1) h
    | some v => exact ih _ (a + 1) (memory_wf_write m a v h)
/-- A write of consecutive bytes leaves the bytes below its start alone. -/
theorem memory_read_writes_below (m : Memory) (a : Nat) (bs : List (Option Byte)) (b : Nat) (h : b < a) :
    Memory.read (Memory.writes m a bs) b = Memory.read m b := by
  induction bs generalizing m a with
  | nil => rfl
  | cons x t ih =>
    cases x with
    | none => exact ih m (a + 1) (by omega)
    | some v =>
      rw [Memory.writes, ih _ (a + 1) (by omega), memory_read_write, if_neg (by omega)]
/-- Reading after consecutive bytes are written: a byte that the write holds, else what was there. -/
theorem memory_read_writes (m : Memory) (a : Nat) (bs : List (Option Byte)) (b : Nat) :
    Memory.read (Memory.writes m a bs) b =
      if a ≤ b then (match (bs[b - a]?).join with
        | some v => v
        | none => Memory.read m b)
      else Memory.read m b := by
  induction bs generalizing m a with
  | nil => simp [Memory.writes]
  | cons x t ih =>
    by_cases hab : b < a
    · rw [memory_read_writes_below _ _ _ _ hab, if_neg (by omega)]
    · rw [if_pos (by omega)]
      by_cases he : b = a
      · subst he
        cases x with
        | none => simp [Memory.writes, memory_read_writes_below]
        | some v => simp [Memory.writes, memory_read_writes_below]
      · have hs : b - a = (b - (a + 1)) + 1 := by omega
        cases x with
        | none => rw [Memory.writes, ih, if_pos (by omega), hs, List.getElem?_cons_succ]
        | some v =>
          rw [Memory.writes, ih, if_pos (by omega), hs, List.getElem?_cons_succ, memory_read_write, if_neg he]
theorem memory_wf_pwrite (s : State) (a : Nat) (bs : List (Option Byte)) (h : Memory.wf s.mem = true) :
    Memory.wf (s.pwrite a bs).mem = true := memory_wf_writes s.mem a bs h
theorem memory_wf_pwriteWord (s : State) (a : Nat) (v : Word) (h : Memory.wf s.mem = true) :
    Memory.wf (s.pwriteWord a v).mem = true := memory_wf_writes s.mem a _ h
theorem memory_wf_physWrite (s : State) (a : Nat) (bs : List (Option Byte)) (h : Memory.wf s.mem = true) :
    Memory.wf (s.physWrite a bs).mem = true := memory_wf_writes s.mem a bs h
theorem memory_wf_lineWrite (s : State) (n : Nat) (sid : Half) (va pa : Nat) (bs : List (Option Byte))
    (h : Memory.wf s.mem = true) : Memory.wf (s.lineWrite n sid va pa bs).mem = true := by
  unfold State.lineWrite
  split
  · exact memory_wf_physWrite s pa bs h
  · exact memory_wf_writes _ _ _ h
theorem memory_wf_reset : Memory.wf State.reset.mem = true := rfl
/-- A fold of steps that each keep memory's form keeps it. -/
theorem memory_wf_each {α : Type} (s : State) (l : List α) (f : State → α → State) (h : Memory.wf s.mem = true)
    (hf : ∀ t x, Memory.wf t.mem = true → Memory.wf (f t x).mem = true) : Memory.wf (s.each l f).mem = true := by
  induction l generalizing s with
  | nil => exact h
  | cons x t ih => exact ih (f s x) (hf s x h)
theorem memory_wf_vwrite (s : State) (hm : Nat → Nat) (sid : Half) (pcs : List (Nat × Nat × Nat)) (va : Nat)
    (bs : List (Option Byte)) (h : Memory.wf s.mem = true) : Memory.wf (s.vwrite hm sid pcs va bs).mem = true :=
  memory_wf_each s _ _ h fun t _ ht => memory_wf_lineWrite t _ sid _ _ _ ht

end Sys2Proof.Machine
end

