-- ==== Sys2Proof/Laws/PerInstr.lean ====
section
/-! SUPPORT. PerInstr.lean: statements made per instruction. Family Words: an instruction has words exactly where it is of
the opcode map of R39 or of the loader and storer cores (R84, R96); an event has none. -/

namespace Sys2Proof.Laws.Words

/-- The words of an instruction exist where an encoding of the spec gives it some. -/
def Statement (i : Instr) : Prop := (encode i).isSome = (i.isShokuxel || i.isRv)

theorem blockExecute (a0 : Nat) (a1 : Nat) : Statement (.blockExecute a0 a1) := rfl
theorem blockCommit (a0 : Nat) (a1 : Nat) : Statement (.blockCommit a0 a1) := rfl
theorem lineFetch (a0 : Nat) (a1 : Nat) : Statement (.lineFetch a0 a1) := rfl
theorem lineFetchArrival (a0 : Nat) : Statement (.lineFetchArrival a0) := rfl
theorem endT (a0 : Guard) : Statement (.endT a0) := rfl
theorem next (a0 : Guard) : Statement (.next a0) := rfl
theorem nop (a0 : Guard) : Statement (.nop a0) := rfl
theorem bEq (a0 : Guard) (a1 : XReg) (a2 : XReg) (a3 : BitVec 32) : Statement (.bEq a0 a1 a2 a3) := rfl
theorem bNe (a0 : Guard) (a1 : XReg) (a2 : XReg) (a3 : BitVec 32) : Statement (.bNe a0 a1 a2 a3) := rfl
theorem bLt (a0 : Guard) (a1 : XReg) (a2 : XReg) (a3 : BitVec 32) : Statement (.bLt a0 a1 a2 a3) := rfl
theorem bGe (a0 : Guard) (a1 : XReg) (a2 : XReg) (a3 : BitVec 32) : Statement (.bGe a0 a1 a2 a3) := rfl
theorem bLtu (a0 : Guard) (a1 : XReg) (a2 : XReg) (a3 : BitVec 32) : Statement (.bLtu a0 a1 a2 a3) := rfl
theorem bGeu (a0 : Guard) (a1 : XReg) (a2 : XReg) (a3 : BitVec 32) : Statement (.bGeu a0 a1 a2 a3) := rfl
theorem bLtz (a0 : Guard) (a1 : XReg) (a2 : BitVec 32) : Statement (.bLtz a0 a1 a2) := rfl
theorem bGez (a0 : Guard) (a1 : XReg) (a2 : BitVec 32) : Statement (.bGez a0 a1 a2) := rfl
theorem bqAny (a0 : Guard) (a1 : QReg) (a2 : BitVec 32) : Statement (.bqAny a0 a1 a2) := rfl
theorem bqAll (a0 : Guard) (a1 : QReg) (a2 : BitVec 32) : Statement (.bqAll a0 a1 a2) := rfl
theorem jal (a0 : Guard) (a1 : XReg) (a2 : BitVec 32) : Statement (.jal a0 a1 a2) := rfl
theorem jr (a0 : Guard) (a1 : XReg) : Statement (.jr a0 a1) := rfl
theorem loop (a0 : Guard) (a1 : XReg) (a2 : BitVec 32) : Statement (.loop a0 a1 a2) := rfl
theorem loopi (a0 : Guard) (a1 : Half) (a2 : BitVec 32) : Statement (.loopi a0 a1 a2) := rfl
theorem sarm (a0 : Guard) (a1 : BitVec 2) (a2 : XReg) (a3 : BitVec 5) (a4 : FWord) (a5 : BitVec 32) : Statement (.sarm a0 a1 a2 a3 a4 a5) := rfl
theorem sig (a0 : Guard) (a1 : XReg) (a2 : BitVec 4) (a3 : FWord) (a4 : BitVec 8) : Statement (.sig a0 a1 a2 a3 a4) := rfl
theorem sigw (a0 : Guard) (a1 : XReg) (a2 : XReg) (a3 : BitVec 4) (a4 : FWord) (a5 : BitVec 8) (a6 : FWord) : Statement (.sigw a0 a1 a2 a3 a4 a5 a6) := rfl
theorem sigv (a0 : Guard) (a1 : XReg) (a2 : VReg) (a3 : BitVec 4) (a4 : FWord) (a5 : BitVec 8) (a6 : FWord) : Statement (.sigv a0 a1 a2 a3 a4 a5 a6) := rfl
theorem falloc (a0 : Guard) (a1 : XReg) (a2 : BitVec 2) : Statement (.falloc a0 a1 a2) := rfl
theorem ffree (a0 : Guard) (a1 : XReg) : Statement (.ffree a0 a1) := rfl
theorem fpin (a0 : Guard) (a1 : XReg) : Statement (.fpin a0 a1) := rfl
theorem funpin (a0 : Guard) (a1 : XReg) : Statement (.funpin a0 a1) := rfl
theorem spawn (a0 : Guard) (a1 : XReg) (a2 : XReg) (a3 : BitVec 4) (a4 : BitVec 2) (a5 : BitVec 2) (a6 : BitVec 4) (a7 : BitVec 32) : Statement (.spawn a0 a1 a2 a3 a4 a5 a6 a7) := rfl
theorem tspawn (a0 : Guard) (a1 : XReg) (a2 : BitVec 4) (a3 : BitVec 32) : Statement (.tspawn a0 a1 a2 a3) := rfl
theorem launch (a0 : Guard) (a1 : XReg) (a2 : XReg) (a3 : BitVec 4) (a4 : SlotField) : Statement (.launch a0 a1 a2 a3 a4) := rfl
theorem rbar (a0 : Guard) (a1 : PktMod) (a2 : BitVec 3) (a3 : BitVec 3) (a4 : SlotField) : Statement (.rbar a0 a1 a2 a3 a4) := rfl
theorem rid (a0 : Guard) (a1 : XReg) (a2 : BitVec 5) : Statement (.rid a0 a1 a2) := rfl
theorem fld (a0 : Guard) (a1 : XReg) (a2 : XReg) (a3 : FWord) (a4 : LsId) : Statement (.fld a0 a1 a2 a3 a4) := rfl
theorem fst (a0 : Guard) (a1 : XReg) (a2 : XReg) (a3 : FWord) (a4 : LsId) : Statement (.fst a0 a1 a2 a3 a4) := rfl
theorem fldv (a0 : Guard) (a1 : VReg) (a2 : XReg) (a3 : FWord) (a4 : LsId) : Statement (.fldv a0 a1 a2 a3 a4) := rfl
theorem fstv (a0 : Guard) (a1 : XReg) (a2 : VReg) (a3 : FWord) (a4 : LsId) : Statement (.fstv a0 a1 a2 a3 a4) := rfl
theorem trap (a0 : Guard) (a1 : Half) : Statement (.trap a0 a1) := rfl
theorem brk (a0 : Guard) (a1 : Half) : Statement (.brk a0 a1) := rfl
theorem tresume (a0 : Guard) (a1 : XReg) : Statement (.tresume a0 a1) := rfl
theorem add (a0 : Guard) (a1 : XReg) (a2 : XReg) (a3 : XReg) : Statement (.add a0 a1 a2 a3) := rfl
theorem sub (a0 : Guard) (a1 : XReg) (a2 : XReg) (a3 : XReg) : Statement (.sub a0 a1 a2 a3) := rfl
theorem mul (a0 : Guard) (a1 : XReg) (a2 : XReg) (a3 : XReg) : Statement (.mul a0 a1 a2 a3) := rfl
theorem mulh (a0 : Guard) (a1 : XReg) (a2 : XReg) (a3 : XReg) : Statement (.mulh a0 a1 a2 a3) := rfl
theorem mulhu (a0 : Guard) (a1 : XReg) (a2 : XReg) (a3 : XReg) : Statement (.mulhu a0 a1 a2 a3) := rfl
theorem div (a0 : Guard) (a1 : XReg) (a2 : XReg) (a3 : XReg) : Statement (.div a0 a1 a2 a3) := rfl
theorem divu (a0 : Guard) (a1 : XReg) (a2 : XReg) (a3 : XReg) : Statement (.divu a0 a1 a2 a3) := rfl
theorem rem (a0 : Guard) (a1 : XReg) (a2 : XReg) (a3 : XReg) : Statement (.rem a0 a1 a2 a3) := rfl
theorem remu (a0 : Guard) (a1 : XReg) (a2 : XReg) (a3 : XReg) : Statement (.remu a0 a1 a2 a3) := rfl
theorem min (a0 : Guard) (a1 : XReg) (a2 : XReg) (a3 : XReg) : Statement (.min a0 a1 a2 a3) := rfl
theorem max (a0 : Guard) (a1 : XReg) (a2 : XReg) (a3 : XReg) : Statement (.max a0 a1 a2 a3) := rfl
theorem minu (a0 : Guard) (a1 : XReg) (a2 : XReg) (a3 : XReg) : Statement (.minu a0 a1 a2 a3) := rfl
theorem maxu (a0 : Guard) (a1 : XReg) (a2 : XReg) (a3 : XReg) : Statement (.maxu a0 a1 a2 a3) := rfl
theorem and (a0 : Guard) (a1 : XReg) (a2 : XReg) (a3 : XReg) : Statement (.and a0 a1 a2 a3) := rfl
theorem or (a0 : Guard) (a1 : XReg) (a2 : XReg) (a3 : XReg) : Statement (.or a0 a1 a2 a3) := rfl
theorem xor (a0 : Guard) (a1 : XReg) (a2 : XReg) (a3 : XReg) : Statement (.xor a0 a1 a2 a3) := rfl
theorem andn (a0 : Guard) (a1 : XReg) (a2 : XReg) (a3 : XReg) : Statement (.andn a0 a1 a2 a3) := rfl
theorem sll (a0 : Guard) (a1 : XReg) (a2 : XReg) (a3 : XReg) : Statement (.sll a0 a1 a2 a3) := rfl
theorem srl (a0 : Guard) (a1 : XReg) (a2 : XReg) (a3 : XReg) : Statement (.srl a0 a1 a2 a3) := rfl
theorem sra (a0 : Guard) (a1 : XReg) (a2 : XReg) (a3 : XReg) : Statement (.sra a0 a1 a2 a3) := rfl
theorem rol (a0 : Guard) (a1 : XReg) (a2 : XReg) (a3 : XReg) : Statement (.rol a0 a1 a2 a3) := rfl
theorem ror (a0 : Guard) (a1 : XReg) (a2 : XReg) (a3 : XReg) : Statement (.ror a0 a1 a2 a3) := rfl
theorem clz (a0 : Guard) (a1 : XReg) (a2 : XReg) : Statement (.clz a0 a1 a2) := rfl
theorem ctz (a0 : Guard) (a1 : XReg) (a2 : XReg) : Statement (.ctz a0 a1 a2) := rfl
theorem popc (a0 : Guard) (a1 : XReg) (a2 : XReg) : Statement (.popc a0 a1 a2) := rfl
theorem bswap (a0 : Guard) (a1 : XReg) (a2 : XReg) : Statement (.bswap a0 a1 a2) := rfl
theorem seq (a0 : Guard) (a1 : XReg) (a2 : XReg) (a3 : XReg) : Statement (.seq a0 a1 a2 a3) := rfl
theorem sne (a0 : Guard) (a1 : XReg) (a2 : XReg) (a3 : XReg) : Statement (.sne a0 a1 a2 a3) := rfl
theorem slt (a0 : Guard) (a1 : XReg) (a2 : XReg) (a3 : XReg) : Statement (.slt a0 a1 a2 a3) := rfl
theorem sltu (a0 : Guard) (a1 : XReg) (a2 : XReg) (a3 : XReg) : Statement (.sltu a0 a1 a2 a3) := rfl
theorem sext (a0 : Guard) (a1 : XReg) (a2 : XReg) (a3 : Ty) : Statement (.sext a0 a1 a2 a3) := rfl
theorem zext (a0 : Guard) (a1 : XReg) (a2 : XReg) (a3 : Ty) : Statement (.zext a0 a1 a2 a3) := rfl
theorem bfx (a0 : Guard) (a1 : XReg) (a2 : XReg) (a3 : BitVec 6) (a4 : BitVec 6) : Statement (.bfx a0 a1 a2 a3 a4) := rfl
theorem bfxu (a0 : Guard) (a1 : XReg) (a2 : XReg) (a3 : BitVec 6) (a4 : BitVec 6) : Statement (.bfxu a0 a1 a2 a3 a4) := rfl
theorem bfi (a0 : Guard) (a1 : XReg) (a2 : XReg) (a3 : XReg) (a4 : BitVec 6) (a5 : BitVec 6) : Statement (.bfi a0 a1 a2 a3 a4 a5) := rfl
theorem sel (a0 : Guard) (a1 : XReg) (a2 : XReg) (a3 : XReg) (a4 : XReg) : Statement (.sel a0 a1 a2 a3 a4) := rfl
theorem addi (a0 : Guard) (a1 : XReg) (a2 : XReg) (a3 : Half) : Statement (.addi a0 a1 a2 a3) := rfl
theorem andi (a0 : Guard) (a1 : XReg) (a2 : XReg) (a3 : Half) : Statement (.andi a0 a1 a2 a3) := rfl
theorem ori (a0 : Guard) (a1 : XReg) (a2 : XReg) (a3 : Half) : Statement (.ori a0 a1 a2 a3) := rfl
theorem xori (a0 : Guard) (a1 : XReg) (a2 : XReg) (a3 : Half) : Statement (.xori a0 a1 a2 a3) := rfl
theorem slli (a0 : Guard) (a1 : XReg) (a2 : XReg) (a3 : BitVec 6) : Statement (.slli a0 a1 a2 a3) := rfl
theorem srli (a0 : Guard) (a1 : XReg) (a2 : XReg) (a3 : BitVec 6) : Statement (.srli a0 a1 a2 a3) := rfl
theorem srai (a0 : Guard) (a1 : XReg) (a2 : XReg) (a3 : BitVec 6) : Statement (.srai a0 a1 a2 a3) := rfl
theorem slti (a0 : Guard) (a1 : XReg) (a2 : XReg) (a3 : Half) : Statement (.slti a0 a1 a2 a3) := rfl
theorem sltiu (a0 : Guard) (a1 : XReg) (a2 : XReg) (a3 : Half) : Statement (.sltiu a0 a1 a2 a3) := rfl
theorem lea (a0 : Guard) (a1 : XReg) (a2 : XReg) (a3 : XReg) (a4 : BitVec 4) (a5 : BitVec 32) : Statement (.lea a0 a1 a2 a3 a4 a5) := rfl
theorem li (a0 : Guard) (a1 : XReg) (a2 : BitVec 32) : Statement (.li a0 a1 a2) := rfl
theorem lih (a0 : Guard) (a1 : XReg) (a2 : XReg) (a3 : BitVec 32) : Statement (.lih a0 a1 a2 a3) := rfl
theorem mov (a0 : Guard) (a1 : XReg) (a2 : XReg) : Statement (.mov a0 a1 a2) := rfl
theorem fadd (a0 : Guard) (a1 : XReg) (a2 : XReg) (a3 : XReg) (a4 : FTy) (a5 : Rm) : Statement (.fadd a0 a1 a2 a3 a4 a5) := rfl
theorem fsub (a0 : Guard) (a1 : XReg) (a2 : XReg) (a3 : XReg) (a4 : FTy) (a5 : Rm) : Statement (.fsub a0 a1 a2 a3 a4 a5) := rfl
theorem fmul (a0 : Guard) (a1 : XReg) (a2 : XReg) (a3 : XReg) (a4 : FTy) (a5 : Rm) : Statement (.fmul a0 a1 a2 a3 a4 a5) := rfl
theorem fdiv (a0 : Guard) (a1 : XReg) (a2 : XReg) (a3 : XReg) (a4 : FTy) (a5 : Rm) : Statement (.fdiv a0 a1 a2 a3 a4 a5) := rfl
theorem fsqrt (a0 : Guard) (a1 : XReg) (a2 : XReg) (a3 : FTy) (a4 : Rm) : Statement (.fsqrt a0 a1 a2 a3 a4) := rfl
theorem fma (a0 : Guard) (a1 : XReg) (a2 : XReg) (a3 : XReg) (a4 : XReg) (a5 : FTy) (a6 : Rm) : Statement (.fma a0 a1 a2 a3 a4 a5 a6) := rfl
theorem fmin (a0 : Guard) (a1 : XReg) (a2 : XReg) (a3 : XReg) (a4 : FTy) : Statement (.fmin a0 a1 a2 a3 a4) := rfl
theorem fmax (a0 : Guard) (a1 : XReg) (a2 : XReg) (a3 : XReg) (a4 : FTy) : Statement (.fmax a0 a1 a2 a3 a4) := rfl
theorem fcmp (a0 : Guard) (a1 : XReg) (a2 : XReg) (a3 : XReg) (a4 : FTy) (a5 : FCond) : Statement (.fcmp a0 a1 a2 a3 a4 a5) := rfl
theorem fclass (a0 : Guard) (a1 : XReg) (a2 : XReg) (a3 : FTy) : Statement (.fclass a0 a1 a2 a3) := rfl
theorem fsgnj (a0 : Guard) (a1 : XReg) (a2 : XReg) (a3 : XReg) (a4 : FTy) (a5 : SgnVar) : Statement (.fsgnj a0 a1 a2 a3 a4 a5) := rfl
theorem fcvt (a0 : Guard) (a1 : XReg) (a2 : XReg) (a3 : Ty) (a4 : Ty) (a5 : Rm) : Statement (.fcvt a0 a1 a2 a3 a4 a5) := rfl
theorem vfadd (a0 : Guard) (a1 : VReg) (a2 : VReg) (a3 : VReg) (a4 : FTy) (a5 : Rm) : Statement (.vfadd a0 a1 a2 a3 a4 a5) := rfl
theorem vfsub (a0 : Guard) (a1 : VReg) (a2 : VReg) (a3 : VReg) (a4 : FTy) (a5 : Rm) : Statement (.vfsub a0 a1 a2 a3 a4 a5) := rfl
theorem vfmul (a0 : Guard) (a1 : VReg) (a2 : VReg) (a3 : VReg) (a4 : FTy) (a5 : Rm) : Statement (.vfmul a0 a1 a2 a3 a4 a5) := rfl
theorem vfma (a0 : Guard) (a1 : VReg) (a2 : VReg) (a3 : VReg) (a4 : VReg) (a5 : FTy) (a6 : Rm) : Statement (.vfma a0 a1 a2 a3 a4 a5 a6) := rfl
theorem vfmin (a0 : Guard) (a1 : VReg) (a2 : VReg) (a3 : VReg) (a4 : FTy) : Statement (.vfmin a0 a1 a2 a3 a4) := rfl
theorem vfmax (a0 : Guard) (a1 : VReg) (a2 : VReg) (a3 : VReg) (a4 : FTy) : Statement (.vfmax a0 a1 a2 a3 a4) := rfl
theorem vfdiv (a0 : Guard) (a1 : VReg) (a2 : VReg) (a3 : VReg) (a4 : FTy) (a5 : Rm) : Statement (.vfdiv a0 a1 a2 a3 a4 a5) := rfl
theorem vfsqrt (a0 : Guard) (a1 : VReg) (a2 : VReg) (a3 : FTy) (a4 : Rm) : Statement (.vfsqrt a0 a1 a2 a3 a4) := rfl
theorem vadd (a0 : Guard) (a1 : VReg) (a2 : VReg) (a3 : VReg) (a4 : Ty) (a5 : Bool) : Statement (.vadd a0 a1 a2 a3 a4 a5) := rfl
theorem vsub (a0 : Guard) (a1 : VReg) (a2 : VReg) (a3 : VReg) (a4 : Ty) (a5 : Bool) : Statement (.vsub a0 a1 a2 a3 a4 a5) := rfl
theorem vmul (a0 : Guard) (a1 : VReg) (a2 : VReg) (a3 : VReg) (a4 : Ty) : Statement (.vmul a0 a1 a2 a3 a4) := rfl
theorem vmulh (a0 : Guard) (a1 : VReg) (a2 : VReg) (a3 : VReg) (a4 : Ty) : Statement (.vmulh a0 a1 a2 a3 a4) := rfl
theorem vmin (a0 : Guard) (a1 : VReg) (a2 : VReg) (a3 : VReg) (a4 : Ty) : Statement (.vmin a0 a1 a2 a3 a4) := rfl
theorem vmax (a0 : Guard) (a1 : VReg) (a2 : VReg) (a3 : VReg) (a4 : Ty) : Statement (.vmax a0 a1 a2 a3 a4) := rfl
theorem vand (a0 : Guard) (a1 : VReg) (a2 : VReg) (a3 : VReg) (a4 : Ty) : Statement (.vand a0 a1 a2 a3 a4) := rfl
theorem vor (a0 : Guard) (a1 : VReg) (a2 : VReg) (a3 : VReg) (a4 : Ty) : Statement (.vor a0 a1 a2 a3 a4) := rfl
theorem vxor (a0 : Guard) (a1 : VReg) (a2 : VReg) (a3 : VReg) (a4 : Ty) : Statement (.vxor a0 a1 a2 a3 a4) := rfl
theorem vsll (a0 : Guard) (a1 : VReg) (a2 : VReg) (a3 : VReg) (a4 : Ty) : Statement (.vsll a0 a1 a2 a3 a4) := rfl
theorem vsrl (a0 : Guard) (a1 : VReg) (a2 : VReg) (a3 : VReg) (a4 : Ty) : Statement (.vsrl a0 a1 a2 a3 a4) := rfl
theorem vsra (a0 : Guard) (a1 : VReg) (a2 : VReg) (a3 : VReg) (a4 : Ty) : Statement (.vsra a0 a1 a2 a3 a4) := rfl
theorem vfcmp (a0 : Guard) (a1 : QReg) (a2 : VReg) (a3 : VReg) (a4 : FTy) (a5 : FCond) : Statement (.vfcmp a0 a1 a2 a3 a4 a5) := rfl
theorem vcmp (a0 : Guard) (a1 : QReg) (a2 : VReg) (a3 : VReg) (a4 : Ty) (a5 : ICond) : Statement (.vcmp a0 a1 a2 a3 a4 a5) := rfl
theorem vsel (a0 : Guard) (a1 : VReg) (a2 : VReg) (a3 : VReg) (a4 : QReg) (a5 : Ty) : Statement (.vsel a0 a1 a2 a3 a4 a5) := rfl
theorem vredsum (a0 : Guard) (a1 : XReg) (a2 : VReg) (a3 : Ty) : Statement (.vredsum a0 a1 a2 a3) := rfl
theorem vredmin (a0 : Guard) (a1 : XReg) (a2 : VReg) (a3 : Ty) : Statement (.vredmin a0 a1 a2 a3) := rfl
theorem vredmax (a0 : Guard) (a1 : XReg) (a2 : VReg) (a3 : Ty) : Statement (.vredmax a0 a1 a2 a3) := rfl
theorem vscan (a0 : Guard) (a1 : VReg) (a2 : VReg) (a3 : Ty) (a4 : RedOp) : Statement (.vscan a0 a1 a2 a3 a4) := rfl
theorem vperm (a0 : Guard) (a1 : VReg) (a2 : VReg) (a3 : VReg) (a4 : Ty) : Statement (.vperm a0 a1 a2 a3 a4) := rfl
theorem vbcast (a0 : Guard) (a1 : VReg) (a2 : XReg) (a3 : Ty) : Statement (.vbcast a0 a1 a2 a3) := rfl
theorem vext (a0 : Guard) (a1 : XReg) (a2 : VReg) (a3 : XReg) (a4 : Ty) : Statement (.vext a0 a1 a2 a3 a4) := rfl
theorem vins (a0 : Guard) (a1 : VReg) (a2 : XReg) (a3 : XReg) (a4 : Ty) : Statement (.vins a0 a1 a2 a3 a4) := rfl
theorem vcompress (a0 : VReg) (a1 : VReg) (a2 : QReg) (a3 : Ty) : Statement (.vcompress a0 a1 a2 a3) := rfl
theorem vexpand (a0 : VReg) (a1 : VReg) (a2 : QReg) (a3 : Ty) : Statement (.vexpand a0 a1 a2 a3) := rfl
theorem vcvt (a0 : Guard) (a1 : VReg) (a2 : VReg) (a3 : Ty) (a4 : Ty) (a5 : Rm) (a6 : Bool) : Statement (.vcvt a0 a1 a2 a3 a4 a5 a6) := rfl
theorem vexp2 (a0 : Guard) (a1 : VReg) (a2 : VReg) (a3 : Rm) : Statement (.vexp2 a0 a1 a2 a3) := rfl
theorem vrcp (a0 : Guard) (a1 : VReg) (a2 : VReg) (a3 : Rm) : Statement (.vrcp a0 a1 a2 a3) := rfl
theorem vrsqrt (a0 : Guard) (a1 : VReg) (a2 : VReg) (a3 : Rm) : Statement (.vrsqrt a0 a1 a2 a3) := rfl
theorem pmaskLt (a0 : Guard) (a1 : QReg) (a2 : XReg) (a3 : XReg) (a4 : Ty) : Statement (.pmaskLt a0 a1 a2 a3 a4) := rfl
theorem pand (a0 : Guard) (a1 : QReg) (a2 : QReg) (a3 : QReg) : Statement (.pand a0 a1 a2 a3) := rfl
theorem por (a0 : Guard) (a1 : QReg) (a2 : QReg) (a3 : QReg) : Statement (.por a0 a1 a2 a3) := rfl
theorem pxor (a0 : Guard) (a1 : QReg) (a2 : QReg) (a3 : QReg) : Statement (.pxor a0 a1 a2 a3) := rfl
theorem pnot (a0 : Guard) (a1 : QReg) (a2 : QReg) : Statement (.pnot a0 a1 a2) := rfl
theorem pcnt (a0 : Guard) (a1 : XReg) (a2 : QReg) : Statement (.pcnt a0 a1 a2) := rfl
theorem pfirst (a0 : Guard) (a1 : XReg) (a2 : QReg) : Statement (.pfirst a0 a1 a2) := rfl
theorem ld (a0 : Guard) (a1 : XReg) (a2 : XReg) (a3 : Ty) (a4 : LsId) (a5 : BitVec 32) : Statement (.ld a0 a1 a2 a3 a4 a5) := rfl
theorem st (a0 : Guard) (a1 : XReg) (a2 : XReg) (a3 : Ty) (a4 : LsId) (a5 : BitVec 32) : Statement (.st a0 a1 a2 a3 a4 a5) := rfl
theorem vld (a0 : Guard) (a1 : VReg) (a2 : XReg) (a3 : Ty) (a4 : LsId) (a5 : BitVec 32) : Statement (.vld a0 a1 a2 a3 a4 a5) := rfl
theorem vst (a0 : Guard) (a1 : XReg) (a2 : VReg) (a3 : Ty) (a4 : LsId) (a5 : BitVec 32) : Statement (.vst a0 a1 a2 a3 a4 a5) := rfl
theorem vldf (a0 : Guard) (a1 : VReg) (a2 : XReg) (a3 : FmtReg) (a4 : LsId) (a5 : BitVec 10) : Statement (.vldf a0 a1 a2 a3 a4 a5) := rfl
theorem vstq (a0 : Guard) (a1 : XReg) (a2 : VReg) (a3 : FmtReg) (a4 : LsId) (a5 : BitVec 10) (a6 : Bool) : Statement (.vstq a0 a1 a2 a3 a4 a5 a6) := rfl
theorem get (a0 : Guard) (a1 : XReg) (a2 : FWord) (a3 : Ty) (a4 : PktMod) (a5 : SlotField) : Statement (.get a0 a1 a2 a3 a4 a5) := rfl
theorem put (a0 : Guard) (a1 : XReg) (a2 : FWord) (a3 : Ty) (a4 : PktMod) (a5 : SlotField) : Statement (.put a0 a1 a2 a3 a4 a5) := rfl
theorem vget (a0 : Guard) (a1 : XReg) (a2 : FWord) (a3 : PktMod) (a4 : SlotField) : Statement (.vget a0 a1 a2 a3 a4) := rfl
theorem vput (a0 : Guard) (a1 : XReg) (a2 : FWord) (a3 : PktMod) (a4 : SlotField) : Statement (.vput a0 a1 a2 a3 a4) := rfl
theorem copy (a0 : Guard) (a1 : XReg) (a2 : XReg) (a3 : XReg) (a4 : PktMod) (a5 : SlotField) : Statement (.copy a0 a1 a2 a3 a4 a5) := rfl
theorem gather (a0 : Guard) (a1 : XReg) (a2 : XReg) (a3 : VReg) (a4 : BitVec 4) (a5 : Half) (a6 : BitVec 5) (a7 : PktMod) (a8 : SlotField) : Statement (.gather a0 a1 a2 a3 a4 a5 a6 a7 a8) := rfl
theorem scatter (a0 : Guard) (a1 : XReg) (a2 : XReg) (a3 : VReg) (a4 : BitVec 4) (a5 : Half) (a6 : BitVec 5) (a7 : PktMod) (a8 : SlotField) : Statement (.scatter a0 a1 a2 a3 a4 a5 a6 a7 a8) := rfl
theorem amsg (a0 : Guard) (a1 : XReg) (a2 : XReg) (a3 : BitVec 2) (a4 : BitVec 4) (a5 : PktMod) (a6 : BitVec 32) : Statement (.amsg a0 a1 a2 a3 a4 a5 a6) := rfl
theorem own (a0 : Guard) (a1 : XReg) (a2 : XReg) (a3 : FWord) (a4 : PktMod) (a5 : SlotField) : Statement (.own a0 a1 a2 a3 a4 a5) := rfl
theorem ldfe (a0 : Guard) (a1 : XReg) (a2 : FWord) (a3 : PktMod) (a4 : SlotField) : Statement (.ldfe a0 a1 a2 a3 a4) := rfl
theorem stef (a0 : Guard) (a1 : XReg) (a2 : XReg) (a3 : PktMod) (a4 : SlotField) : Statement (.stef a0 a1 a2 a3 a4) := rfl
theorem tagf (a0 : Guard) (a1 : XReg) (a2 : PktMod) (a3 : SlotField) : Statement (.tagf a0 a1 a2 a3) := rfl
theorem tage (a0 : Guard) (a1 : XReg) (a2 : PktMod) (a3 : SlotField) : Statement (.tage a0 a1 a2 a3) := rfl
theorem amoAdd (a0 : Guard) (a1 : XReg) (a2 : XReg) (a3 : FWord) (a4 : Ty) (a5 : PktMod) (a6 : SlotField) : Statement (.amoAdd a0 a1 a2 a3 a4 a5 a6) := rfl
theorem amoAnd (a0 : Guard) (a1 : XReg) (a2 : XReg) (a3 : FWord) (a4 : Ty) (a5 : PktMod) (a6 : SlotField) : Statement (.amoAnd a0 a1 a2 a3 a4 a5 a6) := rfl
theorem amoOr (a0 : Guard) (a1 : XReg) (a2 : XReg) (a3 : FWord) (a4 : Ty) (a5 : PktMod) (a6 : SlotField) : Statement (.amoOr a0 a1 a2 a3 a4 a5 a6) := rfl
theorem amoXor (a0 : Guard) (a1 : XReg) (a2 : XReg) (a3 : FWord) (a4 : Ty) (a5 : PktMod) (a6 : SlotField) : Statement (.amoXor a0 a1 a2 a3 a4 a5 a6) := rfl
theorem amoMin (a0 : Guard) (a1 : XReg) (a2 : XReg) (a3 : FWord) (a4 : Ty) (a5 : PktMod) (a6 : SlotField) : Statement (.amoMin a0 a1 a2 a3 a4 a5 a6) := rfl
theorem amoMax (a0 : Guard) (a1 : XReg) (a2 : XReg) (a3 : FWord) (a4 : Ty) (a5 : PktMod) (a6 : SlotField) : Statement (.amoMax a0 a1 a2 a3 a4 a5 a6) := rfl
theorem amoSwap (a0 : Guard) (a1 : XReg) (a2 : XReg) (a3 : FWord) (a4 : Ty) (a5 : PktMod) (a6 : SlotField) : Statement (.amoSwap a0 a1 a2 a3 a4 a5 a6) := rfl
theorem amoCas (a0 : Guard) (a1 : XReg) (a2 : XReg) (a3 : XReg) (a4 : FWord) (a5 : Ty) (a6 : PktMod) (a7 : SlotField) : Statement (.amoCas a0 a1 a2 a3 a4 a5 a6 a7) := rfl
theorem redAdd (a0 : Guard) (a1 : XReg) (a2 : XReg) (a3 : Ty) (a4 : PktMod) : Statement (.redAdd a0 a1 a2 a3 a4) := rfl
theorem redMin (a0 : Guard) (a1 : XReg) (a2 : XReg) (a3 : Ty) (a4 : PktMod) : Statement (.redMin a0 a1 a2 a3 a4) := rfl
theorem redMax (a0 : Guard) (a1 : XReg) (a2 : XReg) (a3 : Ty) (a4 : PktMod) : Statement (.redMax a0 a1 a2 a3 a4) := rfl
theorem csnap (a0 : Guard) (a1 : XReg) (a2 : FWord) (a3 : PktMod) (a4 : SlotField) : Statement (.csnap a0 a1 a2 a3 a4) := rfl
theorem fenceRel (a0 : Guard) (a1 : Scope) : Statement (.fenceRel a0 a1) := rfl
theorem fenceAcq (a0 : Guard) (a1 : Scope) : Statement (.fenceAcq a0 a1) := rfl
theorem sigRel (a0 : Guard) (a1 : XReg) (a2 : FWord) (a3 : BitVec 8) (a4 : PktMod) : Statement (.sigRel a0 a1 a2 a3 a4) := rfl
theorem enq (a0 : Guard) (a1 : XReg) (a2 : XReg) (a3 : XReg) (a4 : BitVec 4) (a5 : PktMod) (a6 : SlotField) : Statement (.enq a0 a1 a2 a3 a4 a5 a6) := rfl
theorem enqA (a0 : Guard) (a1 : XReg) (a2 : XReg) (a3 : XReg) (a4 : BitVec 4) (a5 : PktMod) (a6 : SlotField) : Statement (.enqA a0 a1 a2 a3 a4 a5 a6) := rfl
theorem deq (a0 : Guard) (a1 : XReg) (a2 : XReg) (a3 : FWord) (a4 : BitVec 4) (a5 : PktMod) (a6 : Bool) : Statement (.deq a0 a1 a2 a3 a4 a5 a6) := rfl
theorem stgClaim (a0 : Guard) (a1 : XReg) (a2 : XReg) : Statement (.stgClaim a0 a1 a2) := rfl
theorem stgFree (a0 : Guard) (a1 : XReg) (a2 : XReg) : Statement (.stgFree a0 a1 a2) := rfl
theorem mma (a0 : Guard) (a1 : AccReg) (a2 : XReg) (a3 : XReg) (a4 : BitVec 4) (a5 : PktMod) (a6 : SlotField) : Statement (.mma a0 a1 a2 a3 a4 a5 a6) := rfl
theorem mmaF32 (a0 : Guard) (a1 : AccReg) (a2 : XReg) (a3 : XReg) (a4 : BitVec 4) (a5 : PktMod) (a6 : SlotField) : Statement (.mmaF32 a0 a1 a2 a3 a4 a5 a6) := rfl
theorem mmaF64 (a0 : Guard) (a1 : AccReg) (a2 : XReg) (a3 : XReg) (a4 : BitVec 4) (a5 : PktMod) (a6 : SlotField) : Statement (.mmaF64 a0 a1 a2 a3 a4 a5 a6) := rfl
theorem mmag (a0 : Guard) (a1 : AccReg) (a2 : XReg) (a3 : XReg) (a4 : VReg) (a5 : BitVec 4) (a6 : PktMod) (a7 : SlotField) : Statement (.mmag a0 a1 a2 a3 a4 a5 a6 a7) := rfl
theorem mmas (a0 : Guard) (a1 : AccReg) (a2 : XReg) (a3 : XReg) (a4 : BitVec 4) (a5 : PktMod) (a6 : SlotField) : Statement (.mmas a0 a1 a2 a3 a4 a5 a6) := rfl
theorem mscan (a0 : Guard) (a1 : AccReg) (a2 : XReg) (a3 : XReg) (a4 : XReg) (a5 : PktMod) (a6 : SlotField) : Statement (.mscan a0 a1 a2 a3 a4 a5 a6) := rfl
theorem mscanSeg (a0 : Guard) (a1 : AccReg) (a2 : XReg) (a3 : XReg) (a4 : XReg) (a5 : PktMod) (a6 : SlotField) : Statement (.mscanSeg a0 a1 a2 a3 a4 a5 a6) := rfl
theorem accGet (a0 : Guard) (a1 : AccReg) : Statement (.accGet a0 a1) := rfl
theorem accGive (a0 : Guard) (a1 : AccReg) : Statement (.accGive a0 a1) := rfl
theorem accZero (a0 : Guard) (a1 : AccReg) : Statement (.accZero a0 a1) := rfl
theorem accLd (a0 : Guard) (a1 : AccReg) (a2 : XReg) (a3 : BitVec 5) (a4 : Ty) (a5 : PktMod) (a6 : SlotField) : Statement (.accLd a0 a1 a2 a3 a4 a5 a6) := rfl
theorem accSt (a0 : Guard) (a1 : XReg) (a2 : AccReg) (a3 : BitVec 5) (a4 : Ty) (a5 : PktMod) (a6 : SlotField) : Statement (.accSt a0 a1 a2 a3 a4 a5 a6) := rfl
theorem accAdd (a0 : Guard) (a1 : AccReg) (a2 : AccReg) (a3 : FTy) : Statement (.accAdd a0 a1 a2 a3) := rfl
theorem accRed (a0 : Guard) (a1 : AccReg) (a2 : AccReg) (a3 : FTy) : Statement (.accRed a0 a1 a2 a3) := rfl
theorem qtile (a0 : Guard) (a1 : XReg) (a2 : AccReg) (a3 : FmtReg) (a4 : Bool) (a5 : PktMod) (a6 : SlotField) : Statement (.qtile a0 a1 a2 a3 a4 a5 a6) := rfl
theorem fmtSet (a0 : Guard) (a1 : FmtReg) (a2 : XReg) : Statement (.fmtSet a0 a1 a2) := rfl
theorem fmtGet (a0 : Guard) (a1 : XReg) (a2 : FmtReg) : Statement (.fmtGet a0 a1 a2) := rfl
theorem sysr (a0 : Guard) (a1 : XReg) (a2 : BitVec 5) : Statement (.sysr a0 a1 a2) := rfl
theorem sysw (a0 : Guard) (a1 : BitVec 5) (a2 : XReg) : Statement (.sysw a0 a1 a2) := rfl
theorem ctrRd (a0 : Guard) (a1 : XReg) (a2 : BitVec 4) : Statement (.ctrRd a0 a1 a2) := rfl
theorem ctrCfg (a0 : Guard) (a1 : BitVec 4) (a2 : XReg) : Statement (.ctrCfg a0 a1 a2) := rfl
theorem rv64imcInstruction (a0 : RvWord) : Statement (.rv64imcInstruction a0) := by
  cases a0 <;> rfl
theorem cpGo (a0 : XReg) (a1 : XReg) : Statement (.cpGo a0 a1) := rfl
theorem cpWait (a0 : XReg) (a1 : XReg) (a2 : XReg) : Statement (.cpWait a0 a1 a2) := rfl
theorem cpStat (a0 : XReg) (a1 : XReg) : Statement (.cpStat a0 a1) := rfl
theorem lsSig (a0 : XReg) (a1 : XReg) : Statement (.lsSig a0 a1) := rfl
theorem lsRid (a0 : XReg) (a1 : BitVec 12) : Statement (.lsRid a0 a1) := rfl
theorem lsEnd  : Statement .lsEnd := rfl
theorem stgAcq (a0 : XReg) (a1 : XReg) (a2 : XReg) : Statement (.stgAcq a0 a1 a2) := rfl
theorem stgTry (a0 : XReg) (a1 : XReg) (a2 : XReg) : Statement (.stgTry a0 a1 a2) := rfl
theorem stgRd (a0 : XReg) (a1 : XReg) (a2 : XReg) : Statement (.stgRd a0 a1 a2) := rfl
theorem epRd (a0 : XReg) (a1 : XReg) (a2 : BitVec 12) : Statement (.epRd a0 a1 a2) := rfl
theorem lsLdw (a0 : XReg) (a1 : XReg) (a2 : XReg) : Statement (.lsLdw a0 a1 a2) := rfl
theorem lsStw (a0 : XReg) (a1 : XReg) : Statement (.lsStw a0 a1) := rfl
theorem cpGoChannelStart (a0 : Nat) (a1 : Bool) : Statement (.cpGoChannelStart a0 a1) := rfl
theorem cpWaitResume (a0 : Nat) (a1 : Bool) : Statement (.cpWaitResume a0 a1) := rfl
theorem stgAcqResume (a0 : Nat) (a1 : Bool) : Statement (.stgAcqResume a0 a1) := rfl
theorem copyBeatComplete (a0 : Nat) : Statement (.copyBeatComplete a0) := rfl
theorem sliceRequest (a0 : Nat) : Statement (.sliceRequest a0) := rfl
theorem mergeWindowClose (a0 : Nat) : Statement (.mergeWindowClose a0) := rfl
theorem lineFill (a0 : Nat) : Statement (.lineFill a0) := rfl
theorem redInjectRelease (a0 : Nat) : Statement (.redInjectRelease a0) := rfl
theorem stcInvAll (a0 : Party) (a1 : Nat) (a2 : Word) : Statement (.stcInvAll a0 a1 a2) := rfl
theorem stcInvSid (a0 : Party) (a1 : Nat) (a2 : Word) : Statement (.stcInvSid a0 a1 a2) := rfl
theorem stcInvPage (a0 : Party) (a1 : Nat) (a2 : Word) : Statement (.stcInvPage a0 a1 a2) := rfl
theorem stcInvWriteback (a0 : Nat) : Statement (.stcInvWriteback a0) := rfl
theorem stcInvComplete (a0 : Nat) : Statement (.stcInvComplete a0) := rfl
theorem faultReplay (a0 : Party) (a1 : Nat) (a2 : BitVec 20) : Statement (.faultReplay a0 a1 a2) := rfl
theorem faultFatal (a0 : Party) (a1 : Nat) (a2 : BitVec 20) : Statement (.faultFatal a0 a1 a2) := rfl
theorem bankRequest (a0 : Nat) : Statement (.bankRequest a0) := rfl
theorem bankReplay (a0 : Nat) (a1 : Nat) : Statement (.bankReplay a0 a1) := rfl
theorem feRetry (a0 : Nat) : Statement (.feRetry a0) := rfl
theorem spillAcknowledged (a0 : Nat) : Statement (.spillAcknowledged a0) := rfl
theorem framePacketArrival (a0 : Nat) : Statement (.framePacketArrival a0) := rfl
theorem forwardedSignal (a0 : Nat) : Statement (.forwardedSignal a0) := rfl
theorem refillRequest (a0 : Nat) : Statement (.refillRequest a0) := rfl
theorem refillReadComplete (a0 : Nat) : Statement (.refillReadComplete a0) := rfl
theorem refillInstall (a0 : Nat) : Statement (.refillInstall a0) := rfl
theorem replyDelivery (a0 : Nat) : Statement (.replyDelivery a0) := rfl
theorem tokenBind (a0 : Nat) : Statement (.tokenBind a0) := rfl
theorem tokenPromotion (a0 : Nat) : Statement (.tokenPromotion a0) := rfl
theorem amsgArrival (a0 : Nat) : Statement (.amsgArrival a0) := rfl
theorem amsgRetry (a0 : Nat) : Statement (.amsgRetry a0) := rfl
theorem spawnArrival (a0 : Nat) : Statement (.spawnArrival a0) := rfl
theorem spawnRetry (a0 : Nat) : Statement (.spawnRetry a0) := rfl
theorem enqEntryArrival (a0 : Nat) : Statement (.enqEntryArrival a0) := rfl
theorem enqBufferRelease (a0 : Nat) : Statement (.enqBufferRelease a0) := rfl
theorem creditArrival (a0 : Nat) : Statement (.creditArrival a0) := rfl
theorem heldPacketRelease (a0 : Nat) : Statement (.heldPacketRelease a0) := rfl
theorem rbarArrival (a0 : Nat) : Statement (.rbarArrival a0) := rfl
theorem rbarCompletion (a0 : Nat) : Statement (.rbarCompletion a0) := rfl
theorem matrixRequest (a0 : Nat) : Statement (.matrixRequest a0) := rfl
theorem matrixRequestComplete (a0 : Nat) : Statement (.matrixRequestComplete a0) := rfl
theorem taskPush (a0 : Nat) : Statement (.taskPush a0) := rfl
theorem pop (a0 : Nat) (a1 : BitVec 32) : Statement (.pop a0 a1) := rfl
theorem popDelivery (a0 : Nat) : Statement (.popDelivery a0) := rfl
theorem popRetry (a0 : Nat) : Statement (.popRetry a0) := rfl
theorem stealRequest (a0 : Nat) : Statement (.stealRequest a0) := rfl
theorem stealReply (a0 : Nat) : Statement (.stealReply a0) := rfl
theorem stealRetry (a0 : Nat) (a1 : BitVec 32) : Statement (.stealRetry a0 a1) := rfl
theorem packetArrivalRouter (a0 : Nat) (a1 : Nat) : Statement (.packetArrivalRouter a0 a1) := rfl
theorem routerGrant (a0 : Nat) (a1 : Nat) (a2 : VC) : Statement (.routerGrant a0 a1 a2) := rfl
theorem slackTick (a0 : Nat) : Statement (.slackTick a0) := rfl
theorem slackExhaustion (a0 : Nat) : Statement (.slackExhaustion a0) := rfl
theorem packetDelivery (a0 : Nat) : Statement (.packetDelivery a0) := rfl
theorem flitReceive (a0 : Nat) (a1 : Nat) (a2 : Nat) (a3 : BitVec 560) : Statement (.flitReceive a0 a1 a2 a3) := rfl
theorem nackReceive (a0 : Nat) (a1 : Nat) (a2 : Nat) : Statement (.nackReceive a0 a1 a2) := rfl
theorem ackReceive (a0 : Nat) (a1 : Nat) (a2 : Nat) : Statement (.ackReceive a0 a1 a2) := rfl
theorem laneRetire (a0 : Nat) (a1 : Nat) (a2 : Nat) : Statement (.laneRetire a0 a1 a2) := rfl
theorem creditResyncSend (a0 : Nat) (a1 : Nat) (a2 : Nat) : Statement (.creditResyncSend a0 a1 a2) := rfl
theorem creditResyncReceive (a0 : Nat) (a1 : Nat) (a2 : Nat) : Statement (.creditResyncReceive a0 a1 a2) := rfl
theorem launchSubmit (a0 : Party) (a1 : Word) : Statement (.launchSubmit a0 a1) := rfl
theorem launchSubmission  : Statement .launchSubmission := rfl
theorem descriptorReadComplete (a0 : BitVec 32) : Statement (.descriptorReadComplete a0) := rfl
theorem poolReservationRequest (a0 : Nat) (a1 : BitVec 32) : Statement (.poolReservationRequest a0 a1) := rfl
theorem placementDecision  : Statement .placementDecision := rfl
theorem reservingTimeout (a0 : BitVec 32) : Statement (.reservingTimeout a0) := rfl
theorem terminationSweep (a0 : SweepPart) : Statement (.terminationSweep a0) := rfl
theorem hangTimeout (a0 : BitVec 32) : Statement (.hangTimeout a0) := rfl
theorem faultedEnd (a0 : BitVec 32) : Statement (.faultedEnd a0) := rfl
theorem faultRecordAppend (a0 : Nat) : Statement (.faultRecordAppend a0) := rfl
theorem powerLevelApply  : Statement .powerLevelApply := rfl
theorem supergroupPowerOff (a0 : Nat) : Statement (.supergroupPowerOff a0) := rfl
theorem wakeComplete (a0 : BitVec 32) : Statement (.wakeComplete a0) := rfl
theorem duskWave (a0 : Party) (a1 : BitVec 32) : Statement (.duskWave a0 a1) := rfl
theorem freezeInPlace (a0 : Party) (a1 : BitVec 32) : Statement (.freezeInPlace a0 a1) := rfl
theorem thaw (a0 : Party) (a1 : BitVec 32) : Statement (.thaw a0 a1) := rfl
theorem restore (a0 : Party) (a1 : BitVec 32) : Statement (.restore a0 a1) := rfl
theorem waveDrainComplete  : Statement .waveDrainComplete := rfl
theorem waveFailure  : Statement .waveFailure := rfl
theorem restoreForward (a0 : Nat) : Statement (.restoreForward a0) := rfl
theorem dbgGo (a0 : Party) (a1 : Word) : Statement (.dbgGo a0 a1) := rfl
theorem dbgGoLoader (a0 : Party) (a1 : Word) : Statement (.dbgGoLoader a0 a1) := rfl
theorem hostAccess (a0 : Party) (a1 : Word) (a2 : Nat) (a3 : Bool) (a4 : Bool) (a5 : Line64) : Statement (.hostAccess a0 a1 a2 a3 a4 a5) := rfl
theorem ingressWrite (a0 : Party) (a1 : Word) (a2 : Nat) (a3 : Word) : Statement (.ingressWrite a0 a1 a2 a3) := rfl
theorem ingressClose (a0 : BitVec 32) (a1 : Nat) : Statement (.ingressClose a0 a1) := rfl
theorem ownershipClaim (a0 : Party) (a1 : BitVec 32) : Statement (.ownershipClaim a0 a1) := rfl
theorem ownHandover (a0 : Party) (a1 : BitVec 2) : Statement (.ownHandover a0 a1) := rfl
theorem ownRelease (a0 : Party) : Statement (.ownRelease a0) := rfl
theorem ownerTimeout  : Statement .ownerTimeout := rfl
theorem budgetWrite (a0 : Party) (a1 : Word) : Statement (.budgetWrite a0 a1) := rfl
theorem daybreak  : Statement .daybreak := rfl
theorem svnBurn (a0 : Party) (a1 : Word) : Statement (.svnBurn a0 a1) := rfl
theorem attestationRequest (a0 : Party) : Statement (.attestationRequest a0) := rfl
theorem attestationComplete  : Statement .attestationComplete := rfl
theorem spaceRetire (a0 : Party) (a1 : Word) : Statement (.spaceRetire a0 a1) := rfl
theorem spaceRetireComplete  : Statement .spaceRetireComplete := rfl
theorem cfgDataRead (a0 : Party) : Statement (.cfgDataRead a0) := rfl
theorem cfgDataWrite (a0 : Party) (a1 : Word) : Statement (.cfgDataWrite a0 a1) := rfl
theorem windowAccess (a0 : Nat) : Statement (.windowAccess a0) := rfl
theorem registerWrite (a0 : Party) (a1 : Nat) (a2 : Word) : Statement (.registerWrite a0 a1 a2) := rfl
theorem copyBeatIssue (a0 : Nat) : Statement (.copyBeatIssue a0) := rfl
theorem placementReadComplete (a0 : BitVec 32) : Statement (.placementReadComplete a0) := rfl
theorem zeroisationComplete (a0 : BitVec 32) : Statement (.zeroisationComplete a0) := rfl
theorem hostInvalidationComplete (a0 : BitVec 16) (a1 : Word) : Statement (.hostInvalidationComplete a0 a1) := rfl
theorem managementHeartbeat  : Statement .managementHeartbeat := rfl
theorem linkTraining (a0 : Party) (a1 : Word) : Statement (.linkTraining a0 a1) := rfl
theorem creditCountSoftError (a0 : Nat) (a1 : Nat) (a2 : Nat) (a3 : Nat) : Statement (.creditCountSoftError a0 a1 a2 a3) := rfl

end Sys2Proof.Laws.Words
end

