-- ==== Sys2Proof/Tests/Slice0.lean ====
section
/-! SUPPORT. Slice0.lean: tests of single steps, with results taken from the spec's tables and worked examples, ill-formed
terms that the checks refuse, words written out from the spec's encodings, and for each statement a state and operands that
meet its hypotheses, clause by clause. -/

set_option maxRecDepth 100000
set_option Elab.async false

namespace Sys2Proof.Tests

open Sys2Proof.Machine Sys2Proof.Claims

/-! A small package: launch 1 of space 5 alone on core 0. -/

/-- No predicate: always on. -/
def on : Guard := ⟨0, false⟩
def p0 : PktMod := ⟨0, .core⟩
def noSlot : SlotField := ⟨false, false, 0⟩
/-- The last slot of a frame of class 3. -/
def lastSlot : SlotField := ⟨false, true, 511⟩
/-- A launch whose code is 16 lines from 0x10000, of one core, with its entry at line 3 and its trap handler at line 2. -/
def run1 : Launch :=
  { lid := 1, sid := 5, depth := 0, desc := 0x2000, phase := .resident, root := 1,
    ws := [0x10000, 0x0000006000000010, 0x0000004000000000] }
/-- A class 3 frame at the first unit of the frame region, generation 4. -/
def u0 : Nat := 0x3000
def fp0 : Word := mkFp 0 0 u0 4 3
/-- One window over all of scratch, with every right, for space 5. -/
def openWin : Map Word := [(0, 0xe000000000000005), (2, 0xfffff)]
def core0 : Core := { lids := [1], sid := 5, win := openWin,
                      fr := { frs := 0x40000, dir := [(u0, { alloc := true, gen := 4, cls := 3, lid := 1 })] } }
/-- The working copy of a block at its head 2 on line 3. -/
def work0 (r : Regs) : Work := { active := true, line := 3, k := 2, regs := r }
def ctx0 (w : Work) : Ctx := { bound := true, fp := fp0, pos := 0x60, lid := 1, thr := 9, work := w }
/-- A state that holds one core and the launch. -/
def holds (x : Core) : State := { State.reset with cores := [(0, x)], dist := { launches := [(1, run1)] } }
theorem holds_noneDeferred (x : Core) (h : x.defer = []) : noneDeferred (holds x) := by
  intro c; simp only [State.core, holds, mget]; split <;> simp_all
/-- A line that holds one head, `fma.f32 x5, x6, x7, x8` as R202 encodes it. -/
def fmaLine : Line64 := oneHeadLine (halvesOf 48 0x400831c15305)
/-- A state whose context 0 of core 0 executes a head with a working copy. -/
def headW (w : Work) : State := holds { core0 with ctxs := [(0, ctx0 w)] }
/-- Registers for the tests: 0, the ends of the signed range, small and aligned numbers. -/
def regs0 : Regs :=
  { x := [(1, 0x8000000000000000), (2, 0xffffffffffffffff), (4, 7), (5, 0x40), (6, 0xfff80), (7, 0x100000), (8, 0x41),
          (9, 32), (10, 37), (11, 0x10000), (12, 0x103c0), (13, 0x10400), (14, 0x10010)],
    v := [(1, 0x0000000300000002000000010000000f)], q := [(1, 0xffff), (2, 0x0001), (3, 0x8000)] }
def head0 : State := headW (work0 regs0)
/-- The word a head leaves in a register, if it goes on. -/
def xAfter (o : Out) (n : XReg) : Option Word := match o with
  | .next s => some (s.work.regs.rx n)
  | _ => none
def vAfter (o : Out) (n : VReg) : Option Line64 := match o with
  | .next s => some (s.work.regs.rv n)
  | _ => none
def qAfter (o : Out) (n : QReg) : Option Half := match o with
  | .next s => some (s.work.regs.rq n)
  | _ => none
def cfAfter (o : Out) : Option (BitVec 7) := match o with
  | .next s => some s.work.regs.cf
  | _ => none

/-! Results from the spec's tables. -/

/-- R178: division by zero, and the most negative number by −1. -/
theorem test_div_corners : xAfter (exec (.div on 20 4 0) head0) 20 = some 0xffffffffffffffff ∧
    xAfter (exec (.div on 20 1 2) head0) 20 = some 0x8000000000000000 ∧
    xAfter (exec (.rem on 20 1 2) head0) 20 = some 0 ∧ xAfter (exec (.rem on 20 4 0) head0) 20 = some 7 := by decide +kernel
/-- R34: `x0` discards its write. -/
theorem test_x0_reads_zero : xAfter (exec (.add on 0 4 4) head0) 0 = some 0 := by decide +kernel
/-- R177: the high half of −1 × −1. -/
theorem test_mulh_of_ones : xAfter (exec (.mulh on 20 2 2) head0) 20 = some 0 ∧
    xAfter (exec (.mulhu on 20 2 2) head0) 20 = some 0xfffffffffffffffe := by decide +kernel
/-- R202: x4 = 32 and x5 = 37 give 0x001f for 32-bit lanes and 0x03ff for 64-bit lanes. -/
theorem test_pmask_example : qAfter (exec (.pmaskLt on 1 9 10 .s32) head0) 1 = some 0x001f ∧
    qAfter (exec (.pmaskLt on 1 9 10 .s64) head0) 1 = some 0x03ff := by decide +kernel


/-! Witnesses: states and operands that meet the hypotheses of the statements. -/

/-- A block whose registers hold the arguments of a case. -/
def headX (x : Map Word) : State := headW (work0 { regs0 with x := x })
/-- The block of `headX` with format registers of the core. -/
def headFmt (fmt : Map Word) (f : Work → Work) : State := holds { core0 with fmt := fmt, ctxs := [(0, ctx0 (f (work0 regs0)))] }

/-- A guard is on by any true predicate, plain or inverted; `q0` is always true. -/
theorem witness_ScalarFormsWriteTheTableValue : head0.work.regs.on on = true ∧ head0.work.regs.on ⟨2, false⟩ = true ∧
    head0.work.regs.on ⟨3, true⟩ = true ∧ binaryForms.length = 22 ∧ unaryForms.length = 4 := by and_intros <;> decide +kernel
theorem witness_DivisionsTruncateAndDefineEveryCase : head0.work.regs.on on = true ∧ divisionForms.length = 4 ∧
    X head0 0 = 0 ∧ X head0 1 = 0x8000000000000000 ∧ X head0 2 = 0xffffffffffffffff := by and_intros <;> decide +kernel
theorem witness_ImmediateAndFieldFormsWriteTheirValue : head0.work.regs.on on = true ∧
    (Instr.sext on 20 1 .s32).wellFormed = true ∧ (Instr.zext on 20 1 .z8).wellFormed = true ∧
    (Instr.bfx on 20 1 63 0).wellFormed = true ∧ (Instr.bfxu on 20 1 0 63).wellFormed = true ∧
    (Instr.bfi on 20 1 2 31 32).wellFormed = true ∧ (Instr.lea on 20 1 2 6 0x80000000).wellFormed = true := by and_intros <;> decide +kernel
theorem witness_ScalarFloatFormsComplete : head0.work.regs.on on = true ∧ (Instr.fcvt on 20 1 .f32 .f64 .rne).wellFormed = true ∧
    (Instr.fcvt on 20 1 .s8 .f32 .rtz).wellFormed = true ∧ (Instr.fcvt on 20 1 .f64 .z64 .rup).wellFormed = true := by
  decide +kernel
theorem witness_FloatCornersAreFixed : (fmtF32.val 0x7fc00000).isNan ∧ (fmtF32.val 0x7f800001).isSnan ∧
    fmtF32.val 0x7f800000 = .inf false ∧ fmtF32.val 0xff800000 = .inf true ∧ fmtF64.val 0 = .fin false 0 (-1074) ∧
    fmtF32.val 0x80000000 = .fin true 0 (-149) ∧ fmtF32.val 0x80000001 = .fin true 1 (-149) ∧
    fmtF64.val 0x3ff0000000000000 = .fin false 0x10000000000000 (-52) ∧
    0x3ff0000000000000 < 2 ^ (fmtF64.w + fmtF64.p) ∧
    [Ty.s8, .s16, .s32, .s64, .z8, .z16, .z32, .z64].contains .z8 = true ∧
    fmtF32.val 0x40200000 = .fin false 0xa00000 (-22) ∧ dyadic 0xa00000 (-22) 2 0 = .gt ∧ dyadic 0xa00000 (-22) 3 0 = .lt ∧
    fmtF32.val 0xc0400000 = .fin true 0xc00000 (-22) ∧ units 0 true 0xc00000 (-22) = -3 * 2 ^ 22 ∧
    (magOf fmtF32 1 = (1, -149) ∧ dyadic 3 (-150) 1 (-149) = .gt ∧ dyadic 3 (-150) 2 (-149) = .lt) ∧
    (magOf fmtF32 0x7f800000 = (0x800000, 105) ∧ dyadic 1 128 0x800000 105 = .eq) := by and_intros <;> decide +kernel
theorem witness_LaneFormsWriteEnabledLanes : laneTys.contains .f32 = true ∧ laneTys.contains .z64 = true ∧
    intTys.contains .s32 = true ∧ enabled head0 ⟨2, false⟩ true 0 = true ∧ enabled head0 ⟨2, false⟩ true 7 = false ∧
    enabled head0 ⟨3, false⟩ false 15 = true := by and_intros <;> decide +kernel
theorem witness_PredicateFormsComplete : (7 : QReg) ≠ 0 ∧ intTys.contains .z64 = true ∧ laneTys.contains .f64 = true ∧
    head0.work.regs.on on = true := by and_intros <;> decide +kernel
theorem witness_ReductionsRunInTheFixedTree : laneTys.contains .f32 = true ∧ laneTys.contains .s64 = true := by and_intros <;> decide +kernel
theorem witness_PermuteAndConvertFormsComplete : laneTys.contains .s32 = true ∧ vcvtOk .s32 .f32 false = true ∧
    vcvtOk .f64 .f32 true = true ∧ vcvtOk .s32 .f64 false = true := by and_intros <;> decide +kernel
theorem witness_PredicatedOffHeadsChangeNothing : scalarGuard (.add ⟨3, false⟩ 1 2 3) = some ⟨3, false⟩ ∧
    head0.work.regs.on ⟨3, false⟩ = false ∧ scalarGuard (.mma ⟨2, true⟩ 1 2 3 0 p0 noSlot) = some ⟨2, true⟩ ∧
    head0.work.regs.on ⟨2, true⟩ = false := by and_intros <;> decide +kernel
/-- A block one of whose heads has jumped. -/
def jumped : State := headW { work0 regs0 with ctl := .jump 4, ctlHead := 1 }
/-- A block inside loops: of lines 2 to 6, and within it of lines 3 to 5. -/
def loopRegs (depth : BitVec 2) : Regs := { regs0 with depth := depth, l0 := ⟨2, 6, 9⟩, l1 := ⟨3, 5, 4⟩ }
def inLoops (depth : BitVec 2) : State := headW (work0 (loopRegs depth))
theorem witness_ControlHeadsTakeTheirTargets : head0.work.regs.on on = true ∧ head0.work.ctl = .fall ∧ jumped.work.ctl ≠ .fall ∧
    (inLoops 1).work.regs.depth ≠ 0 ∧ head0.work.regs.depth = 0 ∧
    branch2.length = 6 ∧ (branch2.all fun p => (p.2 (X head0 1) (X head0 2) || p.2 (X head0 2) (X head0 2)) &&
      !(p.2 (X head0 1) (X head0 4) && p.2 (X head0 4) (X head0 1) && p.2 (X head0 4) (X head0 4))) = true ∧
    (0 ≤ lineAhead head0 (-3) ∧ lineAhead head0 (-3) < head0.myLaunch.clen) ∧
    (0 ≤ lineAhead head0 12 ∧ lineAhead head0 12 < head0.myLaunch.clen) ∧
    ¬(lineAhead head0 13 < head0.myLaunch.clen) ∧ ¬(0 ≤ lineAhead head0 (-4)) ∧
    head0.work.regs.rq 1 = 0xffff ∧ head0.work.regs.rq 4 = 0 ∧
    15 < head0.myLaunch.clen ∧ (X head0 12).toNat = head0.myLaunch.code.toNat + 64 * 15 ∧ head0.myLaunch.code.toNat % 64 = 0 ∧
    head0.myLaunch.code.toNat + 64 * head0.myLaunch.clen ≤ (X head0 13).toNat ∧ (X head0 14).toNat % 64 ≠ 0 ∧
    (X head0 5).toNat < head0.myLaunch.code.toNat := by and_intros <;> decide +kernel
theorem witness_LoopHeadsPushTheirBody : head0.work.regs.on on = true ∧
    (1 ≤ (12 : BitVec 32).toInt ∧ lineAhead head0 12 < head0.myLaunch.clen ∧ head0.work.regs.depth.toNat < 2) ∧
    ¬(lineAhead head0 12 + 1 < head0.myLaunch.clen) ∧ lineAhead head0 11 + 1 < head0.myLaunch.clen ∧
    ((inLoops 1).work.regs.l0.first.toNat ≤ (inLoops 1).work.line + 1 ∧
      lineAhead (inLoops 1) 3 ≤ ((inLoops 1).work.regs.l0.last.toNat : Int)) ∧
    ¬(lineAhead (inLoops 1) 4 ≤ ((inLoops 1).work.regs.l0.last.toNat : Int)) ∧ ¬((inLoops 2).work.regs.depth.toNat < 2) ∧
    (X head0 4).toNat ≠ 0 ∧ (X head0 4).toNat < 2 ^ 32 ∧ (X head0 0).toNat = 0 ∧ ¬((X head0 1).toNat < 2 ^ 32) := by and_intros <;> decide +kernel
/-- A head with a frame pointer in `x1`, a core base in `x2`, the largest count that one arm takes in `x3` and one more in
`x4`. -/
def threads : State := headX [(1, fp0), (2, baseOf 0 0), (3, 32767), (4, 32768)]
/-- A core with a class list, or with two frames of the class of which the second was touched longer ago. -/
def frames (free : List Nat) (extra : Map FDir) : State :=
  holds { core0 with ctxs := [(0, ctx0 (work0 regs0))],
                     fr := { core0.fr with free := [(0, free)], dir := extra ++ core0.fr.dir } }
def victims : State := frames [] [(10, { alloc := true, cls := 0, lid := 1, touch := 7 }),
  (11, { alloc := true, cls := 0, lid := 1, touch := 5 })]
theorem witness_ThreadletHeadsLeaveTheirAction : threads.work.regs.on on = true ∧ (511 : FWord).toNat < words threads ∧
    (X threads 3).toNat + (0 : BitVec 5).toNat ≤ 32767 ∧ 32767 < (X threads 4).toNat + (0 : BitVec 5).toNat ∧
    (511 : FWord).toNat < 8 * 4 ^ fpCls (X threads 1) ∧ (504 : FWord).toNat + 7 < 8 * 4 ^ fpCls (X threads 1) ∧
    ¬((8 : FWord).toNat < 8 * 4 ^ fpCls (X threads 0)) ∧
    (X threads 2 = baseOf threads.pkg 0 ∧ addrCore (X threads 2) = 0 ∧ threads.myLaunch.inRect 0 = true) ∧
    (addrPkg (X threads 2) = threads.pkg ∧ threads.myLaunch.inRect (threads.ownerOf (X threads 2)) = true) ∧
    mget [] ((frames [u0] []).core 0).fr.free (0 : BitVec 2).toNat = [u0] ∧
    mget [] (victims.core 0).fr.free (0 : BitVec 2).toNat = [] ∧ victims.eligible 0 10 = true ∧ victims.eligible 0 11 = true ∧
    ((victims.core 0).dir 11).touch < ((victims.core 0).dir 10).touch ∧
    ((frames [] []).core 0).fr.dir.map (·.1) = [u0] ∧ ((((frames [] []).core 0).dir u0).cls ≠ 0) := by and_intros <;> decide +kernel
/-- A launch head: `x1` a descriptor's address, `x2` one that is misaligned, with reservations of launch 1 left. -/
def launches (n : Nat) : State :=
  holds { core0 with ctxs := [(0, ctx0 (work0 { x := [(1, 0x80), (2, 0x84)] }))], ni := { resv := [(1, n)] } }
theorem witness_LaunchAndBarrierHeads : (launches 1).work.regs.on on = true ∧ (X (launches 1) 1).toNat % 128 = 0 ∧
    (mget 0 ((launches 1).core 0).ni.resv (launches 1).me.lid.toNat ≠ 0 ∧ (launches 1).work.acts = []) ∧
    (launches 1).myLaunch.depth ≠ 7 ∧ mget 0 ((launches 0).core 0).ni.resv (launches 0).me.lid.toNat = 0 ∧
    (X (launches 1) 2).toNat % 128 ≠ 0 ∧ (511 : FWord).toNat < words (launches 1) ∧
    (0 : BitVec 3).toNat ≤ (launches 1).myLaunch.lw ∧ (0 : BitVec 3).toNat ≤ (launches 1).myLaunch.lh ∧
    ((launches 1).barsOut (launches 1).work).length < 4 ∧ (0, 0) ∉ (launches 1).barsOut (launches 1).work := by and_intros <;> decide +kernel
/-- A block whose threadlet runs in a frame of class 0, which has 8 words; its pointer in `x1`, another core's base in `x2`. -/
def small : State := holds { core0 with ctxs := [(0, { ctx0 (work0 { regs0 with
    x := [(1, mkFp 0 0 u0 4 0), (2, baseOf 0 1), (3, 0x80)] }) with fp := mkFp 0 0 u0 4 0 })] }
/-- A slot past the words of class 0. -/
def slot8 : SlotField := ⟨false, true, 8⟩
/-- Two frames of class 0 touched at the same time. -/
def equals : State := frames [] [(10, { alloc := true, cls := 0, lid := 1, touch := 5 }), (11, { alloc := true, cls := 0, lid := 1, touch := 5 })]
/-- The traps of the threadlet heads. -/
theorem witness_ThreadletHeadsTrap : small.work.regs.on on = true ∧ ¬(8 : FWord).toNat < words small ∧
    ((7 : FWord).toNat < 8 * 4 ^ fpCls (X small 1) ∧ ¬(8 : FWord).toNat < 8 * 4 ^ fpCls (X small 1) ∧
      ¬((1 : FWord).toNat + 7 < 8 * 4 ^ fpCls (X small 1))) ∧
    ¬(X small 2 = baseOf small.pkg (addrCore (X small 2)) ∧ small.myLaunch.inRect (addrCore (X small 2)) = true) ∧
    ¬(addrPkg (X small 2) = small.pkg ∧ small.myLaunch.inRect (small.ownerOf (X small 2)) = true) ∧
    (mget [] (equals.core 0).fr.free 0 = [] ∧ equals.eligible 0 10 = true ∧ equals.eligible 0 11 = true ∧
      ((equals.core 0).dir 10).touch = ((equals.core 0).dir 11).touch) ∧
    ¬slotFits small slot8 ∧ slotFits small noSlot ∧ (X small 3).toNat % 128 = 0 ∧ ¬slot8.slot.toNat < words small ∧
    ¬((1 : BitVec 3).toNat ≤ small.myLaunch.lw) ∧ noSlot.slot.toNat < words small := by
  unfold slotFits; and_intros <;> decide +kernel
/-- An empty word at word 1 of the frame; scratch up to its last line in `x6`, one byte past an alignment in `x8`. -/
def locals : State :=
  holds { core0 with ctxs := [(0, ctx0 { work0 regs0 with stores := [⟨0, 64 * u0, (wordBytes 3).map some, true⟩] })],
                     empty := [(8 * u0, true), (8 * u0 + 1, true)] }
theorem witness_LocalLoadsAndStores : locals.work.regs.on on = true ∧
    locals.fullIn locals.work 0 (wordAt locals 0 / 8) = true ∧ locals.fullIn locals.work 0 (wordAt locals 1 / 8) = false ∧
    511 < words locals ∧ ¬ 512 < words locals ∧ (localTo locals (ea locals 6 0x40) 64 64 false 0 0xfffc0) ∧
    localTo locals (ea locals 6 0x7f) 1 1 true 0 0xfffff ∧ localTrap locals (ea locals 8 0) 8 8 false = some ⟨.alignment, 0x41, 0⟩ ∧
    localTrap locals (ea locals 7 0) 8 8 true = some ⟨.scratchProtection, 0x100000, 0⟩ ∧
    anyOn locals ⟨2, false⟩ true ∧ ¬anyOn locals ⟨4, false⟩ true ∧ 504 % 8 = 0 ∧ 504 + 7 < words locals ∧
    laneTys.contains .s32 = true := by
  unfold localTo localTrap anyOn; and_intros <;> decide +kernel
theorem witness_VectorAccessesTrap : anyOn locals on true ∧ ¬(1 % 8 = 0 ∧ 1 + 7 < words locals) ∧ ¬(0x1f8 + 8 + 7 < words locals) ∧
    enabled locals on true 1 = true ∧ locals.fullIn locals.work 0 (wordAt locals (0 + 1) / 8) = false ∧
    (∀ n < 1, enabled locals on true n = true → locals.fullIn locals.work 0 (wordAt locals (0 + n) / 8) = true) ∧
    localTrap locals (ea locals 8 0) 64 64 false = some ⟨.alignment, 0x41, 0⟩ ∧
    localTrap locals (ea locals 7 0) 64 64 true = some ⟨.scratchProtection, 0x100000, 0⟩ := by
  unfold anyOn localTrap; and_intros <;> decide +kernel
/-- A word of a frame of class 3 and slots at both ends; indices at the bound and the skipped index 65535 in `v1`. -/
def split : State :=
  holds { core0 with ctxs := [(0, ctx0 (work0 { regs0 with
    x := [(1, 0x40), (2, 0x44), (3, 2 ^ 24), (4, 0xfff80), (5, 0x80)], v := [(1, 0x0009ffff), (2, 0x000a0009)] }))] }
theorem witness_SplitPhaseHeadsLeaveTheirRequest : split.work.regs.on on = true ∧ slotFits split noSlot ∧ slotFits split lastSlot ∧
    (wordForms .s64 p0 noSlot 2 split).length = 7 ∧ 511 + 1 ≤ words split ∧ 504 + 8 ≤ words split ∧ ¬505 + 8 ≤ words split ∧
    (X split 1).toNat % 64 = 0 ∧ (X split 2).toNat % 8 ≠ 0 ∧ (X split 2).toNat % Ty.width .s32 = 0 ∧
    (X split 3).toNat % 8 = 0 ∧ (X split 3).toNat ≤ 2 ^ 24 ∧
    (∀ i ∈ (List.range 2).map fun j => ((split.work.regs.rv 1).extractLsb' (16 * j) 16).toNat, i = 65535 ∨ i < 10) ∧
    (X split 1).toNat % 2 ^ (6 : BitVec 4).toNat = 0 ∧ localTo split (X split 4) (2 * 64) (min 64 64) true 0 0xfff80 ∧
    localTo split (X split 4) (2 * 64) (min 64 64) false 0 0xfff80 ∧
    (((List.range 2).map fun j => ((split.work.regs.rv 2).extractLsb' (16 * j) 16).toNat).find? fun i => i ≠ 65535 && 10 ≤ i) =
      some 10 := by
  unfold slotFits localTo; and_intros <;> decide +kernel
/-- Lengths and addresses that the copy forms refuse, and a range across the end of scratch. -/
def badCopies : State := headX [(1, 0x40), (2, 0x44), (3, 2 ^ 24 + 8), (4, 0xfffc0), (5, 12)]
theorem witness_SplitPhaseHeadsTrap : ¬slotFits small slot8 ∧ slotFits small noSlot ∧ ¬(8 : FWord).toNat < words small ∧
    (7 : FWord).toNat < words small ∧ (X badCopies 2).toNat % Ty.width .s64 ≠ 0 ∧ (X badCopies 2).toNat % 8 ≠ 0 ∧
    2 ^ 24 < (X badCopies 3).toNat ∧ (X badCopies 5).toNat % 8 ≠ 0 ∧ (X badCopies 1).toNat % 8 = 0 ∧
    (X badCopies 2).toNat % 2 ^ (6 : BitVec 4).toNat ≠ 0 ∧
    localTrap badCopies (X badCopies 2) (2 * 64) (min 64 64) true = some ⟨.alignment, 0x44, 0⟩ ∧
    localTrap badCopies (X badCopies 4) (2 * 64) (min 64 64) false = some ⟨.scratchProtection, 0xfffc0, 0⟩ ∧
    (((split.work.regs.rv 1).extractLsb' 0 16).toNat = 65535 ∧ ((split.work.regs.rv 1).extractLsb' 16 16).toNat < 10) := by
  unfold slotFits localTrap; and_intros <;> decide +kernel
/-- A valid queue of eight 8-byte entries at 0x4000 with one entry left, an empty one at 0x4040, and a full enqueue buffer. -/
def queues (n : Nat) : State :=
  holds { core0 with
    ctxs := [(0, ctx0 (work0 { x := [(1, 0x4000), (2, 0x4040), (3, 0xfffff)] }))],
    ni := { enqBuf := List.replicate n ⟨0, {}, []⟩ }
    scr := [(0x4004, 3), (0x4007, 0x80), (0x400c, 1), (0x4044, 3), (0x4047, 0x80)] }
theorem witness_FenceQueueAndStageHeads : (queues 0).work.regs.on on = true ∧ slotFits (queues 0) lastSlot ∧
    ((queues 15).core 0).ni.enqBuf.length + ((queues 15).core 0).ni.pendBuffered [] (queues 15).work.acts < 16 ∧
    ¬((queues 16).core 0).ni.enqBuf.length + ((queues 16).core 0).ni.pendBuffered [] (queues 16).work.acts < 16 ∧
    (queues 0).localOk 0 (queues 0).mySid (X (queues 0) 1) 64 true = some (0, 0x4000) ∧
    localBoth (queues 0) (X (queues 0) 1) 64 64 0 0x4000 ∧ localBoth (queues 0) (X (queues 0) 2) 64 64 0 0x4040 ∧
    ((queues 0).localOk 0 (queues 0).mySid 0xfffc0 64 true).isSome = true ∧
    (let s := { queues 0 with cores := [(0, { (queues 0).core 0 with win := [] })] }
     (X s 1).toNat % 64 = 0 ∧ (X s 1).toNat < 0x100000 ∧ s.localOk 0 s.mySid (X s 1) 64 true = none) ∧
    (let qd := queueOf fun n => (queues 0).loadWord (queues 0).work 0 (0x4000 + 8 * n)
     qd.valid = true ∧ qd.esz = 0 ∧ 511 + 1 ≤ words (queues 0) ∧ (queues 0).work.taken 0x4000 < qd.used) ∧
    (let qd := queueOf fun n => (queues 0).loadWord (queues 0).work 0 (0x4040 + 8 * n)
     qd.valid = true ∧ qd.esz = 0 ∧ qd.used ≤ (queues 0).work.taken 0x4040) ∧
    (X (queues 0) 3).toNat < 0x100000 ∧
    ((queues 0).core 0).grants (queues 0).mySid (X (queues 0) 3).toNat (min 96 (0x100000 - (X (queues 0) 3).toNat)) true true = true ∧
    (X (queues 15) 1).toNat % 64 = 0 ∧ (X (queues 0) 2).toNat % 64 = 0 ∧ (X (queues 0) 3).toNat % 64 ≠ 0 := by
  unfold slotFits localBoth; and_intros <;> decide +kernel
/-- `queues` with no window open. -/
def noWindow : State := { queues 0 with cores := [(0, { (queues 0).core 0 with win := [] })] }
theorem witness_QueueHeadsTrap : ¬slotFits small slot8 ∧ (X noWindow 1).toNat % 64 = 0 ∧ (∀ o, ¬localBoth noWindow (X noWindow 1) 64 64 0 o) ∧
    localBoth (queues 0) (X (queues 0) 1) 64 64 0 0x4000 ∧
    (queueOf fun n => (queues 0).loadWord (queues 0).work 0 (0x4000 + 8 * n)).esz ≠ (1 : BitVec 4).toNat := by
  refine ⟨by unfold slotFits; decide +kernel, by decide +kernel, fun o h => ?_, by unfold localBoth; decide +kernel, by decide +kernel⟩
  obtain ⟨-, h1, -, h2⟩ := h
  have h3 : noWindow.localAddr noWindow.cur.core (X noWindow 1) = some (0, 0x4000) := by decide +kernel
  rw [h3] at h1; cases h1
  exact absurd h2 (by decide +kernel)
/-- The state of a head whose launch is privileged or not, whose threadlet is a handler or not; format 4 in `x1`, a malformed
format in `x2`. -/
def system (priv handler : Bool) : State :=
  { holds { core0 with ctxs := [(0, { ctx0 (work0 { x := [(1, 4), (2, 7)] }) with handler := handler })] } with
    dist := { launches := [(1, { run1 with priv := priv })] } }
theorem witness_SystemHeadsReadAndWriteTheirRegisters : (system true false).work.regs.on on = true ∧
    (17 : BitVec 5).toNat ≤ 17 ∧ ((5 : BitVec 5).toNat ≤ 5) ∧ (8 ≤ (10 : BitVec 5).toNat ∧ (10 : BitVec 5).toNat ≤ 10) ∧
    (system true false).myLaunch.priv = true ∧ (system false false).myLaunch.priv = false ∧
    fmtMalformed (X (system true false) 1) = false ∧ fmtMalformed (X (system true false) 2) = true ∧
    fmtMalformed ((system true false).fmtOf 15) = false ∧
    fmtMalformed ((holds { core0 with fmt := [(15, 7)], ctxs := [(0, ctx0 (work0 {}))] }).fmtOf 15) = true ∧
    (system true false).debugged (system true false).me.lid = false ∧ (system true false).me.handler = false ∧
    (system false true).me.handler = true ∧ (system false true).work.ctl = .fall ∧
    (let s := { system false true with cores := [(0, { (system false true).core 0 with lines := [(2 ^ 27 + 4, fmaLine + BitVec.ofNat 512 32)] })] }
     s.me.handler = true ∧ s.work.ctl = .fall ∧ s.lineAt 0 1 4 = some (fmaLine + BitVec.ofNat 512 32) ∧ (lineHdr (fmaLine + BitVec.ofNat 512 32)).kind = 2 ∧
       s.lineAt 0 1 3 = none ∧ (s.core 0).frozen = false ∧ 4 < s.myLaunch.clen ∧ (0x80 : Word).toNat / 32 = 4 ∧ (0x80 : Word).toNat % 32 = 0) ∧
    ((system false true).recWord (system false true).work 3).extractLsb' 0 2 = 0 := by and_intros <;> decide +kernel
/-- Tiles at 0 in FP64 (format 0), FP32 (1), S8 (2), S8 with a list of eight (3), and a malformed format (4). -/
def tiles (v : Line64) : State :=
  holds { core0 with ctxs := [(0, ctx0 (work0 { v := [(1, v)] }))], fmt := [(1, 1), (2, 4), (3, 0x0c000004), (4, 7)] }
/-- The tile of format 3 fails its check: more escapes are counted than the list has places. -/
def badTile : State :=
  holds { core0 with ctxs := [(0, ctx0 (work0 {}))], fmt := [(3, 0x0c000004)], scr := [(1024 + 32, 9)] }
/-- Sixteen infinities: more than the list of format 3 takes. -/
def infs : Line64 := BitVec.ofNat 512 (((2 ^ 512 - 1) / (2 ^ 32 - 1)) * 0x7f800000)
def fmtAt (s : State) (n : Nat) : Fmt := fmtRead (s.fmtOf n)
def mergedAt (s : State) (n : Nat) : List Nat :=
  ((fmtAt s n).widen (s.loadBytes s.work 0 0 (fmtAt s n).size)).zipIdx.map fun p =>
    if 0 ≤ p.2 ∧ p.2 < 0 + 16 ∧ enabled s on false (p.2 - 0) = true then L s false 1 (p.2 - 0) else (toF32 p.1).1
theorem witness_TileLoadsAndStores : ¬anyOn (tiles 0) ⟨4, false⟩ true ∧ anyOn (tiles 0) on true ∧ anyOn (tiles 0) on false ∧
    fmtMalformed ((tiles 0).fmtOf 4) = true ∧ fmtMalformed ((tiles 0).fmtOf 3) = false ∧
    (startFits true 1016 ∧ startFits false 1008 ∧ ¬startFits false 1009) ∧
    localTo (tiles 0) 0 (fmtAt (tiles 0) 0).size 64 false 0 0 ∧ localBoth (tiles 0) 0 (fmtAt (tiles 0) 3).size 64 0 0 ∧
    (fmtAt (tiles 0) 0).plain = true ∧ (fmtAt (tiles 0) 1).plain = true ∧ (fmtAt (tiles 0) 2).plain = false ∧
    (fmtAt (tiles 0) 2).recordOk ((tiles 0).loadBytes (tiles 0).work 0 0 (fmtAt (tiles 0) 2).size) = true ∧
    (fmtAt badTile 3).recordOk (badTile.loadBytes badTile.work 0 0 (fmtAt badTile 3).size) = false ∧
    ((fmtAt (tiles 0) 2).quantise false (mergedAt (tiles 0) 2)).isSome ∧
    (fmtAt (tiles infs) 3).quantise false (mergedAt (tiles infs) 3) = none ∧
    localTrap (tiles 0) 0x40001 4096 64 false = some ⟨.alignment, 0x40001, 0⟩ ∧
    localTrap (tiles 0) 0xfff80 4096 64 false = some ⟨.scratchProtection, 0xfff80, 0⟩ ∧ (0x40001 : Word).toNat % 64 ≠ 0 ∧
    (∀ t o, ¬localBoth (tiles 0) 0x100000 4096 64 t o) := by
  unfold localTo localBoth anyOn startFits localTrap
  and_intros <;> first | decide +kernel | exact fun _ _ h => nomatch (show none = some _ from h.2.1)
/-- Views of zeros: both operands at 0, in the format that register 0 holds. -/
def views (fmt : Word) (x : Map Word) : State :=
  holds { core0 with ctxs := [(0, ctx0 (work0 { x := x }))], fmt := [(0, fmt)] }
/-- The first two checks on the two views at 0x20000, for a form. -/
def fits (s : State) (form : MForm) : Bool :=
  let ws := viewWords s 0 0x20000
  viewFits form ws (viewOf s ws) (form = .mmas) && viewFits form ws (viewOf s ws) false
/-- The request of a form in the state. -/
def asks (s : State) (form : MForm) (rows : List Nat) (chunks : Nat) : MReq :=
  { request s form 7 lastSlot with
    a := viewOf s (viewWords s 0 0x20000), b := viewOf s (viewWords s 0 0x20000), rows := rows,
    budget := if form = .mmas then List.replicate 32 0 else [], chunks := chunks, p := p0 }
def bf16Views : State := views 2 [(1, 0x20000), (2, 0x20000), (3, 2 ^ 36), (4, 0xffffffff)]
theorem witness_MultiplyHeadsLeaveTheirRequest :
    bf16Views.work.regs.on on = true ∧ (multiplies on 7 1 2 3 1 15 p0 lastSlot bf16Views).length = 7 ∧
    localTo bf16Views (X bf16Views 1) 32 32 false 0 0x20000 ∧ slotFits bf16Views lastSlot ∧
    fits bf16Views .mma = true ∧ fits (views 1 []) .mmaF32 = true ∧ fits (views 0 []) .mmaF64 = true ∧
    fits bf16Views .mmag = true ∧ fits bf16Views .mmas = true ∧ fits (views 1 []) .mscan = true ∧
    fits (views 0 []) .mma = false ∧ fits (views 7 []) .mmag = false ∧
    bf16Views.badOperand (asks bf16Views .mma [] 16).operands = none ∧
    (views 1 []).badOperand (asks (views 1 []) .mmaF32 [] 16).operands = none ∧
    (views 0 []).badOperand (asks (views 0 []) .mmaF64 [] 16).operands = none ∧
    bf16Views.badOperand (asks bf16Views .mmag (List.replicate 32 65534) 1).operands = none ∧
    bf16Views.badOperand (asks bf16Views .mmas [] 1).operands = none ∧
    bf16Views.badOperand (asks bf16Views .mscan [] 1).operands = none ∧
    (∀ n ∈ List.replicate 32 (0 : Byte), n.toNat ≤ 32) ∧ viewBound (viewWords bf16Views 0 0x20000) = 65535 ∧
    bitOf (viewOf bf16Views (viewWords bf16Views 0 0x20000)).fmt 26 = false ∧
    scanFits (.mscan on 7 1 2 3 p0 lastSlot) (X bf16Views 3) ∧ scanFits (.mscanSeg on 7 1 2 4 p0 lastSlot) (X bf16Views 4) := by
  unfold localTo slotFits scanFits; and_intros <;> decide +kernel
/-- Views at 0x20000, at 0x20040 with a base off a multiple of 64, at 0x20080 with three rows at most and its tiles past scratch, and
at 0x200c0 with row budgets at 0x30000, of which one is 33. -/
def badViews (fmt : Word) : State :=
  holds { core0 with ctxs := [(0, ctx0 (work0 { x := [(1, 0x20000), (2, 0x20040), (3, 0x20080), (4, 0x20001), (5, 1), (6, 0x100000), (7, 0x200c0)] }))],
                     fmt := [(0, fmt)],
                     scr := [(0x20040, 1), (0x20082, 0x10), (0x20096, 3), (0x200da, 3), (0x30000, 33)] }
def viewAt (s : State) (o : Nat) : List Word := viewWords s 0 o
theorem witness_MultipliesTrap :
    localTrap (badViews 2) (X (badViews 2) 4) 32 32 false = some ⟨.alignment, 0x20001, 0⟩ ∧
    localTrap (badViews 2) (X (badViews 2) 6) 32 32 false = some ⟨.scratchProtection, 0x100000, 0⟩ ∧
    localTo (badViews 2) (X (badViews 2) 1) 32 32 false 0 0x20000 ∧
    (viewFits .mma (viewAt (badViews 2) 0x20040) (viewOf (badViews 2) (viewAt (badViews 2) 0x20040)) false = false ∧
      viewFits .mma (viewAt (badViews 2) 0x20000) (viewOf (badViews 2) (viewAt (badViews 2) 0x20000)) false = true) ∧
    (viewFits .mmas (viewAt (badViews 2) 0x200c0) (viewOf (badViews 2) (viewAt (badViews 2) 0x200c0)) true = true ∧
      (viewOf (badViews 2) (viewAt (badViews 2) 0x200c0)).aux = 0x30000 ∧ (badViews 2).loadBytes (badViews 2).work 0 0x30000 1 = [33]) ∧
    (viewFits .mmag (viewAt (badViews 2) 0x20080) (viewOf (badViews 2) (viewAt (badViews 2) 0x20080)) false = true ∧
      viewBound (viewAt (badViews 2) 0x20080) = 3 ∧ ([2, 65535, 3].find? fun r => r ≠ 65535 && viewBound (viewAt (badViews 2) 0x20080) ≤ r) = some 3) ∧
    ¬scanFits (.mscan on 7 1 2 5 p0 lastSlot) (X (badViews 2) 5) ∧
    ((badViews 2).badOperand { request (badViews 2) .mma 7 lastSlot with
        a := viewOf (badViews 2) (viewAt (badViews 2) 0x20080), b := viewOf (badViews 2) (viewAt (badViews 2) 0x20000), chunks := 1, p := p0 }.operands).isSome = true ∧
    ¬slotFits small slot8 := by
  unfold localTrap localTo scanFits slotFits; and_intros <;> decide +kernel
/-- A core with an earlier request in its queue, and one without; accumulator 1 holds nine large numbers. -/
def accs (q : List MReq) : State :=
  holds { core0 with ctxs := [(0, ctx0 (work0 { x := [(1, 0), (2, 0xff000)] }))]
                     mq := q
                     fmt := [(1, 1), (2, 4), (3, 0x0c000004)]
                     acc := (List.range 9).map fun k => (4096 + 4 * k + 3, 0x7f) }
def accVals (n : Nat) : List Nat := (((accs []).core 0).accElems n false).toList
theorem witness_AccumulatorHeadsLeaveTheirAction : (accs []).work.regs.on on = true ∧ slotFits (accs []) lastSlot ∧
    localTo (accs []) (X (accs []) 2) ((31 + 1) * 128) 64 false 0 0xff000 ∧
    localTo (accs []) (X (accs []) 1) ((15 + 1) * 256) 64 true 0 0 ∧
    ((accs [{ form := .accZero }]).core 0).mq ≠ [] ∧ ((accs []).core 0).mq = [] ∧ fmtMalformed ((accs []).fmtOf 3) = false ∧
    (fmtAt (accs []) 1).kind = .f32 ∧ (fmtAt (accs []) 2).kind ≠ .f32 ∧ (fmtAt (accs []) 2).kind ≠ .f64 ∧
    localTo (accs []) (X (accs []) 1) (fmtAt (accs []) 3).size 64 true 0 0 ∧
    ((fmtAt (accs []) 2).quantise false (accVals 0)).isSome ∧ (fmtAt (accs []) 3).quantise false (accVals 1) = none := by
  unfold localTo slotFits; and_intros <;> decide +kernel
/-- Requests at the unit: one that runs, and a multiply whose operand record fails its check. -/
def unit0 (form : MForm) : State := accs [{ form := form, d := 7, s := 1 }]
def badMma : State :=
  holds { core0 with mq := [{ form := .mma, a := { fmt := 0x0c000004 }, b := { fmt := 0x0c000004 }, chunks := 1, lid := 1 }],
                     scr := [(1024 + 32, 9)] }
def runs (s : State) : Except Word State := mRun (s.modCore 0 fun x => { x with mq := [] }) 0 ((s.core 0).mq.headD { form := .mma })
def done0 (slot : Option Nat) : State :=
  holds { core0 with mdone := [{ form := .accZero, fp := fp0, sid := 5, slot := slot }] }
theorem witness_MatrixUnitCarriesOutRequests : ((unit0 .accZero).core 0).mq = [{ form := .accZero, d := 7, s := 1 }] ∧
    ((unit0 .accRed).core 0).mq = [{ form := .accRed, d := 7, s := 1 }] ∧
    (runs (unit0 .accZero)).toOption.isSome = true ∧ (runs badMma).toOption.isSome = false ∧ badMma.hasLaunch 1 = true ∧
    ((done0 none).core 0).mdone = [{ form := .accZero, fp := fp0, sid := 5 }] ∧
    ((done0 (some 511)).core 0).mdone = [{ form := .accZero, fp := fp0, sid := 5, slot := some 511 }] ∧
    (let s1 := (done0 (some 511)).modCore 0 fun x => { x with mdone := [] }
     fpMalformed (s1.core 0) fp0 = false ∧ (s1.core 0).lids.contains ((s1.core 0).dir (fpUnit fp0)).lid = true ∧
       (s1.launch ((s1.core 0).dir (fpUnit fp0)).lid).sid = 5 ∧ ((s1.core 0).dir (fpUnit fp0)).alloc = true ∧
       ((s1.core 0).dir (fpUnit fp0)).gen = fpGen fp0 ∧ ((s1.core 0).dir (fpUnit fp0)).reserved = false ∧
       (∀ o ∈ (s1.core 0).ni.outs, o.id ∉ ([] : List Nat))) ∧
    (let m : MReq := { form := .accZero, fp := fp0, sid := 5, slot := some 511, wait := [4] }
     let s := holds { core0 with mdone := [m], ni := { outs := [{ id := 4, thr := 9, lid := 1, addr := 0, isWrite := true }] } }
     (s.core 0).mdone = [m] ∧
       ∃ o ∈ (((s.modCore 0 fun x => { x with mdone := [] }).settle 0 m.id).core 0).ni.outs, o.id ∈ m.wait) := by
  and_intros <;> decide +kernel
/-- A state whose unit holds this request. -/
def unitM (m : MReq) : State := holds { core0 with mq := [m], scr := [(0x20040, 3)] }
/-- A multiply of one tile pair at 0x20000 in a format, its result in accumulator 7. -/
def mulOf (form : MForm) (fmt : Word) : MReq :=
  { form := form, d := 7, a := { base := 0x20000, fmt := fmt }, b := { base := 0x20000, fmt := fmt }, chunks := 1,
    rows := if form = .mmag then 31 :: List.replicate 31 0xffff else [], budget := if form = .mmas then 1 :: List.replicate 31 0 else [],
    t := 0x1f00000000 }
def moveOf (form : MForm) (ty : Ty) : MReq := { form := form, d := 7, addr := 0x20000, n := 16, ty := ty }
theorem witness_MatrixRequestsLeaveTheirValues :
    (∀ form fmt, ((unitM (mulOf form fmt)).core 0).mq = [mulOf form fmt]) ∧ (mulOf .mma 2).d < 8 ∧
    (allFit (unitM (mulOf .mma 2)) 0 (mulOf .mma 2) ∧ allFit (unitM (mulOf .mmaF32 1)) 0 (mulOf .mmaF32 1) ∧
      allFit (unitM (mulOf .mmag 2)) 0 (mulOf .mmag 2) ∧ (mulOf .mmag 2).rows.length = 32 ∧
      allFit (unitM (mulOf .mmas 2)) 0 (mulOf .mmas 2) ∧ (mulOf .mmas 2).budget.length = 32 ∧ ∀ n ∈ (mulOf .mmas 2).budget, n.toNat ≤ 32) ∧
    (∀ q ∈ (mulOf .mmaF64 0).tiles, ((unitM (mulOf .mmaF64 0)).localAddr 0 q.1).isSome) ∧
    (let m := mulOf .mscan 2
     (∀ q ∈ m.tiles, ((unitM m).localAddr 0 q.1).isSome) ∧ recordFits (unitM m) 0 m.a.fmt (m.a.tile 0 0) ∧
       recordFits (unitM m) 0 m.b.fmt (m.b.tile 0 0)) ∧
    (∀ form ∈ [MForm.accLd, .accSt], ∀ ty ∈ [Ty.f64, .f32, .bf16], let m := moveOf form ty
     ((unitM m).core 0).mq = [m] ∧ (unitM m).localAddr 0 m.addr = some (0, 0x20000) ∧ m.n * 256 ≤ 4096) ∧
    (∀ m, noneDeferred (unitM m)) := by
  unfold allFit recordFits; and_intros <;> first | exact fun _ => holds_noneDeferred _ rfl | exact fun _ _ => rfl | decide +kernel
/-! Loader and storer cores. -/

/-- The loader core (16) or the storer core (17) of core 0 in its turn. -/
def ls (unit : Nat) (l : LsCore) (x : Core) : State :=
  { holds (if unit = 17 then { x with storer := l } else { x with loader := l }) with cur := ⟨0, unit⟩ }
/-- Registers of a loader core: channel numbers, a descriptor at the end of the data store, a ring, and addresses. -/
def lsRegs : Map Word :=
  [(1, 3), (2, 4), (3, 0x5fe0), (4, 0x5fe8), (5, 0x8000), (6, 8), (7, 0xffff8), (8, 0x100000), (9, 1 + 5 * 2 ^ 17), (10, fp0), (11, 0x3ffd)]
/-- An idle loader core: its data store ends in a transfer of 64 bytes from 0x1000 to 0x2000. -/
def lsCore : LsCore := { x := lsRegs, dmem := [(0x1fe1, 0x10), (0x1fe9, 0x20), (0x1ff0, 0x40)], running := true }
/-- A ring at 0x8000: one slot of 64 bytes at 0, inbound or outbound, with a tag. -/
def ringAt (out : Bool) (tag : Byte) : Map Byte := (if out then [(0x8007, 0x80)] else []) ++ [(0x8008, 0x40), (0x8020, tag)]
def lsState (u : Nat) (busy : List Nat) (out : Bool) (tag : Byte) : State :=
  ls u lsCore { core0 with chans := busy.map (fun k => (k, { busy := true, count := 7, x := { len := 64 } })), scr := ringAt out tag }
/-- A block under the debugger, which has armed the stop at `brk`; with a location of class 3 to park in, and without one. -/
def armed (free : Map (List Nat)) : State :=
  { holds { core0 with ctxs := [(0, ctx0 (work0 regs0))], fr := { core0.fr with free := free } } with
    dist := { launches := [(1, run1)], dbgCtl := 0xf800000000000001 } }
theorem witness_ArmedBreaks : (armed [(3, [0x3040])]).debugged (armed [(3, [0x3040])]).me.lid = true ∧
    bitOf (armed [(3, [0x3040])]).dist.dbgCtl 62 = true ∧
    (((armed [(3, [0x3040])]).discard 0 0).park 0 0 (armed [(3, [0x3040])]).me.regs (armed [(3, [0x3040])]).me.pos true false).isSome = true ∧
    (((armed []).discard 0 0).park 0 0 (armed []).me.regs (armed []).me.pos true false) = none ∧
    (let s : State := { ls 16 lsCore core0 with dist := { launches := [(1, run1)], dbgCtl := 0xf800000000000001 } }
     s.debugged (s.env 0).lid = true ∧ bitOf s.dist.dbgCtl 59 = true) := by and_intros <;> decide +kernel
/-- An instruction word fetched in 32 bits, and one compressed. -/
theorem witness_BaseInstructionsOfTheLoader :
    (rvOps.length = 18 ∧ rvOpWs.length = 10 ∧ rvLoads.length = 7 ∧ rvStores.length = 4) ∧
    rvcExpand 0x0001 = some (.imm .addi 0 0 0) ∧
    (let l := lsCore
     ((l.rx 0).toNat % 8 = 0 ∧ (l.rx 0).toNat + 8 ≤ 0x4000) ∧
     ((l.rx 4).toNat % 8 = 0 ∧ 0x4000 ≤ (l.rx 4).toNat ∧ (l.rx 4).toNat + 24 ≤ 0x6000) ∧ (l.rx 11).toNat % 4 ≠ 0 ∧
     0x6000 < (l.rx 7).toNat + 1 ∧ (l.rx 0).toNat < 0x4000) ∧
    (lsState 16 [] false 0).debugged ((lsState 16 [] false 0).env 0).lid = false := by and_intros <;> decide +kernel
theorem witness_CustomFormsOfTheLoader : lsQuiet (lsState 16 [3] false 0) 0 false ∧ lsQuiet (lsState 17 [4] true 2) 0 true ∧
    3 ∈ lsChans false ∧ (lsCore.rx 1).toNat = 3 ∧ (lsCore.rx 2).toNat ∉ lsChans false ∧ 4 ∈ lsChans true ∧
    (((lsState 16 [] false 0).core 0).chan 3).busy = false ∧
    (((lsState 16 [3] false 0).core 0).chan 3).busy = true ∧ (((lsState 16 [3] false 0).core 0).chan 3).count.toNat < (lsCore.rx 6).toNat ∧
    ((lsCore.rx 9).extractLsb' 24 40 = 0 ∧ (lsCore.rx 9).extractLsb' 0 8 ≠ 0 ∧ scopeOfCode ((lsCore.rx 9).extractLsb' 17 3) = some .sys) ∧
    (17 : BitVec 12).toNat < 18 ∧ lsCore.faulted = false ∧
    ringFits (lsState 16 [] false 0) 0 (lsCore.rx 5) (lsCore.rx 0) ∧ ringFits (lsState 17 [] true 2) 0 (lsCore.rx 5) (lsCore.rx 0) ∧
    (lsState 16 [] false 0).slotTag 0 0x8000 0 = (acquires (lsState 16 [] false 0) 0 0x8000).1 ∧
    (lsState 17 [] true 2).slotTag 0 0x8000 0 = (acquires (lsState 17 [] true 2) 0 0x8000).1 ∧
    (lsState 16 [] false 3).slotTag 0 0x8000 0 ≠ (acquires (lsState 16 [] false 3) 0 0x8000).1 ∧
    ¬ringFits (lsState 16 [] false 0) 0 (lsCore.rx 5) (lsCore.rx 1) ∧ (2 : BitVec 12).toNat < 3 ∧
    ((lsCore.rx 7).toNat % 8 = 0 ∧ (lsCore.rx 7).toNat < 0x100000) ∧
    ((lsState 16 [] false 0).core 0).permits ((lsState 16 [] false 0).env 0).sid (lsCore.rx 7).toNat 8 false = true ∧
    ((lsState 16 [] false 0).core 0).permits ((lsState 16 [] false 0).env 0).sid (lsCore.rx 7).toNat 8 true = true ∧
    0x100000 ≤ (lsCore.rx 8).toNat ∧ (lsCore.rx 1).toNat % 8 ≠ 0 := by
  unfold lsQuiet ringFits; and_intros <;> decide +kernel
/-- A form that waits at the loader core: its word. -/
def waits (i : Instr) (busy : List Nat) : State :=
  ls 16 { lsCore with waiting := rvWordOf i } { core0 with
    chans := busy.map fun k => (k, { busy := true, count := 7, x := { len := 64 } })
    scr := ringAt false 0 }
def sound (s : State) (st : Bool) : Bool :=
  let ws := (List.range 4).map fun j => bytesWord ((List.range 8).map fun k => mget 0 (s.ls 0 st).dmem (0x5fe0 - 0x4000 + 8 * j + k))
  s.xferBad 0 ws 0 = none
theorem witness_ChannelsStartAndWaitingFormsResume : lsQuiet (lsState 16 [0, 1, 2] false 0) 0 false ∧
    ((lsCore.rx 3).toNat % 8 = 0 ∧ 0x4000 ≤ (lsCore.rx 3).toNat ∧ (lsCore.rx 3).toNat + 32 ≤ 0x6000) ∧
    sound (lsState 16 [0, 1, 2] false 0) false = true ∧
    (∀ v ∈ lsChans false, v < 3 → (((lsState 16 [0, 1, 2] false 0).core 0).chan v).busy = true) ∧
    (((lsState 16 [0, 1, 2] false 0).core 0).chan 3).busy = false ∧ ((lsState 16 [0, 1, 2] false 0).core 0).slotCnts.length < 16 ∧
    (∀ v ∈ lsChans false, (((lsState 16 [0, 1, 2, 3] false 0).core 0).chan v).busy = true) ∧
    (lsCore.rx 1).toNat % 8 ≠ 0 ∧ 0x6000 < (lsCore.rx 4).toNat + 32 ∧
    ((waits (.cpWait 20 1 0) [3]).ls 0 false).running = true ∧ ((waits (.cpWait 20 1 0) [3]).core 0).stopped = false ∧
    (∃ w, ((waits (.cpWait 20 1 0) [3]).ls 0 false).waiting = some w ∧ decodeRv32 w = .ok (.cpWait 20 1 0)) ∧
    (∃ w, ((waits (.stgAcq 20 5 0) []).ls 0 false).waiting = some w ∧ decodeRv32 w = .ok (.stgAcq 20 5 0)) ∧
    (∃ w, ((waits (.cpGo 20 3) [0]).ls 0 false).waiting = some w ∧ decodeRv32 w = .ok (.cpGo 20 3)) ∧
    lsQuiet (waits (.cpWait 20 1 0) [3]) 0 false ∧ (lsCore.rx 0).toNat ≤ (((waits (.cpWait 20 1 0) [3]).core 0).chan 3).count.toNat ∧
    ringFits (waits (.stgAcq 20 5 0) []) 0 (lsCore.rx 5) 0 ∧ (waits (.stgAcq 20 5 0) []).slotTag 0 0x8000 0 = 0 := by
  unfold lsQuiet ringFits; and_intros <;> first | exact ⟨_, rfl, rfl⟩ | decide +kernel
/-- Channel 7 alone is busy: its transfer of 100 bytes has issued 60, from address 0 of the second core to 0x1004 of the first. -/
def beatChan : Chan :=
  { busy := true, x := { src := baseOf 0 0, dst := baseOf 0 0 + 0x1004, len := 100, issued := 60, count := 60 } }
def beats : State := holds { core0 with chans := [(7, beatChan)] }
/-- Channel 7 writes an FP32 tile from a record of sixteen-bit numbers; 4,000 of the tile's 4,096 bytes have been issued. -/
def convChan : Chan :=
  { beatChan with x := { beatChan.x with
      dst := baseOf 0 0, len := 4096, issued := 4000, count := 0, conv := 1, fmt := 2
      pieces := [{ id := 3, src := baseOf 0 0, dst := baseOf 0 0, dLen := 4096, need := 2048, sLen := 2048, sent := 4000, left := 4096 }] } }
def convBeats : State := { holds { core0 with chans := [(7, convChan)] } with nextId := 3 }
def acked (issued : Nat) (extra : List Piece) : State :=
  holds { core0 with
    chans := [(7, { beatChan with x := { beatChan.x with
      count := 60, issued := issued, pieces := [{ id := 3, dLen := 40, need := 40, sLen := 40, left := 40, sent := 40, beats := [(0, 9)] }] ++ extra } })]
    ni := { outs := [{ id := 9, thr := 0, lid := 1, addr := 0, isWrite := true, beat := true, len := 40 }] }
    inq := [{ body := .ack (.engWrite 7 3 0 40) none }] }
theorem witness_BeatsIssueAndCount : (beats.core 0).stopped = false ∧ (beats.core 0).copyQ = [] ∧
    (∀ v < 8, ((beats.core 0).chan v).busy = true ↔ v = 7) ∧ beatChan.x.stopped = false ∧ beatChan.x.issued < beatChan.x.len ∧
    (∀ q ∈ beatChan.x.pieces, q.dLen ≤ q.sent) ∧ (∀ q ∈ convChan.x.pieces, q.id ≤ convBeats.nextId) ∧
    ((∀ v < 8, ((convBeats.core 0).chan v).busy = true ↔ v = 7) ∧ convChan.x.conv ≠ 0 ∧ convChan.x.issued < convChan.x.len ∧
      ∃ q, convChan.x.pieces.find? (fun p => p.sent < p.dLen) = some q ∧ q.sLen = convChan.x.unitLens.1 ∧
        ∀ k < q.sLen, convBeats.badAddr (q.src + BitVec.ofNat 64 k) = false) ∧
    beatChan.x.conv = 0 ∧ beatChan.x.srcEp = false ∧ beatChan.x.dstEp = false ∧ beatChan.x.ring = none ∧
    (∀ k < 40, beats.badAddr (beatChan.x.src + BitVec.ofNat 64 60 + BitVec.ofNat 64 k) = false) ∧
    min (64 - (beatChan.x.dst.toNat + beatChan.x.issued) % 64) (beatChan.x.len - beatChan.x.issued) = 40 ∧
    (∀ k ∈ [acked 100 [], acked 92 [], acked 100 [{ id := 4, dLen := 8, need := 8, sLen := 8, left := 8 }]],
      (k.core 0).first isEngReply = some ({ body := .ack (.engWrite 7 3 0 40) none }, []) ∧ (((k.core 0).chan 7).x.ring = none)) ∧
    (let x := (((acked 100 []).core 0).chan 7).x
     x.len ≤ x.issued ∧ x.pieces.map (fun k => (k.id, k.left, k.beats)) = [(3, 40, [(0, 9)])] ∧ ((acked 100 []).core 0).ni.outs.map (·.id) = [9]) ∧
    (let x := (((acked 92 []).core 0).chan 7).x
     x.stopped = false ∧ x.issued < x.len) ∧
    (∃ k ∈ (((acked 100 [{ id := 4, dLen := 8, need := 8, sLen := 8, left := 8 }]).core 0).chan 7).x.pieces, k.id ≠ 3) ∧
    (∃ k ∈ (((acked 100 []).core 0).chan 7).x.pieces, k.id = 3) ∧
    (let s := holds { core0 with inq := [{ body := .ack (.engWrite 7 3 0 40) none }], chans := [(7, beatChan)] }
     (s.core 0).first isEngReply = some ({ body := .ack (.engWrite 7 3 0 40) none }, []) ∧ ∀ k ∈ ((s.core 0).chan 7).x.pieces, k.id ≠ 3) := by
  and_intros <;> first | exact ⟨_, rfl, by decide +kernel⟩ | decide +kernel

/-- Channels 2 and 7 are busy and the compute queue holds two copies, the first with every beat issued; the turn stands at unit e. -/
def shared (e : Nat) : State :=
  holds { core0 with
    chans := [(2, beatChan), (7, beatChan)], engPtr := e
    copyQ := [{ beatChan.x with id := 5, issued := 100 }, { beatChan.x with id := 6, issued := 0 }] }
theorem witness_UnitsTakeTurns : ∀ p ∈ [(3, 7), (8, 8), (0, 2)], let s := shared p.1
    let x := s.core 0
    let left := fun (t : Xfer) => !t.stopped && t.issued < t.len
    let ready := fun j => if j < 8 then (x.chan j).busy else x.copyQ.any left
    let size := fun (t : Xfer) => min (64 - (t.dst.toNat + t.issued) % 64) (t.len - t.issued)
    p.2 < 9 ∧ x.engPtr = p.1 ∧ x.stopped = false ∧ (∀ v < 8, (x.chan v).busy = true → left (x.chan v).x = true) ∧ ready p.2 = true ∧
      (∀ j < 9, ready j = true → (p.2 + 9 - p.1) % 9 ≤ (j + 9 - p.1) % 9) ∧ (x.copyQ.map (·.id)).Nodup ∧
      x.copyQ.find? left = some { beatChan.x with id := 6, issued := 0 } ∧
      ∀ t ∈ [beatChan.x, { beatChan.x with id := 6, issued := 0 }], t.conv = 0 ∧ t.srcEp = false ∧ t.dstEp = false ∧ t.ring = none ∧
        (∀ q ∈ t.pieces, q.dLen ≤ q.sent) ∧ ∀ j < size t, s.badAddr (t.src + BitVec.ofNat 64 t.issued + BitVec.ofNat 64 j) = false := by
  decide +kernel
/-! Blocks, tokens and traps. -/

/-- A line whose one head has major opcode 0x7f, which no instruction has. -/
def badLine : Line64 := oneHeadLine [0xff00, 0, 0]
/-- A context between blocks at line 15, the last, or at another; the core holds one line. -/
def between (line n : Nat) (img : Line64) : State :=
  holds { core0 with
    ctxs := [(0, { ctx0 {} with pos := BitVec.ofNat 32 (32 * line) })]
    lines := [(2 ^ 27 + n, img)] }
theorem witness_BlocksBeginAndFetchTheirLine :
    (let s := between 15 15 fmaLine
     (s.ctx 0 0).bound = true ∧ (s.ctx 0 0).work.active = false ∧ (s.launch 1).phase ≠ .ending ∧ (s.core 0).park = false ∧
       noDebugger s ∧ posLine (s.ctx 0 0) < (s.launch 1).clen ∧
       loopsOk (s.ctx 0 0).regs.depth.toNat (s.ctx 0 0).regs.l0 (s.ctx 0 0).regs.l1 = true ∧
       s.lineAt 0 1 15 = some fmaLine ∧ lineOk fmaLine = true ∧ posHead (s.ctx 0 0) < (lineHdr fmaLine).h ∧
       decodeTrap (s.launch 1).priv (lineDecode fmaLine) 0 = none ∧ (lineHdr fmaLine).kind ≠ 1) ∧
    (between 15 15 0).lineAt 0 1 15 = some 0 ∧ lineOk 0 = false ∧
    (let s := between 15 15 fmaLine
     (lineHdr fmaLine).h ≤ posHead { s.ctx 0 0 with pos := 32 * 15 + 1 } ∧
       posLine { s.ctx 0 0 with pos := 32 * 15 + 1 } = 15 ∧ loopsOk 3 {} {} = false) ∧
    lineOk badLine = true ∧ 0 < (lineHdr badLine).h ∧ decodeTrap false (lineDecode badLine) 0 = some (0, .illegal) ∧
    (between 15 14 fmaLine).lineAt 0 1 15 = none ∧ (run1.clen ≤ posLine ((between 16 15 fmaLine).ctx 0 0)) ∧
    (let s := holds { core0 with inq := [{ body := .data (lineBytes fmaLine) (.line 1 15) }] }
     (s.core 0).first isLineReply = some ({ body := .data (lineBytes fmaLine) (.line 1 15) }, []) ∧
       (s.core 0).lids.contains 1 = true) := by
  unfold noDebugger; and_intros <;> decide +kernel
/-- Line 15 as a line of a loop body and as one where a threadlet resumes. -/
def kindLine (kind : Nat) : Line64 := fmaLine + BitVec.ofNat 512 (16 * kind)
/-- A context between blocks at line 15 that still owes a check of its position. -/
def owing (o : Owed) (img : Line64) : State :=
  holds { core0 with ctxs := [(0, { ctx0 {} with pos := 32 * 15, owed := o })], lines := [(2 ^ 27 + 15, img)] }
theorem witness_BlocksCheckTheirEntry : (lineHdr (kindLine 1)).kind = 1 ∧ (lineHdr (kindLine 2)).kind = 2 ∧
    lineOk (kindLine 1) = true ∧ lineOk (kindLine 2) = true ∧ decodeTrap false (lineDecode (kindLine 1)) 0 = none ∧
    decodeTrap false (lineDecode (kindLine 2)) 0 = none ∧ ((owing .no (kindLine 1)).ctx 0 0).regs.depth = 0 ∧
    (∀ o ∈ [Owed.no, .transfer, .resume], let s := owing o fmaLine
      (s.ctx 0 0).bound = true ∧ (s.ctx 0 0).work.active = false ∧ posLine (s.ctx 0 0) = 15 ∧ s.lineAt 0 1 15 = some fmaLine ∧
        posHead (s.ctx 0 0) < (lineHdr fmaLine).h ∧
        loopsOk (s.ctx 0 0).regs.depth.toNat (s.ctx 0 0).regs.l0 (s.ctx 0 0).regs.l1 = true ∧ (s.ctx 0 0).owed = o) ∧
    (enterLine 15 (lineHdr fmaLine).kind ((owing .transfer fmaLine).ctx 0 0).regs.loops).isSome = true ∧
    (enterLine 15 (lineHdr (kindLine 1)).kind ((owing .transfer (kindLine 1)).ctx 0 0).regs.loops) = none ∧
    (lineHdr fmaLine).kind ≠ 2 ∧
    (let x := ({ regs := loopRegs 1 } : Ctx)
     x.regs.l0.first.toNat ≤ 6 ∧ 6 ≤ x.regs.l0.last.toNat ∧ ¬(15 ≤ x.regs.l0.last.toNat)) := by
  and_intros <;> decide +kernel
/-- A block at line 3 with one store; the core holds the line after it. -/
def commits (depth : BitVec 2) (ctl : Ctl) (acts : List (Nat × Act)) : State :=
  holds { core0 with
    ctxs := [(0, ctx0 { work0 { loopRegs depth with l0 := ⟨2, 3, 9⟩, l1 := ⟨3, 3, 2⟩ } with
      ctl := ctl
      acts := acts
      stores := if acts = [] then [⟨0, 0xfffff, [some 7], false⟩] else [] })]
    lines := [(2 ^ 27 + 4, fmaLine)] }
theorem commits_noneDeferred (d : BitVec 2) (t : Ctl) (a : List (Nat × Act)) : noneDeferred (commits d t a) :=
  holds_noneDeferred _ rfl
theorem witness_BlocksCommitTheirWorkingCopy :
    (let s := commits 0 .fall []
     (s.ctx 0 0).bound = true ∧ (s.ctx 0 0).work.active = true ∧ (s.ctx 0 0).work.acts = [] ∧ (s.ctx 0 0).work.seen = [] ∧
       (s.ctx 0 0).work.ctl = .fall ∧ (s.core 0).park = false ∧ noDebugger s ∧ (s.core 0).copyQ.length ≤ 8 ∧
       (s.core 0).mq.length ≤ 8 ∧ (s.core 0).ni.enqBuf.length ≤ 16 ∧ (s.ctx 0 0).work.regs.depth = 0 ∧ 4 < (s.launch 1).clen ∧ s.lineAt 0 1 4 = some fmaLine ∧
       (lineHdr fmaLine).kind ≠ 1) ∧ noneDeferred (commits 0 .fall []) ∧
    (let r := ((commits 1 .fall []).ctx 0 0).work.regs
     r.depth = 1 ∧ r.l0.last.toNat = 3 ∧ 1 < r.l0.rem.toNat ∧ r.l0.first.toNat < run1.clen) ∧
    (let r := ((commits 2 .fall []).ctx 0 0).work.regs
     r.depth = 2 ∧ r.l1.last.toNat = 3 ∧ 1 < r.l1.rem.toNat ∧ r.l1.first.toNat < run1.clen) := by
  unfold noDebugger; and_intros <;> first | exact commits_noneDeferred _ _ _ | decide +kernel
def getAct : List (Nat × Act) := [(0, .get (baseOf 0 0 + 0xffff8) 511 .s64 p0 noSlot)]
/-- Context 0 is taken; two tokens of class 1 are queued, of which the first has waited its A-cycle and 4,096 more. -/
def binds (now : Nat) (kind : TokKind) : State :=
  { holds { core0 with ctxs := [(0, ctx0 {})], ready := [(1, [{ fp := fp0, pos := 0x80, since := 5, kind := kind }, { fp := fp0, since := 6 }])] }
    with acyc := now }
theorem witness_TokensBindAndThreadletsEnd :
    (let s := commits 0 .endT getAct
     (s.ctx 0 0).bound = true ∧ (s.ctx 0 0).handler = false ∧ (s.ctx 0 0).work.active = true ∧ (s.ctx 0 0).work.stores = [] ∧
       (s.ctx 0 0).work.ctl = .endT ∧ (s.ctx 0 0).work.acts = getAct ∧ (s.ctx 0 0).work.seen = [] ∧
       s.badAddr (baseOf 0 0 + 0xffff8) = false ∧ (s.core 0).copyQ.length ≤ 8 ∧ (s.core 0).mq.length ≤ 8 ∧ (s.core 0).ni.enqBuf.length ≤ 16) ∧
    noneDeferred (commits 0 .endT getAct) ∧
    (let s := binds 6 .plain
     (s.core 0).stopped = false ∧ (s.core 0).due = 0 ∧ (s.core 0).bindAt ≠ some s.acyc ∧ (s.ctx 0 1).bound = false ∧ (∀ j < 1, (s.ctx 0 j).bound = true) ∧
       mget [] (s.core 0).ready 1 = [{ fp := fp0, pos := 0x80, since := 5 }, { fp := fp0, since := 6 }] ∧ 5 < s.acyc ∧
       (∀ q < 4, 1 < q → mget [] (s.core 0).ready q = []) ∧
       (s.launch ((s.core 0).dir (fpUnit fp0)).lid).phase ≠ .ending) ∧
    (mget [] ((binds 6 .handler).core 0).ready 1).map (·.kind) = [.handler, .plain] ∧
    (holds { core0 with stopped := true }).core 0 = { core0 with stopped := true } ∧ ((holds { core0 with due := 1 }).core 0).due ≠ 0 ∧
    ((holds { core0 with bindAt := some 0 }).core 0).bindAt = some (holds core0).acyc ∧
    ((mget [] ((binds 4101 .plain).core 0).ready 1).filter fun y => y.since + 4096 ≤ 4101) = [{ fp := fp0, pos := 0x80, since := 5 }] := by
  and_intros <;> first | exact commits_noneDeferred _ _ _ | decide +kernel
/-- A block of a launch with the default frames, with one class 3 frame on the free list above the threadlet's own. -/
def trapping (w : Work) (handler : Bool) : State :=
  holds { core0 with
    ctxs := [(0, { ctx0 w with handler := handler })]
    fr := { core0.fr with free := [(3, [u0 + 64])], dir := core0.fr.dir ++ [(u0 + 64, { cls := 3, gen := 0xff })] } }
theorem witness_TrapsLeaveTheirRecordAndResume :
    (let s := trapping (work0 regs0) false
     s.work.regs.on on = true ∧ s.work.acts = [] ∧ s.me.handler = false ∧ (s.env 0).counts.getD 3 0 ≠ 0 ∧ noneDeferred s ∧
       mget [] (s.core 0).fr.free 3 = [u0 + 64] ∧ ((s.core 0).dir (u0 + 64)).cls = 3 ∧ ((s.core 0).dir (u0 + 64)).alloc = false ∧
       ((s.core 0).dir (u0 + 64)).reserved = false ∧
       (s.core 0).tokens.length < 256 ∧ noDebugger s ∧ fpUnit (mkFp s.pkg 0 (u0 + 64) 0 3) = u0 + 64 ∧ s.work.k < 256) ∧
    (let s := trapping { work0 regs0 with ctl := .resume none } true
     (s.ctx 0 0).bound = true ∧ (s.ctx 0 0).work.active = true ∧ (s.ctx 0 0).work.acts = [] ∧ (s.ctx 0 0).work.stores = [] ∧
       (s.ctx 0 0).work.seen = [] ∧ (s.ctx 0 0).work.ctl = .resume none ∧ (s.core 0).park = false ∧ noDebugger s ∧
       (s.core 0).copyQ.length ≤ 8 ∧ (s.core 0).mq.length ≤ 8 ∧ (s.core 0).ni.enqBuf.length ≤ 16 ∧ (∀ p, (trapping (work0 regs0) false).work.ctl ≠ .resume p) ∧
       loopsOk (bits (frameWord s 0 u0 3) 1 0) (wordLoop (frameWord s 0 u0 4) (frameWord s 0 u0 5))
         (wordLoop (frameWord s 0 u0 6) (frameWord s 0 u0 7)) = true) ∧
    (let s := trapping { work0 regs0 with ctl := .resume none, ctlHead := 1 } false
     s.work.ctl = .resume none ∧ s.work.stores = [] ∧ s.work.acts = [] ∧ s.me.handler = false) ∧
    (let s := holds { core0 with scr := [(64 * u0 + 24, 3)], ctxs := [(0, ctx0 { work0 regs0 with ctl := .resume none })] }
     s.work.ctl = .resume none ∧ s.work.stores = [] ∧ fpUnit s.me.fp = u0 ∧ loopsOk (bits (frameWord s 0 u0 3) 1 0) (wordLoop (frameWord s 0 u0 4) (frameWord s 0 u0 5))
       (wordLoop (frameWord s 0 u0 6) (frameWord s 0 u0 7)) = false) := by
  unfold noDebugger; and_intros <;> first | exact holds_noneDeferred _ rfl | exact fun _ h => nomatch h | decide +kernel

/-- A core whose context 0 is about to commit a block with one action, and no store, before the line of a block. -/
def actingCore (a : Act) (x : Core) : Core :=
  { x with ctxs := [(0, ctx0 { work0 {} with acts := [(0, a)] })], lines := [(2 ^ 27 + 4, fmaLine)] }
def acting (a : Act) (x : Core) : State := holds (actingCore a x)
theorem holds_core (x : Core) : (holds x).core 0 = x := by simp [holds, State.core, mget]
theorem acting_ctx (a : Act) (x : Core) : (acting a x).ctx 0 0 = ctx0 { work0 {} with acts := [(0, a)] } := by
  simp [acting, State.ctx, holds_core, actingCore, Core.ctx, mget]
theorem acting_line (a : Act) (x : Core) : (acting a x).lineAt 0 1 4 = some fmaLine := by
  simp [acting, State.lineAt, holds_core, actingCore, mhas, mget]
theorem acting_ready (a : Act) (x : Core) (h1 : x.park = false) (h2 : x.defer = []) (h3 : x.copyQ.length ≤ 7) (h4 : x.mq.length ≤ 7)
    (h5 : x.ni.enqBuf.length ≤ 15) : ReadyWith (acting a x) 0 0 0 a := by
  have hc : (acting a x).core 0 = actingCore a x := holds_core _
  unfold ReadyWith Ready
  rw [acting_ctx, hc]
  refine ⟨⟨by decide, by decide, rfl, rfl, ?_, h1, ?_, holds_noneDeferred _ h2, h3, h4, h5⟩, rfl, rfl, rfl, rfl, ?_, fmaLine, acting_line a x, by decide +kernel⟩
  · intro _ h; exact nomatch h
  · show bitOf 0 63 = false; decide
  · show 4 < run1.clen; decide +kernel
/-- Word 511 of the frame holds a slot word. -/
def slotCore (v : Word) : Core := { core0 with scr := (wordBytes v).zipIdx.map fun p => (64 * u0 + 4088 + p.2, p.1) }
/-- Slot words: malformed, armed at 5, unarmed at −3, at 32,760 and at 0. -/
def armWords : List Word := [0x0001800100000080, 0x0005800000000080, 0xfffd000000000000, 0x7ff8000000000000, 0]
def slotVals (v : Word) : Word × Bool × Int :=
  (frameWord (acting (.arm 511 3 0x80 3) (slotCore v)) 0 u0 511, bitOf v 47, (v.extractLsb' 48 16).toInt)
/-- Two frames of class 0 on the core: one resident, one spilled at generation 9. -/
def fpA : Word := mkFp 0 0 0x3100 2 0
def fpB : Word := mkFp 0 0 0x3108 9 0
def twoFrames (d : FDir) (x : Core) : Core :=
  { x with fr := { core0.fr with dir := core0.fr.dir ++ [(0x3100, d), (0x3108, { spilled := true, sgen := 9, gen := 1, lid := 1 })] } }
def resA : FDir := { alloc := true, gen := 2, lid := 1 }
def framed (x : Core) : State := acting (.ffree fpA) (twoFrames resA x)
def others (s : State) (f : Word) : Bool :=
  ((s.core 0).tokens ++ (s.core 0).hold).any (fun q => sameFrame q.fp f) || (s.core 0).tfps.any (fun q => sameFrame q.2 f) ||
    (List.range 16).any fun i => i ≠ 0 && (s.ctx 0 i).bound && sameFrame (s.ctx 0 i).fp f
def ringCore (out : Bool) (tag : Byte) : Core := { core0 with scr := ringAt out tag }
/-- A queue of the core with one entry; its descriptor at 0x20000. -/
def fullQueue : Core := { core0 with scr := [(0x20002, 0x0f), (0x20007, 0x80), (0x2000c, 1)] }
theorem witness_ActionsTakeEffect :
    (∀ a, ReadyWith (acting a core0) 0 0 0 a ∧ ReadyWith (acting a (ringCore true 2)) 0 0 0 a ∧ ReadyWith (acting a fullQueue) 0 0 0 a ∧
      (∀ d, ReadyWith (acting a { core0 with owner := d }) 0 0 0 a) ∧ (∀ v, ReadyWith (acting a (slotCore v)) 0 0 0 a) ∧
      ∀ o h, ReadyWith (acting a (twoFrames resA { core0 with owner := o, hold := h })) 0 0 0 a) ∧
    armWords.map slotVals = [(0x0001800100000080, true, 1), (0x0005800000000080, true, 5), (0xfffd000000000000, false, -3),
      (0x7ff8000000000000, false, 32760), (0, false, 0)] := by
  refine ⟨fun a => ⟨?_, ?_, ?_, fun d => ?_, fun v => ?_, fun o h => ?_⟩, by decide +kernel⟩ <;>
    exact acting_ready _ _ rfl rfl (Nat.zero_le _) (Nat.zero_le _) (Nat.zero_le _)
theorem witness_FramesAreFreedAndPinned :
    (let s := framed core0
     homeHere s 0 fpA ∧ ((s.core 0).dir (fpUnit fpA)).alloc = true ∧ ((s.core 0).dir (fpUnit fpA)).gen = fpGen fpA ∧ others s fpA = false ∧
       sameFrame fpA (s.ctx 0 0).fp = false ∧ (∀ i < 8, mget 0 (s.core 0).owner i ≠ holderWord fpA) ∧ (s.core 0).fr.refills = [] ∧
       homeHere s 0 fpB ∧ ((s.core 0).dir (fpUnit fpB)).spilled = true ∧ ((s.core 0).dir (fpUnit fpB)).sgen = fpGen fpB ∧
       ((s.core 0).dir (fpUnit fpB)).alloc = false ∧ others s fpB = false ∧ sameFrame fp0 (s.ctx 0 0).fp = true ∧ ¬homeHere s 0 (fpA + 1)) ∧
    (∃ i < 8, mget 0 ((framed { core0 with owner := [(7, holderWord fpA)] }).core 0).owner i = holderWord fpA) ∧
    others (framed { core0 with hold := [{ fp := fpA }] }) fpA = true := by
  unfold homeHere; and_intros <;> decide +kernel
theorem witness_OtherActionsInPlace :
    (let s := acting (.stage true 0x8000 0) (ringCore true 2)
     ringFits s 0 0x8000 0 ∧ bitOf ((s.core 0).scrWord 0x8000) 63 = true ∧ s.slotTag 0 0x8000 0 = 2 ∧ ¬ringFits s 0 0x8001 0) ∧
    (let s := acting (.stage true 0x8000 0) (ringCore false 2)
     ringFits s 0 0x8000 0 ∧ bitOf ((s.core 0).scrWord 0x8000) 63 = false ∧ s.slotTag 0 0x8000 0 = 2) ∧
    (acting (.sysw 10 31) core0).hasLaunch 1 = true ∧
    (let s := acting (.deq 0x20000 511 1 p0 false) fullQueue
     (s.core 0).ni.fences = [] ∧ (s.queue 0 0x20000).head = 0 ∧ (s.queue 0 0x20000).tail = 1) ∧
    (let s := acting (.accGet 7) { core0 with owner := [(7, holderWord fpA)] }
     bitOf (mget 0 (s.core 0).owner 7) 63 = true ∧ mget 0 (s.core 0).owner 7 ≠ holderWord (s.ctx 0 0).fp ∧
       bitOf (mget 0 (s.core 0).owner 6) 63 = false ∧
       mget 0 ((acting (.accGive 7) { core0 with owner := [(7, holderWord fp0)] }).core 0).owner 7 = holderWord fp0) := by
  unfold ringFits; and_intros <;> decide +kernel
/-- Network interfaces with a queue's counter at 1 and at 0. -/
def credited (n : Nat) : Core := { core0 with ni := { credits := [⟨baseOf 0 0, some n, 2⟩] } }
theorem witness_ActionsLeaveTheCore :
    (∀ a, ReadyWith (acting a core0) 0 0 0 a ∧ (∀ n, ReadyWith (acting a (credited n)) 0 0 0 a) ∧
      ReadyWith (acting a { core0 with empty := [(131071, true)] }) 0 0 0 a) ∧
    (let s := acting (.put (baseOf 0 0) 511 .s64 p0 noSlot) core0
     (s.core 0).ni.fences = [] ∧ s.badAddr (baseOf 0 0) = false ∧ (s.core 0).full ((64 * u0 + 8 * 511) / 8) = true ∧
       (s.core 0).ni.enqBuf = [] ∧ (s.core 0).ni.held = [] ∧ (s.core 0).ni.credits = []) ∧
    ((acting (.put (baseOf 0 0) 511 .s64 p0 noSlot) { core0 with empty := [((64 * u0 + 8 * 511) / 8, true)] }).core 0).full
      ((64 * u0 + 8 * 511) / 8) = false ∧
    (∀ n, ((acting (.enq (baseOf 0 0) [7] p0 none false) (credited n)).core 0).ni.credits = [⟨baseOf 0 0, some n, 2⟩]) ∧
    (let m : MReq := { form := .accZero }
     let s := holds { core0 with ctxs := [(0, ctx0 { work0 {} with acts := [(0, .matrix m)], ctl := .endT })], mq := List.replicate 8 m }
     (s.ctx 0 0).work.acts = [(0, .matrix m)] ∧ (s.ctx 0 0).work.ctl = .endT ∧ (s.ctx 0 0).work.active = true ∧ (s.core 0).mq.length = 8) := by
  refine ⟨fun a => ⟨?_, fun n => ?_, ?_⟩, ?_⟩
  iterate 3 exact acting_ready _ _ rfl rfl (Nat.zero_le _) (Nat.zero_le _) (Nat.zero_le _)
  and_intros <;> first | exact fun _ => rfl | decide +kernel
/-- A block that has taken no action, with its control outcome and loops, and the lines that a core holds. -/
def outcomes (r : Regs) (t : Ctl) (lines : Map Line64) : State :=
  holds { core0 with ctxs := [(0, ctx0 { work0 r with ctl := t })], lines := lines }
def line1 : Line64 := fmaLine + BitVec.ofNat 512 16
theorem outcomes_ready (r : Regs) (t : Ctl) (lines : Map Line64) : Ready (outcomes r t lines) 0 0 := by
  refine ⟨by decide, by decide, rfl, rfl, ?_, rfl, ?_, holds_noneDeferred _ rfl, Nat.zero_le _, Nat.zero_le _, Nat.zero_le _⟩
  · intro _ h; exact nomatch h
  · show bitOf 0 63 = false; decide
/-- Two loops that end on line 3, the block's own, the inner in its last iteration; and one body of lines 3 to 5. -/
def nest : Regs := { depth := 2, l0 := ⟨2, 3, 2⟩, l1 := ⟨3, 3, 1⟩ }
def body5 : Regs := { depth := 1, l0 := ⟨3, 5, 2⟩ }
theorem witness_ControlOutcomesTakeEffect :
    (∀ r t lines, Ready (outcomes r t lines) 0 0) ∧ (lineHdr line1).kind = 1 ∧ (lineHdr fmaLine).kind ≠ 1 ∧ 4 < run1.clen ∧
    (outcomes {} .fall [(2 ^ 27 + 4, fmaLine)]).lineAt 0 1 4 = some fmaLine ∧ (outcomes {} .fall []).lineAt 0 1 4 = none ∧
    ((outcomes {} .fall []).core 0).frozen = false ∧
    nest.loops.getLast?.map (·.last.toNat) = some 3 ∧ (∀ e ∈ nest.loops, e.rem ≠ 0) ∧ closes nest.loops.reverse = (2, [⟨2, 3, 1⟩]) ∧
    body5.loops.getLast?.map (·.last.toNat) ≠ some 3 ∧ loopsAt 4 body5.loops = [⟨3, 5, 2⟩] ∧ loopsAt 6 body5.loops = [] ∧
    loopsAt 4 (({} : Regs).loops ++ (some (⟨4, 5, 3⟩ : LoopEnt)).toList) = [⟨4, 5, 3⟩] := by
  refine ⟨outcomes_ready, ?_⟩; and_intros <;> decide +kernel
/-! Packets at a core. -/

/-- The only delivery a core holds is a packet an event takes. -/
theorem arrives_one (x : Core) (f : Packet → Bool) (p : Packet) (hx : x.inq = [p]) (hp : f p = true) :
    Arrives (holds x) 0 f p ((holds x).modCore 0 fun x => x.took []) :=
  ⟨by decide, [], by simp [State.core, holds, mget, Core.first, hx, takeFirst, hp], rfl⟩
/-- A packet of space 5 from core 1. -/
def pkt (b : Body) : Packet := { src := ⟨0, 1, 0⟩, sid := 5, lid := 1, id := 3, body := b }
/-- A core with one delivery. -/
def gets (p : Packet) (x : Core) : State := holds { x with inq := [p] }
def taken (p : Packet) (x : Core) : State := (gets p x).modCore 0 fun x => x.took []
/-- Of a core with one delivery, an event that takes it finds it. -/
def Finds (f : Packet → Bool) (p : Packet) (x : Core) : Prop := ∃ s1, Arrives (gets p x) 0 f p s1
theorem finds {f : Packet → Bool} {p : Packet} {x : Core} (h : f p = true) : Finds f p x := ⟨_, arrives_one _ f p rfl h⟩
def sigPkt (n : Nat) : Packet := pkt (.sig fp0 511 n .none)
def dataPkt : Packet := pkt (.sig fp0 511 0 (.word 510 7 true))
def resCore : Core := { core0 with fr := { frs := 0x40000, dir := [(u0, { alloc := true, gen := 4, cls := 3, lid := 1, reserved := true })] } }
/-- Slot words: armed at 1, armed at 255, armed at −1, unarmed at 0 and at the lower end, malformed. -/
def slotWords : List Word := [0x0001800000000080, 0x00ff800000000080, 0xffff800000000080, 0, 0x8000000000000000, 0x0001800100000080]
theorem witness_SignalsCountAndFindTheirFrame :
    (∀ v, Finds isSig (sigPkt 1) (slotCore v)) ∧ (∀ v, noneDeferred (gets (sigPkt 1) (slotCore v))) ∧
    (∀ k < 6, let v := slotWords.getD k 0
      resident (taken (sigPkt 1) (slotCore v)) 0 fp0 (sigPkt 1) ∧
        bitOf (gets (sigPkt 1) (slotCore v)).dist.dbgCtl 63 = false ∧ frameWord (gets (sigPkt 1) (slotCore v)) 0 u0 511 = v ∧
        (slotCore v).tokens.length < 256) ∧ (sigPkt 1).src.port ≠ 2 ∧
    (slotWords.map fun v => (v.extractLsb' 32 13, bitOf v 47, (v.extractLsb' 48 16).toInt)) =
      [(0, true, 1), (0, true, 255), (0, true, -1), (0, false, 0), (0, false, -32768), (1, true, 1)] ∧
    Finds isSig dataPkt core0 ∧ Finds isSig dataPkt resCore ∧ resident (taken dataPkt core0) 0 fp0 dataPkt ∧
    noneDeferred (gets dataPkt core0) ∧
    (fpMalformed resCore fp0 = false ∧ resCore.lids.contains (resCore.dir u0).lid = true ∧ (resCore.dir u0).alloc = true ∧
      (resCore.dir u0).gen = fpGen fp0 ∧ (resCore.dir u0).reserved = true) ∧
    fpMalformed core0 (fp0 + 1) = true ∧
    Finds isSig (pkt (.sig (fp0 + 1) 511 0 (.word 510 7 true))) core0 := by
  unfold resident
  refine ⟨fun _ => finds rfl, fun _ => holds_noneDeferred _ rfl, ?_⟩
  and_intros <;> first | decide +kernel | exact finds rfl | exact holds_noneDeferred _ rfl
def bankReq (b : Body) : State := gets (pkt b) core0
/-- Addresses in the scratch of core 0: the last word and the last block. -/
def lastWord : Word := baseOf 0 0 + 0xffff8
def lastHalf : Word := baseOf 0 0 + 0xffffc
def lastBlock : Word := baseOf 0 0 + 0xfffc0
/-- A word that is empty, for `stef`, or full, for `ldfe`. -/
def feCore (full : Bool) : Core := { core0 with empty := if full then [] else [(131071, true)] }
def wordReply : Packet := pkt (.data [0x80] (.word fp0 511 .s8 none))
theorem witness_BanksServeRequests :
    (∀ b ∈ [Body.read lastWord 8 .data .none, .write lastWord ((wordBytes 7).map some) .none, .amo .add .s64 lastWord 1 0 .none,
        .amo .cas .z64 lastWord 1 0 .none, .amo .max .s32 lastHalf 1 0 .none, .amo .cas .z32 lastHalf 1 0 .none, .red .sum .s64 lastWord 1 false .none,
        .red .sum .f32 lastHalf 1 false .none, .red .min .z64 lastWord 1 false .none, .csnap lastBlock .none,
        .read (baseOf 0 0 + 0xffffc) 8 .data .none], isBankReq (pkt b) = true) ∧
    (∀ b, isBankReq (pkt b) = true → Finds isBankReq (pkt b) core0) ∧ (∀ b, noneDeferred (bankReq b)) ∧
    (let s := holds core0
     let p := pkt (.csnap lastBlock .none)
     Granted s 0 p lastBlock 64 true true ∧ Granted s 0 p lastWord 8 true true ∧ Granted s 0 p lastWord 8 true false ∧
       Granted s 0 p lastHalf 4 true true ∧ Granted s 0 p lastWord 8 false true ∧ ¬Granted s 0 p (baseOf 0 0 + 0xffffc) 8 true false) ∧
    (addrOff lastWord % 8 = 0 ∧ addrOff lastHalf % 4 = 0 ∧ addrOff lastBlock % 64 = 0 ∧ Ty.s64 ∈ redTypes .sum ∧ Ty.f32 ∈ redTypes .sum ∧ Ty.z64 ∈ redTypes .min) ∧
    (∀ op full, Finds isBankReq (pkt (.fe op lastWord 9 .none)) (feCore full)) ∧
    ((feCore true).full (addrOff lastWord / 8) = true ∧ (feCore false).full (addrOff lastWord / 8) = false ∧
      (holds core0).core 0 = core0 ∧ core0.inq = [] ∧ isBankReq wordReply = false ∧
      (let s := gets (pkt (.read lastWord 8 .data .none)) core0
       (s.core 0).inq = [pkt (.read lastWord 8 .data .none)] ∧ addrOff lastWord < 0x100000 ∧
         Granted s 0 (pkt (.read lastWord 8 .data .none)) lastWord 8 true false) ∧
      Granted (bankReq (.write lastWord ((wordBytes 7).map some) .none)) 0 (pkt (.write lastWord ((wordBytes 7).map some) .none))
        lastWord 8 false true ∧
      addrOff (baseOf 0 0 + 0xffffc) < 0x100000) := by
  unfold Granted
  refine ⟨?_, fun b h => finds h, fun b => holds_noneDeferred _ rfl, ?_, ?_, fun op full => finds rfl, ?_⟩ <;> decide +kernel
def spillAck : Packet := pkt (.ack (.spill u0) none)
def refillReq : Packet := pkt (.refill fp0 0x80 3 0)
def refillData : Packet := pkt (.data (List.replicate 64 7) (.refill u0 0))
/-- The frame is spilled and its location holds no frame; with or without a refill under way. -/
def spilledCore (r : List Refill) : Core :=
  { core0 with fr := { frs := 0x40000, dir := [(u0, { cls := 3, lid := 1, slid := 1, spilled := true, sgen := 4 })], refills := r } }
def reads (need : Nat) : Refill := { u := u0, fp := fp0, entry := 0x80, prio := 3, lid := 1, started := true, reading := true, need := need }
theorem witness_RepliesAndRefillsComplete :
    (let s := holds { core0 with ctxs := [(15, ctx0 (work0 regs0))], replays := [(15, 62)] }
     (s.ctx 0 15).work.active = true ∧ (s.ctx 0 15).replayAt ≠ some s.acyc ∧ mget 0 (s.core 0).replays 15 < 63) ∧
    63 ≤ mget 0 ((holds { core0 with replays := [(15, 63)] }).core 0).replays 15 ∧
    (let s := gets (pkt (.read lastWord 8 .data .none)) { core0 with replays := [(19, 62)] }
     s.unitAccess 0 19 = some 5 ∧ mget 0 (s.core 0).replayedAt 19 ≠ s.acyc + 1 ∧ mget 0 (s.core 0).replays 19 < 63) ∧
    (let s := holds { core0 with mq := [{ form := .accZero, sid := 5 }], replays := [(20, 63)] }
     s.unitAccess 0 20 = some 5 ∧ mget 0 (s.core 0).replayedAt 20 ≠ s.acyc + 1 ∧ 63 ≤ mget 0 (s.core 0).replays 20) ∧
    (let s := holds { core0 with ni := { retry := [⟨pkt (.fe .ldfe lastWord 0 .none), 0⟩] } }
     (s.core 0).ni.retry = [⟨pkt (.fe .ldfe lastWord 0 .none), 0⟩] ∧ isFe (pkt (.fe .ldfe lastWord 0 .none)) = true ∧ 0 ≤ s.acyc) ∧
    (Finds isReply wordReply core0 ∧ wordReply.fault = false ∧
      noneDeferred (gets wordReply core0) ∧ resident (taken wordReply core0) 0 fp0 wordReply) ∧
    (Finds isSpillAck spillAck core0 ∧ core0.ni.held = []) ∧
    (Finds isRefill refillReq (spilledCore []) ∧
      noneDeferred (gets refillReq (spilledCore [])) ∧
      (let d := (spilledCore []).dir u0
       fpMalformed (spilledCore []) fp0 = false ∧ (spilledCore []).lids.contains d.lid = true ∧
         ((gets refillReq (spilledCore [])).launch d.lid).sid = refillReq.sid ∧
       d.alloc = false ∧ d.reserved = false ∧ d.refill = false ∧ d.spilled = true ∧ d.sgen = fpGen fp0) ∧
      (let x := { spilledCore [] with fr := { frs := 0x40000, dir := [(u0, { cls := 3, lid := 1, gen := 5 })] } }
       Finds isRefill refillReq x ∧ fpMalformed x fp0 = false ∧ x.lids.contains (x.dir u0).lid = true ∧ ¬((x.dir u0).alloc = true) ∧
         ¬((x.dir u0).spilled = true)) ∧
      mget 0 (spilledCore []).fr.fwds u0 = 0 ∧ (spilledCore []).fr.refills = []) ∧
    (Finds isRefillData refillData (spilledCore [reads 4224]) ∧
      refillData.fault = false ∧ (reads 4224).lid = refillData.lid ∧ noneDeferred (gets refillData (spilledCore [reads 4224]))) ∧
    ((reads 0).reading = true ∧ (reads 0).need = 0 ∧ (reads 0).forPin = false ∧ (spilledCore [reads 0]).fr.heldPkts = [] ∧
      ((spilledCore [reads 0]).dir u0).alloc = false ∧ (spilledCore [reads 0]).tokens.length < 256 ∧
      noneDeferred (holds (spilledCore [reads 0])) ∧ noDebugger (holds (spilledCore [reads 0]))) := by
  unfold resident noDebugger
  and_intros <;> first | decide +kernel | exact finds rfl | exact holds_noneDeferred _ rfl
def amsg0 : Packet := pkt (.amsg 0x1000 [1, 2, 3, 4, 5, 6] 2 0x80 0)
def spawn1 : Packet := pkt (.spawn [] 1 2 0x80 0)
/-- Free frames of classes 0 and 1 at the end of scratch. -/
def freeCore : Core :=
  { core0 with fr := { frs := 0x40000, free := [(0, [16383]), (1, [16376])], dir := [(16376, { cls := 1 }), (16383, { gen := 0xff })] } }
theorem witness_MessagesAndSpawns : ([1, 2, 3, 4, 5, 6] : List Word).length ≤ 6 ∧ (freeCore.tokens).length < 256 ∧
    Finds isAmsg amsg0 freeCore ∧
    NextFrame (gets amsg0 freeCore) 0 0 (mkFp 0 0 16383 0 0) ∧
    Finds isSpawn spawn1 freeCore ∧
    NextFrame (gets spawn1 freeCore) 0 1 (mkFp 0 0 16376 1 1) ∧
    Finds isAmsg amsg0 core0 ∧ (taken amsg0 core0).chooseFrame 0 0 = none ∧
    Finds isSpawn spawn1 core0 ∧ (taken spawn1 core0).chooseFrame 0 1 = none ∧
    (let s := holds { freeCore with ni := { retry := [⟨amsg0, 0⟩] } }
     (s.core 0).ni.retry = [⟨amsg0, 0⟩] ∧ 0 ≤ s.acyc ∧ NextFrame s 0 0 (mkFp 0 0 16383 0 0)) ∧
    NextFrame (holds { freeCore with ni := { retry := [⟨spawn1, 0⟩] } }) 0 1 (mkFp 0 0 16376 1 1) := by
  and_intros <;> first | decide +kernel | exact finds rfl | exact ⟨16383, [], by decide +kernel⟩ | exact ⟨16376, [], by decide +kernel⟩
/-- A queue of 8-byte entries at the top of scratch: its last place stands before its sender words; valid or not. -/
def queueCore (b : Byte) (tail : Byte) : Core := { core0 with scr := [(0xfff01, 0xfe), (0xfff02, 0x0f), (0xfff07, b), (0xfff0c, tail)] }
def entry (n : Nat) : Packet := pkt (.entry (baseOf 0 0 + 0xfff00) (List.replicate n 7) 0 none)
def creditCore (n : Nat) (k : Nat) : Core :=
  { core0 with ni := { credits := [⟨5, some n, 0⟩], enqBuf := List.replicate k ⟨5, pkt (.credit 5), [4]⟩ } }
theorem witness_QueueEntriesAndCredits :
    (let s := gets (entry 1) (queueCore 0x80 0)
     let d := s.queue 0 0xfff00
     Finds isEntry (entry 1) (queueCore 0x80 0) ∧ noneDeferred s ∧
       addrOff (baseOf 0 0 + 0xfff00) + 64 ≤ 0x100000 ∧ d.valid = true ∧ 8 * 1 = 8 * 2 ^ d.esz ∧ d.used < d.n ∧ d.nfp = 0 ∧
       d.entry d.tail + 8 ≤ 0x100000 ∧ d.sender d.tail + 4 ≤ 0x100000 ∧ (s.core 0).permits 5 0xfff00 64 true = true ∧
       (s.core 0).permits 5 (d.entry d.tail) 8 true = true ∧ (s.core 0).permits 5 (d.sender d.tail) 4 true = true ∧
       d.sender 0 + 4 * d.n ≤ 0xfff00) ∧
    ((gets (entry 1) (queueCore 0 0)).queue 0 0xfff00).valid = false ∧
    8 * 2 ≠ 8 * 2 ^ ((gets (entry 2) (queueCore 0x80 0)).queue 0 0xfff00).esz ∧
    ((gets (entry 1) (queueCore 0x80 1)).queue 0 0xfff00).used = ((gets (entry 1) (queueCore 0x80 1)).queue 0 0xfff00).n ∧
    Finds isCredit (pkt (.credit 5)) (creditCore 0 0) ∧
    ((holds (creditCore 1 1)).core 0).ni.credits = [⟨5, some (0 + 1), 0⟩] ∧
    ((holds (creditCore 1 1)).core 0).ni.enqBuf = [⟨5, pkt (.credit 5), [4]⟩] ∧ ((holds (creditCore 1 1)).core 0).ni.held = [] ∧
    ((holds (creditCore 1 1)).core 0).ni.outs = [] := by
  and_intros <;> first | decide +kernel | exact finds rfl | exact holds_noneDeferred _ rfl
def heldOne (b : Body) : Core := { core0 with ni := { held := [⟨pkt b, [4]⟩], outs := [{ id := 5, thr := 9, lid := 1, addr := 0, isWrite := true }] } }
def bara (lw lh : Nat) : Packet := pkt (.bara lw lh 0)
def barc : Packet := pkt (.barc 1 2)
def barCore : Core := { core0 with ni := { bars := [⟨1, 1, 2, fp0, 511⟩] } }
theorem witness_HeldPacketsAndBarriers :
    (∀ o ∈ (heldOne (.credit 0)).ni.outs, o.id ∉ [4]) ∧ isRegionRed (pkt (.credit 0)) = false ∧
    isRegionRed (pkt (.red .sum .f32 0 0 true .none)) = true ∧
    Finds isBara (bara 0 1) core0 ∧ core0.ni.barCnt = [] ∧ core0.ni.fences = [] ∧
    Finds isBara (bara 0 0) core0 ∧ 2 ^ (0 + 0) ≤ 0 + 1 ∧ 0 + 1 < 2 ^ (0 + 1) ∧
    (∀ n ∈ [3, 7], let x : Core := { core0 with ni := { barCnt := [⟨1, 1, 2, n⟩] } }
      0 < n ∧ x.ni.barCnt = [⟨(bara 1 2).lid, 1, 2, n⟩] ∧ x.ni.fences = []) ∧ 3 + 1 < 2 ^ (1 + 2) ∧ 2 ^ (1 + 2) ≤ 7 + 1 ∧
    (∀ n, Finds isBara (bara 1 2) { core0 with ni := { barCnt := [⟨1, 1, 2, n⟩] } }) ∧
    Finds isBarc barc barCore ∧ barCore.ni.bars = [⟨1, 1, 2, fp0, 511⟩] ∧ barc.lid = 1 := by
  and_intros <;> first | decide +kernel | exact finds rfl | exact fun _ => finds rfl

/-! Slices. -/

/-- A request for space 5 from core 1, at slice 0; the space's directory entry is valid. -/
def slicePkt (b : Body) : Packet := { pkt b with dst := ⟨0, 0, 1⟩ }
def sliceS (x : Slice) (mem : List Host.Cell) : State := { holds core0 with slices := [(0, x)], mem := mem, acyc := 20 }
def validDir : List Host.Cell := [(47, 0x80)]
/-- A leaf of one page that maps to physical page 1 with every right, and variants of it. -/
def leaf (w : Word) (comp : Word) : StcEnt := { sid := 5, level := 0, page := 1, leaf := w, comp := comp }
def fullLeaf : Word := 0xf800000000000001
def line10 : L2Line := { sid := 5, va := 0x10, pa := 0x1000, valid := 0xff }
def hitSlice (b : Body) : Slice := { inq := [slicePkt b], stc := [leaf fullLeaf 0], lines := [line10] }
def readLast : Body := .read 0x10ff 1 .data .none
def writeAll : Body := .write 0x1000 ((List.replicate 256 1).map some) .none
theorem atHead_one (x : Slice) (mem : List Host.Cell) (p : Packet) (h1 : x.inq = [p]) (h2 : x.parked = []) (h3 : x.wins = [])
    (h4 : x.cells = []) : ∃ s1, AtHead (sliceS x mem) 0 p s1 :=
  ⟨_, ⟨by decide, h2, h3, [], h1, rfl⟩, h4⟩
def onlyLeaf (e : StcEnt) (p : Packet) (a : Word) : Prop :=
  onlyStc (sliceS { inq := [p], stc := [e] } validDir) 0 p a e
theorem witness_SlicesServeHits : (∃ s1, AtHead (sliceS (hitSlice readLast) validDir) 0 (slicePkt readLast) s1) ∧
    (∃ s1, AtHead (sliceS (hitSlice writeAll) validDir) 0 (slicePkt writeAll) s1) ∧
    onlyStc (sliceS (hitSlice readLast) validDir) 0 (slicePkt readLast) 0x10ff (leaf fullLeaf 0) ∧
    onlyStc (sliceS (hitSlice writeAll) validDir) 0 (slicePkt writeAll) 0x1000 (leaf fullLeaf 0) ∧
    wholeLine (sliceS (hitSlice readLast) validDir) 0 (slicePkt readLast) 0x10ff line10 ∧
    wholeLine (sliceS (hitSlice writeAll) validDir) 0 (slicePkt writeAll) 0x1000 line10 ∧
    (opens (leaf fullLeaf 0) 61 0x10ff ∧ opens (leaf fullLeaf 0) 60 0x1000) ∧
    ((0x10ff : Word).toNat % 256 + 1 ≤ 256 ∧ (0x1000 : Word).toNat % 256 + 256 ≤ 256) ∧
    hostHolds (sliceS (hitSlice writeAll) validDir) ∧
    (sliceS (hitSlice writeAll) validDir).noAlloc (slicePkt writeAll) = false := by
  refine ⟨atHead_one _ _ _ rfl rfl rfl rfl, atHead_one _ _ _ rfl rfl rfl rfl, ?_⟩
  unfold onlyStc wholeLine opens hostHolds; decide +kernel
def mwin (issued : Bool) (at_ : Nat) : MWin := { sid := 5, va := 0x10, pa := 0x1000, at_ := at_, issued := issued }
/-- A reduction region's leaf, and a reduction to it. -/
def redPkt : Body := .red .sum .f32 0x1000 0x3f800000 true .none
def redSlice : Slice := { inq := [slicePkt redPkt], stc := [leaf (fullLeaf + 2 ^ 57) 0] }
/-- The contributor's cell of the element, and that of another contributor. -/
def cellOf (who : Nat) : RCell := { sid := 5, va := 0x1000, who := who, op := .sum, ty := .f32, v := 0x3f800000 }
theorem heads_one (x : Slice) (mem : List Host.Cell) (p : Packet) (h1 : x.inq = [p]) (h2 : x.parked = []) (h3 : x.wins = []) :
    ∃ s1, Heads (sliceS x mem) 0 p s1 := ⟨_, by decide, h2, h3, [], h1, rfl⟩
/-- A read of an element with two cells, listed in descending order of contributor. -/
def readFold : Body := .read 0x1000 4 .data .none
def foldSlice : Slice := { hitSlice readFold with cells := [cellOf 2, cellOf 1] }
theorem witness_RegionsAreFolded :
    (∃ s1, Heads (sliceS { redSlice with cells := [cellOf 1] } validDir) 0 (slicePkt redPkt) s1) ∧
    ((slicePkt redPkt).src.pkg.toNat * 2048 + (slicePkt redPkt).src.core.toNat = 1) ∧
    (((sliceS { redSlice with cells := [cellOf 1] } validDir).modSlice 0 fun x => { x with inq := [] }).translateAll (fun _ => 0) (slicePkt redPkt)
      (reqPieces redPkt)).1.failed = none ∧
    (∃ s1, Heads (sliceS foldSlice validDir) 0 (slicePkt readFold) s1) ∧
    onlyStc (sliceS foldSlice validDir) 0 (slicePkt readFold) 0x1000 (leaf fullLeaf 0) ∧
    wholeLine (sliceS foldSlice validDir) 0 (slicePkt readFold) 0x1000 line10 ∧ opens (leaf fullLeaf 0) 61 0x1000 ∧
    (0x1000 : Word).toNat % Ty.width .f32 = 0 ∧ readFold = .read 0x1000 (Ty.width .f32) .data .none ∧
    ((sliceS foldSlice validDir).slice 0).cells.Perm [cellOf 1, cellOf 2] ∧
    ([cellOf 1, cellOf 2].Pairwise fun c d => c.who < d.who) ∧
    (∀ c ∈ [cellOf 1, cellOf 2], c.sid = 5 ∧ c.va = 0x1000 ∧ c.op = .sum ∧ c.ty = .f32) := by
  refine ⟨heads_one _ _ _ rfl rfl rfl, by decide +kernel, by decide +kernel, heads_one _ _ _ rfl rfl rfl, ?_⟩
  unfold onlyStc wholeLine opens; and_intros <;> first | decide +kernel | exact .swap _ _ _
theorem witness_SlicesServeTheirLines :
    ((sliceS { wins := [mwin false 4] } []).slice 0).wins = [mwin false 4] ∧ 4 + 16 ≤ (sliceS {} []).acyc ∧
    (sliceS {} []).acyc < 5 + 16 ∧ (mwin false 5).wanted ≠ 0xff ∧
    ((mwin true 4).issued = true ∧ (mwin true 4).noalloc = false ∧ (mwin true 4).reqs = [] ∧ (mwin true 4).pa % 256 = 0) ∧
    ((sliceS { wins := [mwin true 4] } []).slice 0).lines = [] ∧ (sliceS {} []).poison = [] ∧
    (∃ s1, AtHead (sliceS redSlice validDir) 0 (slicePkt redPkt) s1) ∧
    (((sliceS redSlice validDir).modSlice 0 fun x => { x with inq := [] }).translateAll (fun _ => 0) (slicePkt redPkt)
      (reqPieces redPkt)).1.failed = none ∧ hostHolds (sliceS redSlice validDir) := by
  unfold hostHolds; and_intros <;> first | decide +kernel | exact atHead_one _ _ _ rfl rfl rfl rfl
/-- A leaf that migrates, one restricted to core 0, one without the read right, one whose memory is poisoned. -/
def parkedBy (e : StcEnt) : State := sliceS { inq := [slicePkt readLast], stc := [e] } validDir
def owned (s : State) : State := { s with io := { own := 2 ^ 63 } }
def ticket : Parked := { pkt := slicePkt readLast, ticket := 0xfffff, kind := 5, pages := [1] }
def hostRead : Packet := slicePkt (.read 0x10ff 1 .data (.host 1 1))
theorem witness_TranslationFaultsAreParkedAndResolved :
    (∃ s1, AtHead (parkedBy (leaf fullLeaf 0)) 0 (slicePkt readLast) s1) ∧
    bitOf (dirEntry (sliceS { inq := [slicePkt readLast] } []) 0 5) 63 = false ∧
    (((sliceS { inq := [hostRead] } []).slice 0).inq = [hostRead] ∧ hostRead.sid = 5) ∧
    (((parkedBy (leaf fullLeaf 0)).slice 0).lines = [] ∧ ((parkedBy (leaf fullLeaf 0)).slice 0).cells = []) ∧
    (onlyLeaf (leaf (fullLeaf + 2 ^ 55) 0) (slicePkt readLast) 0x10ff ∧ bitOf (fullLeaf + 2 ^ 55) 55 = true) ∧
    (onlyLeaf (leaf fullLeaf (2 ^ 63)) (slicePkt readLast) 0x10ff ∧ bitOf fullLeaf 55 = false ∧
      (parkedBy (leaf fullLeaf (2 ^ 63))).admits (2 ^ 63) (slicePkt readLast).src = false) ∧
    (onlyLeaf (leaf (fullLeaf - 2 ^ 61) 0) (slicePkt readLast) 0x10ff ∧ bitOf (fullLeaf - 2 ^ 61) 55 = false ∧
      (parkedBy (leaf fullLeaf 0)).admits 0 (slicePkt readLast).src = true ∧ bitOf (fullLeaf - 2 ^ 61) 61 = false) ∧
    (onlyLeaf (leaf (fullLeaf + 2 ^ 56) 0) (slicePkt readLast) 0x10ff ∧ bitOf (fullLeaf + 2 ^ 56) 61 = true ∧
      bitOf (fullLeaf + 2 ^ 56) 55 = false ∧ bitOf (fullLeaf + 2 ^ 56) 56 = true) ∧
    (owns (owned (sliceS { parked := [ticket] } [])) .port0 ∧ ((sliceS { parked := [ticket] } []).slice 0).parked = [ticket] ∧
      ticket.ticket = (0xfffff : BitVec 20).toNat ∧ ticket.behind = [] ∧ (sliceS {} []).hasLaunch ticket.pkt.lid = true) := by
  refine ⟨atHead_one _ _ _ rfl rfl rfl rfl, ?_⟩
  unfold onlyLeaf onlyStc owns; decide +kernel
/-- A spilled slot word at the record of a class 3 frame: word 0, armed at 2. -/
def fwdPkt (k : Nat) : Body := .fwd fp0 0 k .none 0x1000 0 u0
def fwdS (k : Nat) : State :=
  let s := sliceS { inq := [slicePkt (fwdPkt k)] } [(47, 0x80), (0x1005, 0x80), (0x1006, 2)]
  { s with slices := s.slices ++ [(defaultSlice 0x1000, { stc := [leaf fullLeaf 0] }), (defaultSlice 0x2000, { stc := [{ leaf fullLeaf 0 with page := 2, leaf := fullLeaf + 1 }] })] }
theorem fwdS_noLines (k : Nat) : ∀ m, ((fwdS k).slice m).lines = [] ∧ ((fwdS k).slice m).cells = [] := by
  intro m; simp only [State.slice, fwdS, sliceS, mget, List.cons_append, List.nil_append]
  split
  · exact ⟨rfl, rfl⟩
  · split
    · exact ⟨rfl, rfl⟩
    · split <;> exact ⟨rfl, rfl⟩
/-- A slice with a dirty line and two translations of the space, idle or with a command in progress. -/
def invS (cmd : Word) (inv : Nat) : State :=
  owned (sliceS { stc := [leaf fullLeaf 0, { leaf fullLeaf 0 with sid := 6 }], stcinv := cmd, inv := inv,
                  lines := [{ line10 with dirty := 0xff }] } [])
theorem witness_SlicesForwardAndInvalidate :
    (∃ s1, AtHead (fwdS 1) 0 (slicePkt (fwdPkt 1)) s1) ∧ (∃ s1, AtHead (fwdS 2) 0 (slicePkt (fwdPkt 2)) s1) ∧
    (∀ m, ((fwdS 1).slice m).lines = [] ∧ ((fwdS 1).slice m).cells = []) ∧ (∀ m, ((fwdS 2).slice m).lines = [] ∧ ((fwdS 2).slice m).cells = []) ∧
    ((fwdS 1).poison = [] ∧ hostHolds (fwdS 1) ∧ (0x1000 : Word).toNat % 64 = 0) ∧
    (let s1 := (fwdS 1).modSlice 0 fun x => { x with inq := [] }
     let p := slicePkt (fwdPkt 1)
     let l := (s1.translateAll (s1.homes 0 p) p (reqPieces p.body)).1
     l.failed = none ∧ l.pieces = [(0x1000, 0x1000, 8), (0x2000, 0x2000, 1)]) ∧
    (let v := (fwdS 1).pword 0x1000
     v.extractLsb' 32 13 = 0 ∧ bitOf v 47 = true ∧ (v.extractLsb' 48 16).toInt = 2) ∧
    paOf [(0x1000, 0x1000, 8), (0x2000, 0x2000, 1)] (0x1000 + 0) = 0x1000 ∧
    paOf [(0x1000, 0x1000, 8), (0x2000, 0x2000, 1)] (0x1000 + frameSize (fpCls fp0) + 0 / 4) = 0x2000 ∧
    (owns (invS 0 0) .port0 ∧ ¬owns (invS 0 0) .bmc ∧ bitOf ((invS 0 0).slice 0).stcinv 63 = false) ∧
    (bits 0 62 61 = 0 ∧ bits (2 ^ 61 + 5 * 2 ^ 45) 62 61 = 1 ∧ bits (2 ^ 62 + 5 * 2 ^ 45 + 0x1000) 62 61 = 2) ∧
    (let s := invS (2 ^ 63 + 2 ^ 11) 1
     (s.slice 0).inv = 1 ∧ bitOf (s.slice 0).stcinv 11 = true ∧ (s.slice 0).wins = [] ∧ (s.slice 0).wbs = [] ∧ bits (s.slice 0).stcinv 62 61 = 0 ∧
       (s.slice 0).lines = [{ line10 with dirty := 0xff }]) ∧
    ((invS (2 ^ 63) 2).slice 0).inv = 2 ∧ ((invS (2 ^ 63) 2).slice 0).parked = [] ∧ ((invS (2 ^ 63) 2).slice 0).wins = [] ∧
    ((invS (2 ^ 63) 2).slice 0).wbs = [] := by
  refine ⟨⟨_, ⟨by decide, rfl, rfl, [], rfl, rfl⟩, rfl⟩, ⟨_, ⟨by decide, rfl, rfl, [], rfl, rfl⟩, rfl⟩, fwdS_noLines 1, fwdS_noLines 2, ?_⟩
  unfold owns hostHolds; decide +kernel

/-! Donation units. -/

def tcb (n : BitVec 32) : Tcb := { entry := n, sid := 5, lid := 1, args := [1, 2, 3, 4, 5, 6] }
/-- A push of core 0. -/
def pushed : Packet := { kind := 0x0a, len := 2, sid := 5, lid := 1, body := .task [tcb 9] }
/-- The launch over groups 0 and 1: two groups wide and one high. -/
def wide1 : Launch := { run1 with ws := (List.range 14).map (fun k => run1.w k) ++ [0x1a000000000000] }
def units (u : DonUnit) (x : Core) : State :=
  { holds x with units := [(0, u)], dist := { launches := [(1, wide1)] }, acyc := 64 }
/-- A hungry core; one that was told of an empty deque at A-cycle 0; one with tokens. -/
def hungryCore (popAt : Map Nat) : Core := { freeCore with ni := { popAt := popAt } }
def busyCore (popAt : Map Nat) : Core := { freeCore with ni := { popAt := popAt }, ready := [(0, [{ fp := fp0 }])] }
def popped (t : Option Tcb) (at_ : Nat) : Core := { freeCore with ni := { pops := [(1, t, at_)] } }
def full64 : DonUnit := { deques := [(1, List.replicate 64 (tcb 0))], pushes := [pushed] }
def four : DonUnit := { deques := [(2, []), (3, []), (4, []), (5, [])], pushes := [pushed] }
theorem witness_PushesAndPops :
    (let s := units { deques := [(1, List.replicate 63 (tcb 0))], pushes := [pushed] } core0
     (s.unit 0).pushes = [pushed] ∧ pushed.body = .task [tcb 9] ∧ pushed.src.core.toNat = 0 ∧ s.unitFree 0 = true ∧ (s.unit 0).stealIn = [] ∧ s.asking 0 = none ∧
       ((s.unit 0).deques.map fun d => d.2.length).sum < 64 ∧ (s.unit 0).hasDeque 1 = true) ∧
    ¬((((units full64 core0).unit 0).deques.map fun d => d.2.length).sum < 64) ∧
    ¬(((units four core0).unit 0).hasDeque 1 = true ∨ ((units four core0).unit 0).deques.length < 4) ∧
    (let s := units { deques := [(1, [tcb 1])] } (hungryCore [])
     s.asks 0 1 = true ∧ s.unitFree (groupOf 0) = true ∧ s.asking (groupOf 0) = some 0 ∧ mhas (s.core 0).ni.popAt 1 = false) ∧
    (let s := units {} (hungryCore [(1, 64)])
     s.asks 0 1 = true ∧ s.asking 0 = some 0 ∧ (s.core 0).ni.popAt = [((1 : BitVec 32).toNat, 64)] ∧ 64 ≤ s.acyc) ∧
    (let s := units {} (busyCore [(1, 64)])
     s.hungry 0 1 = false ∧ (s.core 0).ni.popAt = [((1 : BitVec 32).toNat, 64)]) ∧
    (let s := units {} (popped (some (tcb 1)) 64)
     (s.core 0).ni.pops = [(1, some (tcb 1), 64)] ∧ noneDeferred s ∧ 64 ≤ s.acyc ∧ (tcb 1).args.length ≤ 6 ∧ (s.core 0).tokens.length < 256 ∧
       NextFrame s 0 0 (mkFp 0 0 16383 0 0)) ∧
    ((units {} (popped none 64)).core 0).ni.pops = [(1, none, 64)] ∧ (units {} (popped none 65)).acyc < 65 := by
  and_intros <;> first | decide +kernel | exact ⟨16383, [], by decide +kernel⟩ | exact holds_noneDeferred _ rfl
def stealReq : Packet := pkt (.stealReq 1 1)
def stealRep (l : List Tcb) : Packet := pkt (.stealRep 1 1 l)
theorem witness_IdleGroupsSteal :
    (let s := units {} (hungryCore [])
     s.groupIdle 0 1 = true ∧ (s.unit 0).stealing = [] ∧ (s.unit 0).waits = []) ∧
    (victim wide1 0 0 = some 1 ∧ ∀ j < 8, 1 ≤ j → victim wide1 0 j = none) ∧ (∀ j < 8, victim run1 0 j = none) ∧
    (let s := units { deques := [(1, (List.range 9).map fun k => tcb (BitVec.ofNat 32 k))], stealIn := [stealReq] } core0
     (s.unit 0).stealIn = [stealReq] ∧ stealReq.body = .stealReq 1 1 ∧ s.unitFree 0 = true ∧ s.asking 0 = none) ∧
    (let s := units { replies := [stealRep []], stealing := [(1, 0)] } core0
     (s.unit 0).replies = [stealRep []] ∧ (s.unit 0).stealing = [(1, 0)] ∧ (s.unit 0).waits = []) ∧
    (let ts := [tcb 1, tcb 2, tcb 3, tcb 4]
     let s := units { deques := [(1, List.replicate 60 (tcb 0))], replies := [stealRep ts], stealing := [(1, 0)] } core0
     (s.unit 0).replies = [stealRep ts] ∧ ts ≠ [] ∧ s.unitFree 0 = true ∧ (s.unit 0).stealIn = [] ∧ s.asking 0 = none ∧ (∀ t ∈ ts, t.lid = 1) ∧
       (s.unit 0).deques = [(1, (s.unit 0).deque 1)] ∧ ((s.unit 0).deque 1).length + ts.length ≤ 64) := by
  and_intros <;> decide +kernel

/-! The fabric. -/

/-- A packet of a kind that goes to core 33 of row 17, with slack or exhausted. -/
def fly (dst : Node) (slack : BitVec 10) (kind : BitVec 6) : Packet :=
  { dst := dst, src := ⟨0, 0, 0⟩, slack := slack, e := slack = 0, kind := kind, sid := 5, lid := 1, body := .read 0 8 .data .none }
def far : Node := ⟨0, BitVec.ofNat 11 (coreAt 33 17), 0⟩
def rt (r : Nat) (x : Router) : State := { holds core0 with routers := [(r, x)] }
def inp (p : Packet) : InPkt := { pkt := p, port := 4, lane := 1, at_ := 0, exh := if p.e then some 0 else none }
theorem witness_PacketsMoveThroughRouters :
    ((fly far 0 1).dst.pkg = (rt 0 {}).pkg ∧ (fly far 0 1).dst.port ≠ 2 ∧ ((rt 0 {}).router 0).tab = []) ∧
    (let s := rt 0 { merge := [(2, fly far 1 1)] }
     (s.router 0).draining = false ∧ (s.router 0).merge = [(2, fly far 1 1)] ∧ (s.router 0).ins = [] ∧ (fly far 1 1).malformed = false) ∧
    (let s := rt (neighbour 0 3) { lanes := [(laneKey (opposite 0 3) 7, { rx := [(fly far 0 1, 0)] })] }
     s.linkIn 0 3 = some (7, fly far 0 1, 0)) ∧ (fly far 0 0x3f).malformed = true ∧
    (let s := { rt 2048 {} with sysIn := [(5, fly far 0 1)] }
     s.sysIn = [(5, fly far 0 1)] ∧ (s.router 2048).draining = false ∧ (s.router 2048).systemSlot 5 (fly far 0 1) = some 1 ∧
       (s.router 2048).systemSlot 5 { fly far 0 1 with esc := true } = some (orderLane (fly far 0 1).vc) ∧
       ({ ins := [1, 2].map fun l => { inp (fly far 0 1) with port := 5, lane := l } } : Router).systemSlot 5 (fly far 0 1) = none) ∧
    (let s := rt 0 { ins := [inp (fly ⟨0, 0, 0⟩ 0 1)] }
     (s.router 0).ins = [inp (fly ⟨0, 0, 0⟩ 0 1)] ∧ (s.router 0).draining = false ∧ (s.router 0).rounds = [] ∧ s.ports 0 (fly ⟨0, 0, 0⟩ 0 1) = [4] ∧
       (s.router 0).ejBusy = []) ∧
    (let s := rt 0 { ins := [inp (fly far 1 1)] }
     (s.router 0).draining = false ∧ (inp (fly far 1 1)).exh = none ∧ 3 ∈ s.ports 0 (fly far 1 1) ∧ (s.router 0).rounds = [] ∧
       s.laneFor 0 3 (inp (fly far 1 1)) = some 1) ∧
    (let s := rt 0 { ins := [inp (fly far 1 1)], rounds := [(3 * 4 + vcCode (fly far 1 1).vc, 1)] }
     mget 0 (s.router 0).rounds (3 * 4 + vcCode (fly far 1 1).vc) = (s.router 0).fcyc + s.fcyc + 1) := by and_intros <;> decide +kernel
/-- The end report of a child. -/
def ended : Packet := { kind := 0x25, vc := .sys, sid := 5, lid := 1, body := .ack (.child 1 fp0 none) none }
theorem witness_SlackDrainsAndPacketsArrive :
    (let s := { rt 2048 { ins := [inp (fly far 1 1)] } with fcyc := 16 }
     (s.router 2048).draining = false ∧ ((s.router 2048).fcyc + s.fcyc) % 16 = 0 ∧
       (s.router 2048).ticked ≠ ((s.router 2048).fcyc + s.fcyc) / 16) ∧
    (((rt 0 {}).router 0).ticked = (((rt 0 {}).router 0).fcyc + (rt 0 {}).fcyc) / 16 ∧
      ¬((((rt 0 {}).router 0).fcyc + { rt 0 {} with fcyc := 17 }.fcyc) % 16 = 0)) ∧
    (let s := rt 0 { eject := [fly ⟨1, 0, 0⟩ 0 1] }
     (s.router 0).eject = [fly ⟨1, 0, 0⟩ 0 1] ∧ (fly ⟨1, 0, 0⟩ 0 1).malformed = false ∧ (fly ⟨1, 0, 0⟩ 0 1).dst.pkg ≠ s.pkg) ∧
    ((rt 0 {}).core 0).frozen = false ∧ isTask (fly ⟨0, 0, 0⟩ 0 1).body = false ∧ pushed.malformed = false ∧ pushed.dst.port = 0 ∧
    (isEndReport ended = true ∧ isEndReport (fly ⟨0, 0, 0⟩ 0 1) = false ∧ ended.malformed = false) ∧
    (∀ pt k, replyCont (fly ⟨0, 0, 2⟩ 0 1) ≠ some (.host pt k)) ∧
    (let s := { rt 0 {} with cores := [(0, { core0 with frozen := true })], dist := { img := 1 } }
     (s.core 0).frozen = true ∧ (fly ⟨0, 0, 0⟩ 0 1).vc ≠ .sys ∧ (s.core 0).inbox.length < s.inboxRoom ∧ (s.core 0).fwdTo = none) ∧
    (let s := { rt 0 {} with cores := [(0, { core0 with frozen := true })] }
     s.inboxRoom ≤ (s.core 0).inbox.length) ∧ (fly ⟨0, 0, 1⟩ 0 1).dst.port = 1 ∧ (fly ⟨0, 0, 2⟩ 0 1).dst.port = 2 := by
  and_intros <;> first | (intro _ _; nofun) | decide +kernel
def flit (seq : BitVec 8) (idx : Nat) : Flit := { seq := seq, idx := idx, slot := 1, pkt := fly far 0 1 }
/-- Lane 1 of the link from router 0 to the east; at its other end port 3 of router 1. -/
def link (x : Lane) : State := owned (rt 0 { lanes := [(laneKey 1 1, x)] })
theorem witness_LanesAndCreditsRecover : neighbour 1 3 = 0 ∧ opposite 1 3 = 1 ∧
    (let s := link { wire := [flit 0xff 0], expect := 0xff }
     ((s.router 0).lane 1 1).wire = [flit 0xff 0] ∧ (flit 0xff 0).seq = ((s.router 0).lane 1 1).expect) ∧
    crcBlind 1 = false ∧
    ((flit 66 0).seq ≠ (0 : BitVec 8) ∧ 64 < ((0 : BitVec 8) - (flit 66 0).seq).toNat) ∧
    (let l := ((link { naks := [2], unacked := [flit 1 0, flit 2 0], expect := 2, failed := 2, replays := 15 }).router 0).lane 1 1
     l.naks = [2] ∧ l.wire = [] ∧ l.replays < 16 ∧ l.retired = false ∧ (2 : BitVec 8) = l.expect ∧ l.failed = 2 ∧
       (∃ f ∈ l.unacked, f.seq = 2) ∧ (1 : BitVec 8) ≠ l.expect) ∧
    (let l := ((link { acks := [1], unacked := [flit 1 0, flit 2 0] }).router 0).lane 1 1
     l.acks = [1] ∧ l.unacked = [flit 1 0] ++ [flit 2 0] ∧ (∀ f ∈ [flit 1 0], ((1 : BitVec 8) - f.seq).toNat < 128) ∧
       ∀ f ∈ [flit 2 0].head?, 128 ≤ ((1 : BitVec 8) - f.seq).toNat) ∧
    (let s := link { naks := [2], unacked := [flit 2 0], expect := 2, failed := 2, replays := 16 }
     let l := (s.router 0).lane 1 1
     l.retired = false ∧ 16 ≤ l.replays ∧ l.failed = l.expect ∧ l.naks.head? = some l.expect ∧ (∀ f ∈ l.wire, f.seq ≠ l.expect) ∧
       ((s.router 0).lane 1 2).retired = false ∧ ((s.router 0).lane 1 2).unacked.length + l.pending.length ≤ 64 ∧
       bitOf s.io.own 63 = true) ∧
    (let s := rt 0 { lanes := [(laneKey 1 1, { unacked := [flit 2 0], expect := 2 }), (laneKey 1 2, { unacked := List.replicate 64 (flit 0 0) })] }
     64 < ((s.router 0).lane 1 2).unacked.length + ((s.router 0).lane 1 1).pending.length) ∧
    (let s := { link {} with fcyc := 256 }
     ((s.router 0).lane 1 1).resyncAt + 256 ≤ (s.router 1).fcyc + s.fcyc) ∧
    (let s := { link {} with fcyc := 255 }
     (s.router 1).fcyc + s.fcyc < ((s.router 0).lane 1 1).resyncAt + 256) ∧
    ((link { resyncs := [⟨(1, 0), 0, true⟩] }).router 0).lane 1 1 = { resyncs := [⟨(1, 0), 0, true⟩] } := by
  and_intros <;> first | exact ⟨flit 2 0, by decide +kernel⟩ | decide +kernel

/-! Launches and the distributor. -/

/-- The distributor with one launch, and the registers of the owner, port 0. -/
def dist1 (l : Launch) (x : Core) : State := owned { holds x with dist := { launches := [(1, l)] }, mem := validDir }
def submits (d : Dist) : State := owned { State.reset with dist := d, mem := validDir }
def launchPkt : Packet := pkt (.launch 0x2000 1 0 fp0 none 1)
def heldRes (own : Bool) (core : Nat) : PoolRes := ⟨1, own, core, 1⟩
def fullPool : List PoolRes := List.replicate 16 ⟨0, true, 0, 1⟩ ++ List.replicate 384 (heldRes false 0)
theorem witness_LaunchesAreSubmitted :
    (let s := submits { sub0 := 0x1ff80 }
     owns s .port0 ∧ ¬owns s .bmc ∧ bitOf (2 ^ 63 + 5) 63 = true ∧ bits s.dist.sub0 6 0 = 0 ∧ s.hasSpace 5 s.dist.sub0 = true ∧
       s.poolEntry 0 = some true) ∧
    (let s := submits { sub0 := 0x1ff80, held := fullPool }
     s.hasSpace 5 s.dist.sub0 = true ∧ s.poolEntry 0 = none) ∧
    bits (submits { sub0 := 0x1ffc0 }).dist.sub0 6 0 ≠ 0 ∧ (submits { sub0 := 0x1ff80 }).hasSpace 6 0x1ff80 = false ∧
    bitOf 5 63 = false ∧
    (let s := submits { inq := [launchPkt], held := [heldRes true 1, heldRes false 0] }
     s.dist.inq = [launchPkt] ∧ launchPkt.body = .launch 0x2000 1 0 fp0 none 1 ∧
       s.dist.held.find? (fun h => h.core = 0 && h.lid = 1) = some (heldRes false 0)) ∧
    (let s := dist1 run1 { core0 with ni := { resv := [(1, 1)] } }
     1 ∈ (s.core 0).lids ∧ (s.launch 1).phase = .resident ∧ (s.launch 1).depth < 7 ∧ s.poolEntry ((s.launch 1).depth + 1) = some true ∧
       mget 0 (s.core 0).ni.resv (1 : BitVec 32).toNat < 2) ∧
    2 ≤ mget 0 ((dist1 run1 { core0 with ni := { resv := [(1, 2)] } }).core 0).ni.resv (1 : BitVec 32).toNat := by
  unfold owns; and_intros <;> decide +kernel
/-- A submitted launch whose descriptor's bytes have come. -/
def readIn (ws : List Word) (need : Nat) (lost : List Nat) : Launch :=
  { run1 with phase := .submitted, ws := [], imgs := [(16, writeMap [] 0 (whole (ws.map wordBytes).flatten))], need := need, lost := lost }
def keptOf (s : State) : Launch :=
  let l := (s.takeImages 1).launch 1
  { l with ws := bytesWords (l.img 16 0 128), priv := bitOf ((bytesWords (l.img 16 0 128)).getD 14 0) 40 && l.parent.isNone, lhang := 24 }
theorem witness_DescriptorsAreReadAndChecked :
    (let s := dist1 (readIn run1.ws 1 []) core0
     s.hasLaunch 1 = true ∧ (s.launch 1).phase = .submitted ∧ (s.launch 1).ws = [] ∧ ((s.takeImages 1).launch 1).need ≠ 0) ∧
    (let s := dist1 (readIn run1.ws 0 []) core0
     let l := (s.takeImages 1).launch 1
     l.need = 0 ∧ l.lost = [] ∧ l.faulted = false ∧ (keptOf s).fieldBad = none ∧
       bits ((bytesWords (l.img 16 0 128)).getD 14 0) 29 25 = 0) ∧
    (let s := dist1 (readIn [0x10000, 0x0000020000000010, 0x0000004000000000] 0 []) core0
     let l := (s.takeImages 1).launch 1
     l.need = 0 ∧ l.lost = [] ∧ (keptOf s).fieldBad = some (1, 32)) ∧
    (let l := ((dist1 (readIn [] 0 [3]) core0).takeImages 1).launch 1
     l.need = 0 ∧ l.lost ≠ []) := by decide +kernel
/-- A queued launch, and a free package. -/
def queued (l : Launch) : State :=
  { State.reset with dist := { launches := [(1, l)] }, acyc := 900000 }
def wholePkg : Launch := { run1 with phase := .queued, ws := run1.ws ++ List.replicate 11 0 ++ [0x35000000000000] }
theorem queued_noRestore (l : Launch) (h : l.frozen = .no) (p : Nat) : (queued l).restoreReady p = none := by
  simp [State.restoreReady, queued, State.launches, h, sortBy]
theorem reset_noScan (p : Nat) : State.reset.scan p = none := by
  simp only [State.scan, List.findSome?_eq_none_iff]
  intro q _; split
  · rfl
  · simp [State.headOf, State.launches, State.reset]
theorem queued_noScan (p : Nat) (h : 0 < p) : (queued wholePkg).scan p = none := by
  simp only [State.scan, List.findSome?_eq_none_iff]
  intro q hq; rw [if_pos]
  have : ∀ q < 16, (queued wholePkg).queuePrio q = 0 := by decide +kernel
  simp only [List.mem_map, List.mem_range] at hq
  obtain ⟨k, _, rfl⟩ := hq
  rw [this _ (Nat.mod_lt _ (by decide))]; simp; omega
theorem witness_DecisionsPlaceLaunches :
    ({ queued wholePkg with dist := { decideAt := 900001 } } : State).acyc < 900001 ∧
    ((queued wholePkg).dist.decideAt ≤ (queued wholePkg).acyc ∧ (queued wholePkg).reservedReady = none ∧
      (∀ p, (queued wholePkg).restoreReady p = none) ∧ (∀ r, 0 < r → (queued wholePkg).scan r = none) ∧
      (queued wholePkg).scan 0 = some (0, 1, (0, 0), false) ∧ (queued wholePkg).hasLaunch 1 = true) ∧
    (State.reset.dist.decideAt ≤ State.reset.acyc ∧ State.reset.reservedReady = none ∧ (∀ p, State.reset.restoreReady p = none) ∧
      ∀ p, State.reset.scan p = none) ∧
    ((queued wholePkg).launch 1).phase = .queued ∧ ((queued wholePkg).launch 1).reserved = none ∧
    (queued wholePkg).nestable ((queued wholePkg).launch 1) = false ∧
    (queued { wholePkg with bornAt := 50000 }).acyc ≤ 50000 + 850000 ∧ 49999 + 850000 < (queued { wholePkg with bornAt := 49999 }).acyc ∧
    (0, 0) ∈ origins wholePkg.width wholePkg.height ∧ earlierRects (queued wholePkg) wholePkg = [] ∧ wholePkg.faulted = false ∧
    (queued wholePkg).launches.map (fun m => m.olderThan wholePkg) = [false] ∧
    (let s := queued { wholePkg with lid := 2, seq := 1 }
     let s := { s with dist := { s.dist with launches := s.dist.launches ++ [(2, wholePkg)] } }
     ∃ m ∈ s.launches, s.reserves m = true ∧ m.olderThan (s.launch 1) = true ∧ (0, 0) ∈ origins m.width m.height ∧
       earlierRects s m = []) := by
  refine ⟨by decide, ⟨by decide, by decide +kernel, queued_noRestore _ rfl, queued_noScan, by decide +kernel, by decide⟩,
    ⟨by decide, by decide, fun p => by simp [State.restoreReady, State.launches, State.reset, sortBy], reset_noScan⟩, ?_⟩
  and_intros <;> first | exact ⟨wholePkg, by decide +kernel⟩ | decide +kernel
/-- A child of launch 1, of one core, submitted from core 0. -/
def child2 : Launch := { run1 with phase := .queued, lid := 2, parent := some 1, pcore := 0 }
/-- Core 0 with n launches, a child waiting beside them. -/
def family (n : Nat) : State :=
  { State.reset with cores := [(0, { core0 with lids := List.replicate n 1 })], dist := { launches := [(1, run1), (2, child2)] } }
def reservedAt0 : Launch := { wholePkg with reserved := some (0, 0) }
theorem witness_PlacementsFitAndTakeTurns :
    ((queued wholePkg).headOf 0 = some wholePkg ∧ waitsIn (queued wholePkg) 0 wholePkg) ∧
    (let s := family 7
     (s.launch 1).phase = .resident ∧ child2.width ≤ (s.launch 1).width ∧ child2.height ≤ (s.launch 1).height ∧ child2.w 8 = 0 ∧
       child2.w 9 = 0 ∧ (s.launch 1).frozen = .no ∧ ∀ c ∈ rectCores 0 0 child2.width child2.height, s.holding c < 8) ∧
    (∃ c ∈ rectCores 0 0 child2.width child2.height, 8 ≤ (family 8).holding c) ∧
    (wholePkg.parent = none ∧ wholePkg.reserved = none ∧ (queued wholePkg).canPlace wholePkg = some ((0, 0), false)) ∧
    (∀ c, ¬heldBy (queued reservedAt0) c) ∧ (0 ∈ rectCores 0 0 wholePkg.width wholePkg.height ∧ heldBy (family 1) 0) ∧
    (family 1).canPlace { wholePkg with lid := 3 } = none ∧
    ((queued reservedAt0).dist.decideAt ≤ (queued reservedAt0).acyc ∧ (queued reservedAt0).reservedReady = some (1, (0, 0)) ∧
      (queued reservedAt0).hasLaunch 1 = true) ∧
    ((queued wholePkg).reservedReady = none ∧ (∀ p, (queued wholePkg).restoreReady p = none) ∧ (∀ r, 0 < r → (queued wholePkg).scan r = none) ∧
      (queued wholePkg).scan 0 = some (0, 1, (0, 0), false)) := by
  refine ⟨?_, ?_, ⟨0, by decide +kernel⟩, by decide +kernel, ?_, ?_, by decide +kernel, by decide +kernel, ?_⟩
  · unfold waitsIn; decide +kernel
  · decide +kernel
  · rintro c (h | h | ⟨l, hl, _, _, h, _⟩)
    · exact h rfl
    · exact h rfl
    · have : l = reservedAt0 := by simpa [State.launches, queued] using hl
      subst this; revert h; decide
  · exact ⟨by decide +kernel, .inl (by decide)⟩
  · exact ⟨by decide +kernel, queued_noRestore _ rfl, queued_noScan, by decide +kernel⟩
/-- A launch on its way to core 0. -/
def placing (l : Launch) (off : Map Bool) (x : Core) : State :=
  { State.reset with cores := [(0, x)], dist := { launches := [(1, l)], off := off }, acyc := 5000 }
def inPhase (p : LPhase) : Launch := { run1 with phase := p }
def zeroes (t : Nat) : Launch := { inPhase .zeroing with zeroAt := t }
def wakes : Launch := { inPhase .waking with wakeAt := 5000 }
def bodiesIn : Launch := { inPhase .placing with bodies := true }
/-- Its slack table has a reserved bit set. -/
def oldPlacing (off : Map Bool) : State := placing bodiesIn off { lastSid := some 6, woken := true }
theorem placing_noneDeferred (l : Launch) (off : Map Bool) (x : Core) (h : x.defer = []) : noneDeferred (placing l off x) := by
  intro c; simp only [State.core, placing, mget]; split <;> simp_all
def badSlack : Launch :=
  { bodiesIn with ws := run1.ws ++ [0, 0, 0x3000], imgs := [(5, [(1, 0xff)])] }
theorem witness_PlacedLaunchesStart :
    Sound (placing (zeroes 5000) [] {}) (zeroes 5000) ∧ Sound (placing (zeroes 5001) [] {}) (zeroes 5001) ∧
    (let s := placing wakes [(0, true)] {}
     Sound s wakes ∧ ∃ c ∈ run1.cores, s.sgpOff (sgpOf c) = true) ∧
    (let s := placing bodiesIn [] { lastSid := some 5 }
     Sound s bodiesIn ∧ bodiesIn.imageBad = none ∧ s.dist.inq = [] ∧
       bodiesIn.lost = [] ∧ ∀ c ∈ bodiesIn.cores, s.sgpOff (sgpOf c) = false ∧ (s.core c).woken = false ∧ (s.core c).lastSid.all (· = bodiesIn.sid) = true) ∧
    (let s := placing bodiesIn [(0, true)] {}
     Sound s bodiesIn ∧ ∃ c ∈ bodiesIn.cores, s.sgpOff (sgpOf c) = true) ∧
    (Sound (placing badSlack [] {}) badSlack ∧ badSlack.imageBad = some (22, badSlack.desc, 0x500)) ∧
    (let s := oldPlacing []
     Sound s bodiesIn ∧ (∀ c ∈ bodiesIn.cores, s.sgpOff (sgpOf c) = false) ∧ ∃ c ∈ bodiesIn.cores, (s.core c).lastSid = some 6 ∧ (6 : Half) ≠ bodiesIn.sid) ∧
    (Sound (placing (zeroes 5000) [] { lastSid := some 6, scr := [(7, 1)] }) (zeroes 5000)) ∧
    (∀ l off, noneDeferred (placing l off {}) ∧ noneDeferred (placing l off { lastSid := some 5 }) ∧
      noneDeferred (placing l off { lastSid := some 6, scr := [(7, 1)] }) ∧ noneDeferred (oldPlacing off)) := by
  unfold Sound; and_intros <;> first | exact fun l off => ⟨placing_noneDeferred _ _ _ rfl, placing_noneDeferred _ _ _ rfl, placing_noneDeferred _ _ _ rfl, placing_noneDeferred _ _ _ rfl⟩ | decide +kernel
def power (d : Dist) (x : List (Nat × Core)) : State := { State.reset with cores := x, dist := d, acyc := 2 ^ 20 }
theorem witness_PowerFollowsUse :
    ((power { newLevels := some ([(0, 3)], 5) } []).dist.newLevels = some ([(0, 3)], 5) ∧
      (power { newLevels := some ([(0, 3)], 5) } []).dist.recompute = false) ∧
    ((power {} []).sgpOff 31 = false ∧ (power {} []).sgpIdle 31 = true ∧ mget 0 (power {} []).dist.idleSince 31 + 2 ^ 20 ≤ (power {} []).acyc) ∧
    (let s := power { idleSince := [(31, 1)] } []
     s.sgpIdle 31 = true ∧ s.acyc < mget 0 s.dist.idleSince 31 + 2 ^ 20) ∧
    (power { launches := [(1, run1)] } [(0, core0)]).sgpIdle 0 = false := by decide +kernel
theorem witness_LevelsAreLoweredInOrder :
    (power {} []).sgpOff 31 = false ∧ (power {} []).sgpIdle 31 = true ∧ mget 0 (power {} []).dist.idleSince 31 + 2 ^ 20 ≤ (power {} []).acyc ∧
      (power {} []).dist.newLevels = none := by decide +kernel
/-- A sweep under way. -/
def sweeps (l : Launch) (asked : List Nat) (a b : BitVec 32) : State :=
  { holds core0 with dist := { launches := [(1, l)], sweep := { on := true, asked := asked, sums := [(1, (a, b, true, false))] } }, fcyc := 512 }
def quiet1 : Launch := { run1 with lastS := some (4, 4), lastIdle := true }
theorem witness_SweepsFindTheEnd :
    (let s : State := { holds core0 with fcyc := 512 }
     s.dist.sweep.on = false ∧ s.dist.sweep.at_ + 512 ≤ s.fcyc ∧ (s.launch 1).phase = .resident ∧
       s.dist.launches = [((1 : BitVec 32).toNat, s.launch 1)] ∧ (s.launch 1).lid = 1) ∧
    (let s := sweeps run1 [] 0 0
     s.dist.sweep.on = true ∧ 0 ∉ s.dist.sweep.asked ∧ s.dist.sweep.sums = [((1 : BitVec 32).toNat, (0, 0, true, false))] ∧
       0 ∈ (s.launch 1).nodes) ∧
    (let s := sweeps quiet1 [0, 2048] 4 4
     let l := s.launch 1
     s.dist.sweep.sums = [((1 : BitVec 32).toNat, (4, 4, true, false))] ∧ (∀ n ∈ l.nodes, n ∈ s.dist.sweep.asked) ∧ s.hasLaunch 1 = true ∧
       l.phase = .resident ∧ s.dist.waves = [] ∧ l.faulted = false ∧ l.frozen = .no ∧ l.lastIdle = true ∧ l.lastS = some (4, 4) ∧
       l.openEps = []) ∧
    (let s := sweeps run1 [0, 2048] 4 3
     s.dist.sweep.sums = [((1 : BitVec 32).toNat, (4, 3, true, false))] ∧ (∀ n ∈ (s.launch 1).nodes, n ∈ s.dist.sweep.asked) ∧
       (4 : BitVec 32) ≠ 3) := by and_intros <;> decide +kernel
def late (l : Launch) (x : Core) : State := { dist1 l x with acyc := 2 ^ 24 }
/-- A launch whose endpoint 3 binds an ingress word. -/
def binds1 : Launch := { quiet1 with ws := run1.ws ++ List.replicate 7 0 ++ [0x4000], imgs := [(10, [(119, 0x80)])] }
/-- A sweep under way, of a launch of which a donation unit holds a block. -/
def sweepsUnit : State :=
  { sweeps run1 [0] 0 0 with units := [(0, { deques := [(1, [{}])] })] }
theorem witness_ActivityHoldsTheEnd :
    (let s := sweeps run1 [] 0 0
     s.dist.sweep.on = true ∧ 0 ∉ s.dist.sweep.asked ∧ s.dist.sweep.sums = [((1 : BitVec 32).toNat, (0, 0, true, false))] ∧
       0 ∈ (s.launch 1).nodes ∧ ¬coreKeepsRunning s 0 1 ∧ 2048 + 0 ∈ (s.launch 1).nodes ∧ ¬unitKeepsRunning s 0 1) ∧
    coreKeepsRunning { sweeps run1 [] 0 0 with cores := [(0, { core0 with fr := { core0.fr with announced := [1] } })] } 0 1 ∧
    unitKeepsRunning sweepsUnit 0 1 ∧
    (let s := sweeps binds1 [0, 2048] 4 4
     s.hasLaunch 1 = true ∧ (s.launch 1).phase = .resident ∧ s.dist.waves = [] ∧ (s.launch 1).nested = false ∧ (s.launch 1).w 10 ≠ 0 ∧
       ∃ e < 256, bitOf ((s.launch 1).imgWord 10 (32 * e + 16)) 63 = true ∧ e ∉ (s.launch 1).closed) ∧
    (let s := sweeps quiet1 [0, 2048] 4 4
     (∀ n ∈ (s.launch 1).nodes, n ∈ s.dist.sweep.asked) ∧ (s.launch 1).lastIdle = true ∧ (s.launch 1).lastS = some (4, 4) ∧
       (s.launch 1).w 10 = 0 ∧ (s.launch 1).faulted = false ∧ (s.launch 1).frozen = .no) := by
  refine ⟨?_, ?_, .inl (by decide +kernel), ?_, by decide +kernel⟩
  · refine ⟨by decide, by decide, by decide, by decide, ?_, by decide, ?_⟩
    · rintro (h | h | h | h | h | h | h | h | h | h | h | h | h | h | h | h) <;> revert h <;> decide +kernel
    · rintro (h | h | h | h | h) <;> revert h <;> decide +kernel
  · exact .inr (.inr (.inr (.inr (.inr (.inr (.inr (.inr (.inr (.inr (.inr (.inr (.inl (by decide +kernel)))))))))))))
  · exact ⟨by decide +kernel, by decide +kernel, by decide +kernel, by decide +kernel, by decide +kernel, 3, by decide +kernel⟩
theorem witness_FailedAndHungLaunchesStop :
    (let s := dist1 { run1 with faulted := true, phase := .queued } core0
     s.hasLaunch 1 = true ∧ (s.launch 1).nested = false ∧ (s.launch 1).faulted = true ∧ (s.launch 1).frozen = .no ∧
       (s.launch 1).phase = .queued ∧ (s.launch 1).need = 0) ∧
    (let s := dist1 { run1 with faulted := true } { core0 with ctxs := [(0, ctx0 {})] }
     (s.launch 1).faulted = true ∧ (s.launch 1).phase = .resident ∧ 0 ∈ (s.launch 1).cores ∧ (s.ctx 0 0).bound = true ∧
       (s.ctx 0 0).lid = 1 ∧ (s.ctx 0 0).work.active = false) ∧
    (let s := late run1 core0
     (s.launch 1).phase = .resident ∧ (s.launch 1).faulted = false ∧ (s.launch 1).waitMapped = false ∧ (s.launch 1).frozen = .no ∧
       (s.launch 1).busyAt + 2 ^ (s.launch 1).lhang ≤ s.acyc ∧ s.canFreeze 1 = true ∧ bitOf s.dist.frz 62 = false) ∧
    (let s := late { run1 with busyAt := 1 } core0
     s.acyc < (s.launch 1).busyAt + 2 ^ (s.launch 1).lhang) ∧
    (let s := late { run1 with frozen := .inPlace, hung := true } core0
     (s.launch 1).frozen = .inPlace ∧ (s.launch 1).hung = true) := by decide +kernel
def aRecord : FRec := { w0 := 0x0100000500000000, w1 := 0, w2 := 0, w3 := 0 }
/-- A log whose table is at 0x100000; that of space 5 has 4 entries at 0x400000, with HEAD as given and TAIL 0. -/
def logs (head : Byte) (base : List Host.Cell) (flog : Word) : State :=
  { State.reset with
    io := { own := 2 ^ 63, flog := flog, recIn := [aRecord] }
    mem := base ++ [(0x100148, 4)] ++ if head = 0 then [] else [(0x100150, head)] }
def logBase : List Host.Cell := [(0x100142, 0x40)]
theorem witness_FaultRecordsAreAppended :
    (logs 0 [] 0).io.recIn[0]? = some aRecord ∧ bits aRecord.w0 47 32 = 5 ∧
    ((logs 0 [] 0x100000).pword (0x100000 + 64 * 5)).toNat = 0 ∧
    (let s := logs 4 logBase 0x100000
     let e := 0x100000 + 64 * 5
     (s.pword (e + 16) - s.pword (e + 24)).toNat = bits (s.pword (e + 8)) 31 0) ∧
    (let s := logs 3 logBase 0x100000
     let e := 0x100000 + 64 * 5
     (s.pword e).toNat ≠ 0 ∧ (s.pword (e + 16) - s.pword (e + 24)).toNat ≠ bits (s.pword (e + 8)) 31 0 ∧
       bitOf s.io.own 63 = true ∧ (e + 24 ≤ (s.pword e).toNat + 64 * 3)) := by decide +kernel

/-! Dusk and the debugger. -/

def froze (f : Frozen) : Launch := { run1 with frozen := f }
def waves (l : Launch) (op : Nat) (x : Core) : State :=
  { late l x with dist := { launches := [(1, l)], frz := 0x4000000000000000, wave := some { op := op, lid := 1, stopAt := 0 } } }
theorem witness_WavesStopAndDrain :
    (owns (late run1 core0) .port0 ∧ ¬owns (late run1 core0) .port1 ∧ bitOf (late run1 core0).dist.frz 62 = false ∧
      (late run1 core0).canFreeze 1 = true ∧ bitOf (waves run1 0 core0).dist.frz 62 = true ∧ owns (waves run1 0 core0) .port0) ∧
    (let s := waves (froze .stopping) 0 { core0 with ctxs := [(0, ctx0 {})] }
     (s.launch 1).frozen = .stopping ∧ (s.launch 1).cores.all (s.drained (s.launch 1).cores) = false ∧
       (∃ c ∈ (s.launch 1).cores, ∃ q ∈ (s.core c).ctxs, q.2.bound = true) ∧ 0 + 2 ^ (s.launch 1).lhang ≤ s.acyc ∧ s.hasLaunch 1 = true) ∧
    ∀ op < 2, let s := waves (froze .stopping) op core0
      (s.launch 1).frozen = .stopping ∧ (s.launch 1).cores.all (s.drained (s.launch 1).cores) = true ∧
        (s.launch 1).groups.all (s.unitDrained (s.launch 1).cores (s.waveSet 1)) = true := by
  unfold owns; and_intros <;> decide +kernel
def oldCore (p : Packet) : State :=
  { dist1 run1 { core0 with lids := [], inbox := [p] } with
    dist := { launches := [(1, run1)], waves := [{ op := 3, lid := 1, stopAt := 0, oldCores := [(0, 1)] }] } }
def otherSpace : Packet := { pkt (.read 0 8 .data .none) with sid := 6 }
/-- Launch 1 hung on core 0, which holds an armed slot at word 2 of its frame; the wait map of space 5 at 0x1000 has room for n entries. -/
def hangs (n : Nat) : State :=
  (({ late { run1 with frozen := .inPlace, hung := true } { core0 with scr := [(64 * u0 + 21, 0x80)] } with mem := [] }).pwriteWord
    (320 + 40) 0x1000).pwriteWord (320 + 48) (BitVec.ofNat 64 n)
theorem witness_WaitMapsListWhatWaits :
    ∀ n < 3, let s := hangs n
      let l := s.launch 1
      s.hasLaunch 1 = true ∧ l.phase = .resident ∧ l.nested = false ∧ l.faulted = false ∧ l.waitMapped = false ∧ l.hung = true ∧
        l.frozen = .inPlace ∧ l.lid = 1 ∧ bits (s.pword (64 * l.sid.toNat + 48)) 31 0 = n ∧ (s.pword (64 * l.sid.toNat + 40)) = 0x1000 ∧
        waitList s l (s.waveSet 1) = [[0x0100000000020000, fp0, 0x800000000000, 0]] := by decide +kernel
def heldTok : Token := { fp := fp0, pos := 0x60 }
/-- A drained core with a token, a held token, a deferred request and a row of scratch written. -/
def drained0 : Core :=
  { core0 with ready := [(0, [heldTok])], hold := [heldTok], defer := [⟨0x40, pkt (.fe .ldfe (wd 0x40) 0 (.word fp0 1 .z64 none))⟩], touched := [(3, true)] }
theorem witness_ReadoutsWriteTheImage :
    let s := waves (froze .stopping) 0 drained0
    (s.launch 1).frozen = .stopping ∧ (s.launch 1).cores.all (s.drained (s.launch 1).cores) = true ∧
      (s.launch 1).groups.all (s.unitDrained (s.launch 1).cores (s.waveSet 1)) = true ∧ s.hasLaunch 1 = true ∧ (s.launch 1).lid = 1 ∧
      (s.launch 1).cores[0]? = some 0 ∧ (s.launch 1).groups[0]? = some 0 ∧ (drained0.tokens.filter fun y => y.place.isNone)[0]? = some heldTok ∧
      drained0.hold[0]? = some heldTok ∧ drained0.byBank[0]?.isSome = true ∧ mget false drained0.touched 3 = true := by decide +kernel
theorem witness_ThawRestoreAndForward :
    (let s := dist1 (froze .inPlace) { core0 with frozen := true, stopped := true, park := true, inbox := [otherSpace] }
     owns s .port0 ∧ ¬owns s .bmc ∧ bitOf s.dist.frz 62 = false ∧ s.hasLaunch 1 = true ∧ (s.launch 1).nested = false ∧
       (s.launch 1).frozen = .inPlace ∧ ∀ q ∈ (s.core 0).inbox, isTask q.body = false) ∧
    (let s := dist1 (froze .image) { core0 with frozen := true }
     owns s .port0 ∧ bitOf s.dist.frz 62 = false ∧ (s.launch 1).nested = false ∧ (s.launch 1).frozen = .image) ∧
    (let s := oldCore (pkt (.read 0 8 .data .none))
     s.dist.waves = [{ op := 3, lid := 1, stopAt := 0, oldCores := [(0, 1)] }] ∧ (s.core 0).inbox = [pkt (.read 0 8 .data .none)] ∧
       (pkt (.read 0 8 .data .none)).sid = (s.launch 1).sid ∧ (pkt (.read 0 8 .data .none)).dst = ⟨s.pkg, BitVec.ofNat 11 0, 0⟩) ∧
    (otherSpace.sid ≠ ((oldCore otherSpace).launch 1).sid ∧ isTask otherSpace.body = false) := by unfold owns; decide +kernel
/-- Launch 1, read out, is to be restored, with PIN on core 0, else on the whole package. Core 0 ran another space since where it is unclean. -/
def restoring (pin : Bool) (off : Map Bool) (y : Half) : State :=
  { State.reset with
    cores := [(0, { lastSid := some y })]
    dist := { launches := [(1, { froze .restoring with ws := run1.ws ++ List.replicate 11 0 ++ [if pin then 0x20000000000 else 0x35000000000000] })], off := off,
              images := [{ lid := 1, cores := [(0, core0)], units := [] }] } }
theorem restoring_noScan (pin off y p) : (restoring pin off y).scan p = none := by
  simp only [State.scan, List.findSome?_eq_none_iff]
  intro q _; split
  · rfl
  · simp [State.headOf, State.launches, restoring, froze, run1]
theorem restoring_noRestore (pin off y) (p : Nat) (h : 0 < p) : (restoring pin off y).restoreReady p = none := by
  have : ¬(0 : Nat) = p := by omega
  simp [State.restoreReady, restoring, State.launches, froze, run1, sortBy, this]
theorem witness_RestoresArePlaced :
    let s := restoring true [] 5
    let l := s.launch 1
    s.dist.decideAt ≤ s.acyc ∧ s.restoreReady 0 = some (1, (0, 0)) ∧ s.hasLaunch 1 = true ∧ l.faulted = false ∧ l.lid = 1 ∧
      1 ∈ s.waveSet 1 ∧ l.ox + l.width ≤ 64 ∧ l.oy + l.height ≤ 32 ∧ s.dist.launches = [((1 : BitVec 32).toNat, l)] ∧ l.sid = 5 ∧
      (s.core 0).lastSid = some 5 ∧ (s.core 0).woken = false ∧ s.sgpOff (sgpOf 0) = false := by decide +kernel
theorem witness_RestoresArePlaced_unclean :
    (restoring true [] 6).reservedReady = none ∧ (restoring true [] 5).reservedReady = none ∧
    (restoring false [] 5).restoreReady 0 = some (1, (0, 0)) ∧ (restoring true [] 6).restoreReady 0 = some (1, (0, 0)) ∧ ((restoring true [] 6).core 0).lastSid = some 6 ∧
    (restoring true [] 6).dist.images.map (·.lid) = [1] ∧ rectCores 0 0 1 1 = [0] := by decide +kernel
theorem witness_RestoresArePlaced_off :
    (restoring true [(0, true)] 5).restoreReady 0 = some (1, (0, 0)) ∧ (restoring true [(0, true)] 5).sgpOff (sgpOf 0) = true ∧
    ∀ p, 0 < p → ∀ pin off y, (restoring pin off y).restoreReady p = none ∧ (restoring pin off y).scan p = none :=
  ⟨by decide +kernel, by decide +kernel, fun p h pin off y => ⟨restoring_noRestore pin off y p h, restoring_noScan pin off y p⟩⟩
/-- A launch at (36, 20) of size 2 × 2 . -/
def at36 : Launch := { run1 with ox := 36, oy := 20, ws := run1.ws ++ List.replicate 11 0 ++ [0x9000000000000] }
theorem witness_BlocksAreReadBack :
    (∀ y ∈ core0.tokens, y.place = none) ∧ (let l := froze .no
     l.ox + l.width ≤ 64 ∧ l.oy + l.height ≤ 32 ∧ inImage State.reset l fp0 ≠ fp0) ∧
    at36.ox = 36 ∧ at36.oy = 20 ∧ at36.width = 2 ∧ at36.height = 2 ∧ at36.frs = 0x40000 ∧ State.reset.pkg = 0 := by decide +kernel
theorem test_imageForm : inImage State.reset at36 0x00002b2838040340 = 0x0000020838040341 ∧
    fromImage 0 at36 (8, 4) 0x0000020838040341 = 0x00000a4838040340 := by decide +kernel
theorem witness_TheDebuggerReleases :
    (let s := dist1 run1 { core0 with hold := [{ fp := fp0, pos := 0x60 }], loader := { halted := true, pc := 8, present := true } }
     owns s .port0 ∧ ¬owns s .bmc ∧ bitOf 0 63 = false ∧ bitOf (2 ^ 63) 63 = true ∧ bits (2 ^ 63) 42 32 = 0 ∧
       (s.core 0).hold[bits (2 ^ 63) 3 0]? = some { fp := fp0, pos := 0x60 } ∧ (s.core 0).tokens.length < 256 ∧
       ((s.core 0).lsCore false).halted = true ∧ ((s.core 0).lsCore true).halted = false) ∧
    (let s := owned { State.reset with dist := { launches := [(1, froze .inPlace)], dbgCtl := 2 ^ 63 + 1 } }
     owns s .port0 ∧ bitOf (2 ^ 62) 63 = false ∧ bitOf (2 ^ 62) 62 = true ∧ bitOf 0 62 = false ∧
       s.launch (s.dist.dbgCtl.extractLsb' 0 32) = froze .inPlace ∧ s.debugged (froze .inPlace).lid = true ∧ s.hasLaunch 1 = true ∧
       (froze .inPlace).frozen = .inPlace) := by unfold owns; decide +kernel

/-! The I/O die. -/

/-- The I/O die after Daybreak, with the link of port 0 trained. -/
def ioS (own : Word) (acyc : Nat) : State :=
  { State.reset with io := { own := own, dbk := 2 ^ 63, trained := [(0, 0x100000)] }, acyc := acyc }
theorem witness_OwnershipChangesHands :
    (ioS 0 0).linked .port1 = false ∧ (ioS 0 0).linked .port0 = true ∧ bitOf (ioS 0 0).io.own 63 = false ∧
    (let s := ioS (2 ^ 63 + 2 ^ 61 + 2 ^ 58 + 5) 0
     s.linked .port0 = true ∧ bitOf s.io.own 58 = true ∧ bits s.io.own 60 59 = Party.code .port0) ∧
    (let s := ioS (2 ^ 63 + 2 ^ 62) 0
     bitOf s.io.own 63 = true ∧ ¬(bitOf s.io.own 58 = true ∧ bits s.io.own 60 59 = Party.code .port0) ∧ owns s .bmc ∧ ¬owns s .port0) ∧
    (let s := ioS (2 ^ 63) 85000000
     owns s .port0 ∧ bitOf s.io.own 63 = true ∧ s.io.lastFlit + 85000000 ≤ s.acyc) ∧
    (ioS (2 ^ 63) 84999999).acyc < (ioS (2 ^ 63) 84999999).io.lastFlit + 85000000 ∧
    (let s := { ioS 0 7 with io := { (ioS 0 7).io with claimAt := some (7, 1) } }
     s.io.claimAt = some (s.acyc, 1) ∧ Party.code .port0 < 1 ∧ 1 ≤ Party.code .port1 ∧ s.acyc ≠ 8 ∧ (ioS 0 7).io.claimAt = none) := by
  unfold owns; decide +kernel
/-- Firmware of one image of version 3, with fuses that ask for a version. -/
def fuses (svn : Nat) : State := { owned State.reset with io := { own := 2 ^ 63, svn := svn, firmware := [([], 3, [], [])] } }
def attests (ctl : Word) : State := { ioS 0 0 with io := { (ioS 0 0).io with attCtl := ctl } }
theorem witness_DaybreakAndAttestation :
    (bitOf State.reset.io.dbk 63 = false ∧ bitOf State.reset.io.dbk 62 = false ∧
      ∀ f ∈ State.reset.io.firmware, imageGood State.reset.io.svn f = true) ∧
    ((fuses 4).io.firmware.findIdx? (fun f => !imageGood (fuses 4).io.svn f) = some 0 ∧ bitOf (fuses 4).io.dbk 63 = false ∧
      bitOf (fuses 4).io.dbk 62 = false) ∧
    bitOf (ioS 0 0).io.dbk 63 = true ∧
    (owns (fuses 0) .port0 ∧ ¬owns (fuses 0) .bmc ∧ (fuses 0).io.firmware ≠ [] ∧ (3 : Word).toNat ≤ 64 ∧ (4 : Word).toNat ≤ 64 ∧
      (∀ f ∈ (fuses 0).io.firmware, (3 : Word).toNat ≤ f.2.1) ∧ ∃ f ∈ (fuses 0).io.firmware, f.2.1 < (4 : Word).toNat) ∧
    ((attests 0).linked .port0 = true ∧ bitOf (attests 0).io.attCtl 62 = false) ∧
    ((attests (2 ^ 62)).linked .port0 = true ∧ bitOf (attests (2 ^ 62)).io.attCtl 62 = true) ∧ (attests 0).linked .port1 = false := by
  refine ⟨⟨by decide, by decide, by simp [State.reset]⟩, ⟨by simp [fuses, imageGood, List.findIdx?, List.findIdx?.go], by decide, by decide⟩, ?_⟩
  unfold owns; decide +kernel
def retires (l : Launch) (sdel : Word) : State := { dist1 l core0 with io := { own := 2 ^ 63, sdel := sdel } }
theorem witness_DaybreakChecksAndReports :
    (bitOf State.reset.io.dbk 63 = false ∧ bitOf State.reset.io.dbk 62 = false ∧ ∀ f ∈ State.reset.io.firmware, imagePasses State.reset f) ∧
    ((∃ h : 0 < (fuses 4).io.firmware.length, ¬imagePasses (fuses 4) (fuses 4).io.firmware[0]) ∧ bitOf (fuses 4).io.dbk 63 = false ∧
      bitOf (fuses 4).io.dbk 62 = false) ∧
    (let s := { attests (2 ^ 62) with io := { (attests (2 ^ 62)).io with measures := [List.replicate 32 7] } }
     bitOf s.io.attCtl 62 = true ∧ ∀ m ∈ s.io.measures, m.length = 32) := by
  refine ⟨⟨by decide, by decide, by simp [State.reset]⟩, ⟨⟨by decide, by simp [imagePasses, fuses]⟩, by decide, by decide⟩, by decide +kernel⟩
/-- Space 5 is being retired; slice 3 holds what is given. -/
def retiring (x : Slice) : State := { retires { run1 with phase := .over } (2 ^ 62 + 5) with slices := [(3, x)] }
def dirtyLine (sid : Half) : L2Line := { sid := sid, va := 2, pa := 0x4000, valid := 0xff, dirty := 0x81, data := [(255, 9)] }
def parkedPkt (sid : Half) : Parked := { ticket := 4, kind := 0, pages := [1], pkt := { slicePkt (.read 0x1000 8 .data .none) with sid := sid } }
theorem witness_RetiredSpacesAreWrittenBack :
    (let s := retiring {}
     bitOf s.io.sdel 62 = true ∧ s.io.sdel.extractLsb' 0 16 = (5 : Half) ∧ s.slices = [(3, {})]) ∧
    (let x : Slice := { lines := [dirtyLine 6, dirtyLine 5] }
     x.parked = [] ∧ (x.wbs ++ x.lines).filter (fun l => l.sid = 5) = [dirtyLine 5]) ∧
    (let x : Slice := { lines := [dirtyLine 6], parked := [parkedPkt 5] }
     (parkedPkt 5).behind = [] ∧ (parkedPkt 5).pkt.sid = 5 ∧ (∀ l ∈ x.wbs ++ x.lines, l.sid ≠ 5) ∧ (retiring x).hasLaunch (parkedPkt 5).pkt.lid = true ∧
       (parkedPkt 5).pkt.src.port ≠ 2 ∧ (parkedPkt 5).pkt.src.pkg = (retiring x).pkg) ∧
    (parkedPkt 6).pkt.sid ≠ 5 := by decide +kernel
theorem witness_SpacesRetire :
    (let s := retires { run1 with phase := .over } 0
     owns s .port0 ∧ ¬owns s .port1 ∧ bitOf (2 ^ 63 + 5) 63 = true ∧ bitOf s.io.sdel 62 = false ∧ ∀ l ∈ s.launches, l.sid = 5 → l.phase = .over) ∧
    (let s := retires run1 0
     owns s .port0 ∧ ∃ l ∈ s.launches, l.sid = 5 ∧ l.phase ≠ .over) ∧
    (owns (retires run1 (2 ^ 62 + 5)) .port0 ∧ bitOf (retires run1 (2 ^ 62 + 5)).io.sdel 62 = true) := by unfold owns; decide +kernel
/-- A word of core 0's window. -/
def winAt (off : Nat) : Word := wd (2 ^ 63 + off)
def readsAt (off : Nat) : Packet := pkt (.read (winAt off) 8 .data .none)
def writes8 (off : Nat) (v : Word) : Packet := pkt (.write (winAt off) (whole (wordBytes v)) .none)
def closed0 : Core := { core0 with win := [] }
/-- The last format register, the first and last words that privilege guards, and an address that no word has. -/
def privCore (p : Packet) (priv : Bool) : State := { gets p core0 with dist := { launches := [(1, { run1 with priv := priv })] } }
theorem arrives_priv (p : Packet) (b : Bool) (h : isWinReq p = true) : ∃ s1, Arrives (privCore p b) 0 isWinReq p s1 :=
  ⟨_, by decide, [], by simp [State.core, privCore, gets, holds, mget, Core.first, core0, takeFirst, h], rfl⟩
def cfgs (a : Word) : State := { dist1 run1 core0 with io := { own := 2 ^ 63, cfgAddr := a } }
/-- The first byte of accumulator 1 in its core's window. -/
def accOff : Nat := 0x101000
theorem witness_WindowsAreGuarded :
    (Finds isWinReq (readsAt 0x108078) { core0 with win := [(0, 0xe000000000000005), (2, 0x1fffff)] } ∧
      (taken (readsAt 0x108078) { core0 with win := [(0, 0xe000000000000005), (2, 0x1fffff)] }).winOk 0 (readsAt 0x108078) 0x108078 8 true false = true) ∧
    (Finds isWinReq (readsAt 0x108078) closed0 ∧ (taken (readsAt 0x108078) closed0).winOk 0 (readsAt 0x108078) 0x108078 8 true false = false) ∧
    (onChip (winAt 0x108078) = true ∧ bits (winAt 0x108078) 33 22 = 0 ∧ addrOff (winAt 0x108078) = 0x108000 + 8 * 15) ∧
    (Finds isWinReq (writes8 0x108078 7) closed0 ∧ closed0.grants 5 0x108078 8 false true = false ∧
      Finds isWinReq (writes8 0x108000 7) { core0 with win := [(0, 0xe000000000000005), (1, 0x108000), (2, 0x108007)] } ∧
      ({ core0 with win := [(0, 0xe000000000000005), (1, 0x108000), (2, 0x108007)] } : Core).grants 5 0x108000 8 false true = true) ∧
    ((readsAt 0x1b00f8).src.pkg = (privCore (readsAt 0x1b00f8) true).pkg ∧
      (let p := { readsAt 0x1b00f8 with src := ⟨1, 0, 0⟩ }
       p.src.pkg ≠ (privCore p true).pkg ∧ ∃ s1, Arrives (privCore p true) 0 isWinReq p s1) ∧
      (∃ s1, Arrives (privCore (readsAt 0x1b00f8) true) 0 isWinReq (readsAt 0x1b00f8) s1) ∧ (0x1b00f8 = 0x1b0000 + 8 * 31) ∧
      (privCore (readsAt 0x1b00f8) true).hasLaunch 1 = true ∧ ((privCore (readsAt 0x1b00f8) true).launch 1).priv = true ∧
      ((privCore (readsAt 0x1b00f8) false).launch 1).priv = false ∧ ∃ s1, Arrives (privCore (readsAt 0x1b00f8) false) 0 isWinReq (readsAt 0x1b00f8) s1) ∧
    (owns (cfgs (winAt 0x108078)) .port0 ∧ ¬owns (cfgs 0) .bmc ∧ (cfgs (winAt 0x108078)).io.cfgAddr.toNat % 8 = 0 ∧
      (cfgs (winAt 0x108078)).cfgTarget = some (0, 0x108000 + 8 * 15) ∧ ((cfgs (winAt 0x108078)).core 0).accWaits 0x108078 = false) ∧
    (let x := { core0 with mq := [{ form := .accAdd, d := 7, s := 1 }] }
     x.accWaits accOff = true ∧ core0.accWaits accOff = false ∧ x.accWaits 0x108078 = false ∧ rangeOf accOff = some (.acc, 4096) ∧
       Finds isWinReq (readsAt accOff) x) ∧
    (cfgs (winAt 0x1a0078)).cfgTarget = some (0, 0x1a0000 + 8 * 15) ∧
    (owns (cfgs (winAt 0x1ffff8)) .port0 ∧ ((cfgs (winAt 0x1ffff8)).core 0).accWaits 0x1ffff8 = false ∧
      (cfgs (winAt 0x1ffff8)).io.cfgAddr.toNat % 8 = 0 ∧ (cfgs (winAt 0x1ffff8)).cfgTarget = none ∧
      (cfgs (winAt 0x1ffff8)).cfgElsewhere = false) ∧
    (owns (cfgs 4) .port0 ∧ (cfgs 4).io.cfgAddr.toNat % 8 ≠ 0) := by
  and_intros <;> first | decide +kernel | exact finds rfl | exact arrives_priv _ _ rfl | (unfold owns; decide +kernel)
def apS (aps : Map Word) (dbk : Word) : State := { ioS (2 ^ 63) 0 with io := { own := 2 ^ 63, dbk := dbk, trained := [(0, 0x100000)], ap := aps } }
/-- Aperture 15 of port 0, at the host's 0x200000 to 0x2fffff. -/
def ap15 (ingress : Bool) : Map Word :=
  [(60, wd (2 ^ 63 + (if ingress then 2 ^ 62 else 0) + 5)), (61, 0x200000), (62, 0x100000), (63, 0x1000)]
theorem witness_RegisterWritesAreCommands :
    ((apS [] 0).linked .port0 = false ∧ (apS [] (2 ^ 63)).linked .port0 = true ∧ owns (apS [] (2 ^ 63)) .port0 ∧
      (apS [] (2 ^ 63)).regRead 0x3ff8 = none) ∧
    ((∀ n < 16, bitOf (mget 0 (apS (ap15 false) (2 ^ 63)).io.ap (64 * Party.code .port0 + 4 * n)) 63 = false ∨
        (mget 0 (apS (ap15 false) (2 ^ 63)).io.ap (64 * Party.code .port0 + 4 * n + 1)).toNat +
          (mget 0 (apS (ap15 false) (2 ^ 63)).io.ap (64 * Party.code .port0 + 4 * n + 2)).toNat ≤ (0x300000 : Word).toNat ∨
        (0x300000 : Word).toNat + 2 ^ 20 ≤ (mget 0 (apS (ap15 false) (2 ^ 63)).io.ap (64 * Party.code .port0 + 4 * n + 1)).toNat) ∧
      (apS (ap15 false) (2 ^ 63)).daybroken = true) ∧ (apS [] 0).daybroken = false := by unfold owns; decide +kernel
/-- Endpoint 255 of the launch binds word 7 of the initial frame of its first core. -/
def bound255 : Launch :=
  { run1 with ws := run1.ws ++ List.replicate 7 0 ++ [0x3000], imgs := [(10, writeMap [] (32 * 255 + 16) (whole (wordBytes (wd (2 ^ 63 + 7 * 2 ^ 38)))))] }
/-- An on-chip address with a reserved bit set, which no node serves (R49). -/
def absent : Word := wd (2 ^ 63 + 2 ^ 22)
def hostS (ingress : Bool) : State :=
  { apS (ap15 ingress) (2 ^ 63) with cores := [(0, core0)], dist := { launches := [(1, bound255)] } }
theorem witness_IngressWordsAnswer :
    (let s := hostS true
     s.daybroken = true ∧ mget 0 s.io.trained (Party.code .port0) = 0x100000 ∧ ¬((0x2007f8 : Word).toNat < 0x100000 + 2 ^ 20) ∧
       s.aperture .port0 0x2007f8 = some (0xc000000000000005, 0x200000, 0x1000) ∧ (0x2007f8 - 0x200000 : Word).toNat % 8 = 0 ∧
       mget [] s.host.queue (Party.code .port0) = [] ∧ bitOf s.io.sdel 62 = false ∧ s.ingressOf 5 255 = some bound255 ∧
       mget 0 bound255.accepted 255 < 2 ^ 63 ∧ bits (2 : Word) 62 8 = 0 ∧ bits (0x100 : Word) 62 8 ≠ 0 ∧ s.ingressOf 5 254 = none ∧
       s.hasLaunch 1 = true ∧ s.launch bound255.lid = bound255 ∧ 255 ∉ bound255.closed ∧ 255 ∉ bound255.closing ∧
       bits (0x8000000000000000 : Word) 62 0 = 0) ∧
    (let l := { bound255 with closed := [255] }
     ∃ s : State, s.ingressOf 5 255 = some l ∧ 255 ∈ l.closed) := by
  refine ⟨by decide +kernel, { hostS true with dist := { launches := [(1, { bound255 with closed := [255] })] } }, by decide +kernel⟩
theorem witness_HostAccessesReachTheDevice :
    (let s := hostS false
     s.daybroken = true ∧ s.host.answer = none ∧ s.aperture .port0 0x2fffff = some (0x8000000000000005, 0x200000, 0x1000) ∧
       bitOf 0x8000000000000005 62 = false ∧ s.aperture .port0 0x300000 = none ∧ mget 0 s.io.trained (Party.code .port0) = 0x100000 ∧
       ¬((0x2fffff : Word).toNat < 0x100000 + 2 ^ 20) ∧ s.regRead (0x200 : Word).toNat = some 0x8000000000000000) ∧
    (let s := hostS true
     s.aperture .port0 0x2007f8 = some (0xc000000000000005, 0x200000, 0x1000) ∧ ¬((0x2007f8 : Word).toNat < 0x100000 + 2 ^ 20) ∧
       bitOf 0xc000000000000005 62 = true ∧ (0x2007f8 - 0x200000 : Word).toNat % 8 = 0 ∧ (0x2007f8 - 0x200000 : Word).toNat / 8 = 255 ∧
       s.ingressOf 5 255 = some bound255 ∧ s.hasLaunch 1 = true ∧ s.launch 1 = bound255 ∧ 255 ∉ bound255.closed ∧ 255 ∉ bound255.closing ∧
       bits (0x80000000000000ff : Word) 62 8 = 0 ∧ bits (0x80000000000000ff : Word) 7 0 ≠ 0 ∧ s.dist.images = []) ∧
    (∀ n < 2, let s := dist1 { run1 with closing := [3], posted := [(3, n)] } core0
      s.hasLaunch 1 = true ∧ 3 ∈ (s.launch 1).closing ∧ mget 0 (s.launch 1).posted 3 = n) ∧
    (let s := hostS false
     let q := slicePkt (.ack .none none)
     let key := ((5, hostLine (0x1000 : Word).toNat) : Half × Word)
     let other := ((5, hostLine (0x1100 : Word).toNat) : Half × Word)
     key ∉ [other] ∧ key ∉ ([] : List (Half × Word)) ∧
       ({ s with host := { pendInv := [key, other], waiting := [(q, [key, other])] } } : State).host.waiting = [(q, key :: [other])] ∧
       ({ s with host := { pendInv := [key], waiting := [(q, [key])] } } : State).host.pendInv = key :: []) ∧
    (let s := hostS false
     bitOf s.io.sdel 62 = false ∧ mget [] s.host.queue (Party.code .port0) = [] ∧ s.badAddr 0x100fff = false ∧
       (0x1000 + (0x2fffff - 0x200000) : Word) = 0x100fff ∧ (hostS true).host.queue = [] ∧
       (let r := { s with io := { s.io with sdel := 2 ^ 62 + 5 } }
        ¬(bitOf r.io.sdel 62 = false ∨ r.io.sdel.extractLsb' 0 16 ≠ (0x8000000000000005 : Word).extractLsb' 0 16)) ∧
       (let a := { s with io := { s.io with ap := [(60, 0x8000000000000005), (61, 0x200000), (62, 0x100000), (63, absent)] } }
        a.aperture .port0 0x200000 = some (0x8000000000000005, 0x200000, absent) ∧ a.badAddr absent = true)) ∧
    (∀ q ∈ [({ kind := 0x10, vc := .rsp, dst := ioNode 0, body := .data [7] (.host (Party.code .port0) 0) } : Packet),
        { kind := 0x11, vc := .rsp, dst := ioNode 0, body := .ack (.host (Party.code .port0) 1) none, fault := true }],
      let h : HostAcc := { sid := 5, va := 0x100fff, left := 1, wr := false, sent := true }
      let s := { hostS false with routers := [(2047, { eject := [q] })], host := { queue := [(Party.code .port0, [h])] } }
      mget [] s.host.queue (Party.code .port0) = [h] ∧ h.sent = true ∧ h.left = h.piece ∧ (s.router 2047).eject = [q] ∧
        q.malformed = false ∧ q.dst = ioNode s.pkg) ∧
    (ownersReg 0x200 = false ∧ ownersReg 0x10200 = true ∧ ownersReg 0x10110 = true ∧ owns (apS [] (2 ^ 63)) .port0) ∧
    (let s := hostS false
     s.hostWaits .bmc 0x200 = false ∧ s.hostWaits .bmc 0x1000 = false ∧ s.hostWaits .bmc 0x328 = false ∧ s.hostWaits .bmc 0x10110 = false ∧
       s.hostWaits .port0 0x2fffff = false ∧ ¬owns s .bmc ∧ 0x1000 + 12 ≤ 0x1000 + 8240 ∧ 0x328 + 12 ≤ 0x340) ∧
    (let s := { hostS false with host := { queue := [(Party.code .port0, [({ sid := 5, va := 0, left := 1, wr := false, sent := true } : HostAcc)])] } }
     s.daybroken = true ∧ mget 0 s.io.trained (Party.code .port0) = 0x100000 ∧ (0x100008 : Word).toNat < 0x100000 + 2 ^ 20 ∧
       mget [] s.host.queue (Party.code .port0) ≠ []) := by
  unfold owns; and_intros <;> decide +kernel

/-! The whole machine. -/

theorem witness_HeadsChangeOnlyTheirBlock : (Instr.add on 20 4 5).isShokuxel = true ∧ (∀ g d c, Instr.add on 20 4 5 ≠ .falloc g d c) ∧
    ∀ g c, Instr.add on 20 4 5 ≠ .brk g c := by refine ⟨rfl, ?_, ?_⟩ <;> intros <;> nofun
theorem witness_DecodingUndoesEncoding :
    ((Instr.ld ⟨3, true⟩ 31 30 .z8 31 (-1)).wellFormed = true ∧ (fieldsOf (.ld ⟨3, true⟩ 31 30 .z8 31 (-1))).isSome = true) ∧
    (let i := Instr.rv64imcInstruction (.full (.imm .addi 31 30 0xfff))
     i.wellFormed = true ∧ fieldsOf i = none ∧ (rvWordOf i).isSome = true) ∧
    (Instr.rv64imcInstruction (.comp 0x4505 (.imm .addi 10 0 1))).wellFormed = true := by decide +kernel
/-- A state whose next turn is given. -/
def turns (t : Turn) (s : State) : State := { s with turns := [t] }
/-- The core after one of its banks has been used at a rank of R111 in A-cycle 0, and its directory by a packet. -/
def usedCore (r : Nat) : Core := { core0 with phase := (0, r), checkedAt := some 0, commitAt := some 0, issueS := some (0, 3), issueM := some (0, 3) }
def atHead2 (k : Nat) : Work := { active := true, line := 3, k := k, image := fmaLine }
theorem witness_StepsRunTheDecodedInstruction :
    (let s := turns (.ctx 0 0) (headW (atHead2 0))
     s.turns = [.ctx 0 0] ∧ (s.ctx 0 0).bound = true ∧ (s.ctx 0 0).replayAt ≠ some s.acyc ∧ (s.core 0).checkedAt ≠ some s.acyc ∧
       (s.core 0).mayIssue s.acyc 0 (headSide (s.ctx 0 0).work.image 0) = true ∧
       ({ s with tick := s.tick + 1, turns := [], cur := ⟨0, 0⟩ } : State).offered 0 0 (headSide (s.ctx 0 0).work.image 0) = true ∧
       reached { s with tick := s.tick + 1, turns := [], cur := ⟨0, 0⟩ } (.fma ⟨0, false⟩ 5 6 7 8 .f32 .rne) = [0] ∧
       (s.core 0).rankOk s.acyc ((s.core 0).ctxRank 0 0) = true ∧ (s.ctx 0 0).work.active = true ∧ (s.ctx 0 0).work.k < headsOf (s.ctx 0 0).work ∧
       headAt (s.ctx 0 0).work = .ok (.fma ⟨0, false⟩ 5 6 7 8 .f32 .rne)) ∧
    (let s := turns (.ctx 0 0) (headW (atHead2 1))
     headsOf (s.ctx 0 0).work ≤ (s.ctx 0 0).work.k ∧ (s.ctx 0 0).work.active = true ∧ (s.core 0).commitAt ≠ some s.acyc ∧
       (s.ctx 0 0).bound = true ∧ (s.ctx 0 0).replayAt ≠ some s.acyc ∧ (s.core 0).checkedAt ≠ some s.acyc) ∧
    ((usedCore 7).mayIssue 0 0 false = false ∧ (usedCore 7).mayIssue 0 3 true = false ∧ (usedCore 7).commitAt = some 0 ∧
      ((between 15 15 fmaLine).ctx 0 0).work.active = false ∧ ({ ctx0 {} with replayAt := some 0 } : Ctx).replayAt = some (holds core0).acyc) ∧
    ((holds core0).ctx 0 15).bound = false ∧
    ((atHead2 1).updatesDir = false ∧ { atHead2 1 with acts := [(0, .ffree fp0)] }.updatesDir = true ∧
      { atHead2 1 with acts := [(0, .ffree fp0)] }.meetsPackets = false ∧
      { core0 with phase := (0, 7 + 2048 * 63 + 5) }.rankOk 0 (core0.ctxRank 0 0) = false) ∧
    (let s := { holds { core0 with rrS := 1, ctxs := [(0, ctx0 (atHead2 0)), (1, ctx0 (atHead2 0))] } with acyc := 3 }
     s.wants 0 1 (headSide fmaLine 0) = true ∧ s.wants 0 2 (headSide fmaLine 0) = false ∧ headSide fmaLine 0 = false) ∧
    (let s := ls 16 { lsCore with imem := [(0, 0x93), (2, 0x10)] } core0
     (s.ls 0 false).running = true ∧ (s.ls 0 false).waiting = none ∧ (s.core 0).stopped = false ∧ (s.core 0).rankOk s.acyc 4 = true ∧ (s.core 0).unitFree s.acyc 16 = true ∧
       lsFetch (s.ls 0 false) = some (0x0093, 0x0010) ∧
       decodeRv 0x0093 0x0010 = .ok (.rv64imcInstruction (.full (.imm .addi 1 0 1)))) ∧
    (isEvent .placementDecision = true ∧ takesFrame .placementDecision = none ∧ bankRank State.reset .placementDecision = none ∧
      portParty .placementDecision = none ∧ portParty (.budgetWrite .port0 0) = some .port0 ∧
      isEvent (.tokenBind 0) = true ∧ takesFrame (.tokenBind 0) = some 0 ∧ (usedCore 7).checkedAt = some 0 ∧ core0.checkedAt ≠ some 0 ∧
      bankRank (holds core0) (.bankRequest 0) = some (0, 6) ∧ unitOf (holds core0) (.bankRequest 0) = some 19 ∧ core0.unitFree 0 19 = true ∧ (usedCore 7).rankOk 0 7 = true ∧ (usedCore 7).rankOk 0 6 = false ∧
      isEvent (.blockCommit 0 0) = false ∧ isEvent (.add on 1 2 3) = false) ∧
    (let s := { hostS false with host := { queue := [(Party.code .port0, [({ sid := 5, va := 0, left := 1, wr := false } : HostAcc)])] } }
     mget [] s.host.queue (Party.code .port0) ≠ []) ∧
    (turns (.ev .placementDecision) State.reset).turns = [.ev .placementDecision] ∧ (turns .aCycle State.reset).turns = [.aCycle] ∧
    (turns .fCycle State.reset).turns = [.fCycle] := by
  and_intros <;> first | decide +kernel | rfl
/-- The last agents the package has, and the numbers after them. -/
theorem witness_NothingIsRefused : ¬absentAgent (.blockCommit 2047 15) ∧ absentAgent (.blockCommit 2048 0) ∧ absentAgent (.blockCommit 0 16) ∧
    ¬absentAgent (.bankReplay 2047 20) ∧ absentAgent (.bankReplay 0 21) ∧ ¬absentAgent (.bankRequest 2047) ∧ absentAgent (.bankRequest 2048) ∧
    ¬absentAgent (.sliceRequest 127) ∧ absentAgent (.sliceRequest 128) ∧ ¬absentAgent (.routerGrant 2047 4 .req) ∧
    absentAgent (.routerGrant 2047 5 .req) ∧ ¬absentAgent (.routerGrant 2048 6 .req) ∧ absentAgent (.slackTick 2049) ∧
    absentAgent (.laneRetire 0 4 0) ∧ ¬absentAgent (.laneRetire 2048 5 7) ∧ absentAgent (.laneRetire 0 0 8) ∧
    ¬absentAgent (.terminationSweep (.node 2175)) ∧ absentAgent (.terminationSweep (.node 2176)) ∧ absentAgent (.supergroupPowerOff 32) ∧
    ¬absentAgent .daybreak := by simp [absentAgent]
theorem witness_StepsKeepMemoryCanonical : Memory.wf (turns .fCycle (hostS false)).mem = true ∧
    ∃ t, step (turns .fCycle (hostS false)) = .next t := ⟨by decide +kernel, _, rfl⟩

/-! Ill-formed terms, one for each check, which the check refuses. -/

/-- The reserved pair PRED 0 with POL 1 (R26). -/
def noGuard : Guard := ⟨0, true⟩
theorem test_guard_reserved : (Instr.add noGuard 1 2 3).wellFormed = false ∧ (Instr.endT noGuard).wellFormed = false ∧
    (Instr.mma noGuard 0 1 2 3 p0 noSlot).wellFormed = false ∧ (Instr.add on 1 2 3).wellFormed = true := by decide
/-- R180, R181, R182: types of `sext` and `zext`, fields that leave 64 bits, shifts of `lea` above 6. -/
theorem test_scalar_fields : (Instr.sext on 1 2 .s64).wellFormed = false ∧ (Instr.zext on 1 2 .s8).wellFormed = false ∧
    (Instr.bfx on 1 2 32 32).wellFormed = false ∧ (Instr.bfi on 1 2 3 63 1).wellFormed = false ∧ (Instr.bfx on 1 2 31 32).wellFormed = true ∧
    (Instr.lea on 1 2 3 7 0).wellFormed = false ∧ (Instr.lea on 1 2 3 6 0).wellFormed = true := by decide
/-- R189, R199: an integer pair, an identical pair, a reserved type. -/
theorem test_conversion_pairs : (Instr.fcvt on 1 2 .s8 .s16 .rne).wellFormed = false ∧ (Instr.fcvt on 1 2 .f32 .f32 .rne).wellFormed = false ∧
    (Instr.fcvt on 1 2 .bf16 .f32 .rne).wellFormed = false ∧ (Instr.fcvt on 1 2 .s8 .f32 .rne).wellFormed = true ∧
    (Instr.vcvt on 1 2 .s32 .s64 .rne false).wellFormed = false := by decide
/-- R191 to R202: types of lane forms; `q0` is no destination. -/
theorem test_lane_types : (Instr.vadd on 1 2 3 .f32 false).wellFormed = false ∧ (Instr.vand on 1 2 3 .s8).wellFormed = false ∧
    (Instr.vcmp on 0 1 2 .s32 .eq).wellFormed = false ∧ (Instr.vfcmp on 0 1 2 .f32 .eq).wellFormed = false ∧
    (Instr.pmaskLt on 0 1 2 .s32).wellFormed = false ∧ (Instr.pand on 0 1 2).wellFormed = false ∧
    (Instr.vcompress 1 2 3 .z16).wellFormed = false ∧ (Instr.vredsum on 1 2 .bf16).wellFormed = false := by decide
/-- R267, R271, R272: a count of 0, a data word that is the slot, a register range past 31, more than 6 arguments. -/
theorem test_signal_fields : (Instr.sig on 1 0 3 0).wellFormed = false ∧ (Instr.sigw on 1 2 0 3 1 3).wellFormed = false ∧
    (Instr.sigv on 1 2 0 3 1 4).wellFormed = false ∧ (Instr.sigv on 1 2 0 9 1 8).wellFormed = false ∧ (Instr.sigv on 1 2 0 3 1 8).wellFormed = true ∧
    (Instr.spawn on 1 2 0 0 0 7 0).wellFormed = false ∧ (Instr.spawn on 1 27 0 0 0 6 0).wellFormed = false ∧
    (Instr.tspawn on 26 6 0).wellFormed = true ∧ (Instr.amsg on 1 27 0 6 p0 0).wellFormed = false ∧
    (Instr.sigRel on 1 2 0 p0).wellFormed = false ∧ (Instr.rbar on p0 1 1 noSlot).wellFormed = false ∧ (Instr.rid on 1 18).wellFormed = false := by decide
/-- R145, R155, R157, R162, R163, R169: types, aligned frame words, element sizes, entry sizes, slots. -/
theorem test_memory_fields : (Instr.ld on 1 2 .bf16 0 0).wellFormed = false ∧ (Instr.vld on 1 2 .s8 0 0).wellFormed = false ∧
    (Instr.vget on 1 4 p0 noSlot).wellFormed = false ∧ (Instr.csnap on 1 7 p0 noSlot).wellFormed = false ∧
    (Instr.gather on 1 2 3 2 0 0 p0 noSlot).wellFormed = false ∧ (Instr.scatter on 1 2 3 13 0 0 p0 noSlot).wellFormed = false ∧
    (Instr.redAdd on 1 2 .z64 p0).wellFormed = false ∧ (Instr.redMin on 1 2 .z64 p0).wellFormed = true ∧
    (Instr.amoAdd on 1 2 0 .f64 p0 noSlot).wellFormed = false ∧ (Instr.enq on 1 2 3 0 p0 lastSlot).wellFormed = false ∧
    (Instr.enqA on 1 2 29 2 p0 lastSlot).wellFormed = false ∧ (Instr.deq on 1 2 0 4 p0 false).wellFormed = false := by decide
/-- R212, R213, R220: FRESH on a matrix form, FP64 rows above 16, a type `acc.ld` does not have; R278: a system register. -/
theorem test_matrix_fields : (Instr.mma on 0 1 2 3 p0 ⟨true, true, 0⟩).wellFormed = false ∧
    (Instr.accLd on 0 1 16 .f64 p0 noSlot).wellFormed = false ∧ (Instr.accLd on 0 1 0 .bf16 p0 noSlot).wellFormed = false ∧
    (Instr.accSt on 1 0 0 .s32 p0 noSlot).wellFormed = false ∧ (Instr.accSt on 1 0 31 .bf16 p0 noSlot).wellFormed = true ∧
    (Instr.sysr on 1 6).wellFormed = false ∧ (Instr.sysw on 31 1).wellFormed = false := by decide
/-- A compressed form is the instruction it expands to (R84). -/
theorem test_compressed_mismatch : (Instr.rv64imcInstruction (.comp 0x4505 (.imm .addi 10 0 2))).wellFormed = false := by decide

/-! Words written out from the spec's encodings. -/

/-- A head with its tail halfwords decodes to an instruction, which encodes to them. -/
def reads_as (h : Half) (tail : List Half) (i : Instr) : Prop := decodeHead h tail = .ok i ∧ encode i = some (h :: tail)
/-- The worked line of R41: `add x3, x1, x2`, `ld.s64 x4, [x3+16]`, `st.s64 [x3+24], x4`, `end`. -/
theorem test_worked_line : reads_as 0x2083 [0x0880] (.add on 3 1 2) ∧ reads_as 0xa184 [0x1800, 0x0007, 0x0010, 0] (.ld on 4 3 .s64 0 16) ∧
    reads_as 0xa180 [0x1901, 0x0807, 0x0018, 0] (.st on 3 4 .s64 1 24) ∧
    reads_as 0xa180 [0x1911, 0x0807, 0x0018, 0] (.st ⟨2, false⟩ 3 4 .s64 1 24) ∧ reads_as 0x0080 [0] (.endT on) := by
  unfold reads_as; and_intros <;> rfl
/-- The bytes of that line, and of the line of R267. -/
def workedLine : Line64 := bytesLine ([0x80, 0x22, 0x02, 0, 0, 0, 0x83, 0x20, 0x84, 0xa1, 0x80, 0xa1, 0x80, 0, 0, 0] ++ List.replicate 30 0 ++
  [0x01, 0x19, 0x07, 0x08, 0x18, 0, 0, 0, 0, 0x18, 0x07, 0, 0x10, 0, 0, 0, 0x80, 0x08])
def armLine : Line64 := bytesLine ([0x80, 0x22, 0, 0, 0, 0, 0x86, 0x1a, 0x80, 0x0f, 0x80, 0x11, 0x80, 0, 0, 0] ++ List.replicate 31 0 ++
  [0x30, 0, 0, 0x03, 0x02, 0, 0, 0x40, 0, 0x80, 0x01, 0x20, 0x04, 0, 0, 0, 0x60])
def heads (l : Line64) : List (Option Instr) :=
  let w : Work := { active := true, image := l }
  (List.range (headsOf w)).map fun k => (headAt { w with k := k }).toOption
theorem test_lines_hold_their_heads : heads workedLine = [some (.add on 3 1 2), some (.ld on 4 3 .s64 0 16), some (.st on 3 4 .s64 1 24), some (.endT on)] ∧
    heads armLine = [some (.rid on 6 12), some (.sarm on 0 0 1 3 0x420), some (.sig on 6 0 3 1), some (.endT on)] := by decide +kernel
/-- R157: `gather [x10], [x11], v2, n=4, esz=64, bound=100, slot=$6`. R213: `mma acc2, [x10], [x11], k=128, slot=$4`, and
`qtile [x12], acc2, fmt=2, elect=topk, slot=$5`. -/
theorem test_worked_memory_and_matrix : reads_as 0xad80 [0x52c0, 0x1006, 0x0e06, 0x0032] (.gather on 10 11 2 6 100 3 p0 ⟨false, true, 6⟩) ∧
    reads_as 0xd1e2 [0x52c0, 0x0003, 0x0204, 0] (.mma on 2 10 11 3 p0 ⟨false, true, 4⟩) ∧
    reads_as 0xdd80 [0x6080, 0x0002, 0x0205, 0x4000] (.qtile on 12 2 2 true p0 ⟨false, true, 5⟩) := by
  unfold reads_as; and_intros <;> rfl
/-- R24, R258: `b.lt x5, x6` backwards by two lines; `loopi 3` to the next line; `falloc x9, 2`; `sysw` of register 8 from x7. -/
theorem test_control_words : reads_as 0x0380 [0x2982, 0, 0xfffe, 0xffff] (.bLt on 5 6 0xfffffffe) ∧
    reads_as 0x0d80 [0x0001, 0x0003, 0x0001, 0] (.loopi on 3 1) ∧ reads_as 0x1509 [0x0000, 0x0002] (.falloc on 9 2) ∧
    reads_as 0xf100 [0x41c1, 0] (.sysw on 8 7) := by unfold reads_as; and_intros <;> rfl
/-- R24, R25, R189, R192: `fadd.f32 x1, x2, x3, rm=rtz`; `fcvt.s8.f32 x1, x2`; `vadd.s32 v1, v2, v3` guarded by `q1`; `get.s64 $12, [x4], slot=$3`. -/
theorem test_arithmetic_words : reads_as 0x5101 [0x10c0, 0x0009] (.fadd on 1 2 3 .f32 .rtz) ∧
    reads_as 0x5501 [0x1003, 0x4100] (.fcvt on 1 2 .s8 .f32 .rne) ∧
    reads_as 0x6521 [0x10c8, 0x0006] (.vadd ⟨1, false⟩ 1 2 3 .s32 false) ∧
    reads_as 0xa780 [0x2000, 0x0007, 0x3203, 0] (.get on 4 12 .s64 p0 ⟨false, true, 3⟩) := by unfold reads_as; and_intros <;> rfl
/-- R24: the zero-tail form of `add`; R40: an unassigned major, a reserved minor, a wrong tail code, a reserved guard. -/
theorem test_reserved_words : decodeHead 0x2003 [] = .ok (.add on 3 0 0) ∧ (decodeHead 0x4480 [0]).toOption = none ∧
    (decodeHead 0x0080 [3]).toOption = none ∧ (decodeHead 0x2103 [0, 0]).toOption = none ∧ (decodeHead 0x2083 [0x0884]).toOption = none := by
  refine ⟨rfl, ?_⟩; decide +kernel
/-- R95, R96: `cp.go x5, x6`, `ls.end`, `stg.acq x1, x2, x3`, `ep.rd x4, x5, 7`; a nonzero funct7 is none of them. -/
theorem test_custom_words : decodeTableWord 32 0x0003028b = some (.cpGo 5 6) ∧ decodeTableWord 32 0x0000500b = some .lsEnd ∧
    decodeTableWord 32 0x003100ab = some (.stgAcq 1 2 3) ∧ decodeTableWord 32 0x0072b22b = some (.epRd 4 5 7) ∧
    decodeTableWord 32 0x0203028b = none := by decide +kernel

/-! Single steps. -/

/-- A register that a head leaves, and the flags. -/
def lanes32 (l : List (BitVec 32)) : Line64 := bytesLine (l.map fun v => natLe 4 v.toNat).flatten
/-- R195: 2^24, 1, 1, 1, 3, 5, 7, 9, 0.25, 0.5, 0.75, 1.25, −2^24, 2, 4, 6 give 41.0 with NX. -/
def treeLanes : Line64 := lanes32 [0x4b800000, 0x3f800000, 0x3f800000, 0x3f800000, 0x40400000, 0x40a00000, 0x40e00000, 0x41100000,
  0x3e800000, 0x3f000000, 0x3f400000, 0x3fa00000, 0xcb800000, 0x40000000, 0x40800000, 0x40c00000]
theorem test_vredsum_tree :
    let o := exec (.vredsum on 9 1 .f32) (headW (work0 { v := [(1, treeLanes)] }))
    xAfter o 9 = some 0x42240000 ∧ cfAfter o = some 0x10 := by decide +kernel
/-- R189: −200.5 to `s8` is −128 with NV and SAT; −0.4 of FP64 to `z32` is 0 with NX. -/
theorem test_fcvt_examples :
    let s := headW (work0 { x := [(1, 0xc3488000), (2, 0xbfd999999999999a)] })
    xAfter (exec (.fcvt on 9 1 .s8 .f32 .rne) s) 9 = some 0xffffffffffffff80 ∧ cfAfter (exec (.fcvt on 9 1 .s8 .f32 .rne) s) = some 0x41 ∧
      xAfter (exec (.fcvt on 9 2 .z32 .f64 .rne) s) 9 = some 0 ∧ cfAfter (exec (.fcvt on 9 2 .z32 .f64 .rne) s) = some 0x10 := by decide +kernel
/-- R310, R350: with 1,200 W and every supergroup on and of one class, the first 13 stand at level 5 and the others at 4;
here from the point where all stand at 5. -/
theorem test_budget_example :
    let lvl := powerLoop (fun _ => 0) (List.range 32) (2 * (1200 - 400)) 160 ((List.range 32).map fun g => (g, 5))
    (List.range 32).map (fun g => mget 15 lvl g) = List.replicate 13 5 ++ List.replicate 19 4 := by decide +kernel
/-- R29: a load reads what an earlier store of its block wrote. -/
theorem test_store_is_read_in_its_block :
    (match exec (.st on 6 4 .s64 0 8) head0 with
      | .next s => xAfter (exec (.ld on 20 6 .s64 1 8) s) 20
      | _ => none) = some 7 := by decide +kernel
/-- R26, R29, R30: of the worked line, the step after the last head commits. -/
theorem test_step_runs_a_head :
    (match step { headW { atHead2 0 with image := workedLine, regs := regs0 } with turns := [.ctx 0 0] } with
      | .next s => ((s.ctx 0 0).work.regs.rx 3, (s.ctx 0 0).work.k)
      | _ => (0, 0)) = (0x7fffffffffffffff, 1) := by decide +kernel
/-- The memory of reset has its canonical form. -/
theorem test_reset_memory : Memory.wf State.reset.mem = true := by decide
/-- An instruction placed by `withFetchWord` is the one the next step runs: `addi x1, x0, 1` on the loader core. -/
theorem test_withFetchWord :
    (match step (State.reset.withFetchWord 32 0x00100093) with
      | .next s => (s.ls 0 false).rx 1
      | _ => 0) = 1 := by decide +kernel

end Sys2Proof.Tests
end

/-! PROOFS. The machine right after reset (R6, R52): its parts as they read, and the statement over the Reset columns. -/

namespace Sys2Proof.Machine

@[simp] theorem State.reset_core (c : Nat) : State.reset.core c = {} := mget_nil _ c
@[simp] theorem State.reset_ctx (c k : Nat) : State.reset.ctx c k = {} := by
  rw [State.ctx, State.reset_core]
  exact mget_nil _ k
@[simp] theorem Core.default_dir (u : Nat) : ({} : Core).dir u = {} := mget_nil _ u

/-- An unlisted queue has weight 1 and priority 0 in its register. -/
theorem State.reset_queue (q : Nat) : mget 1 State.reset.dist.q q = 1 := mget_nil _ q

/-- The Reset columns of a core's registers: the reset state lists no core, and each map of an unlisted core is empty. -/
theorem State.reset_coreRegs (c n : Nat) :
    mget 0 (State.reset.core c).owner n = 0 ∧ mget 0 (State.reset.core c).fmt n = 0 ∧ mget 0 (State.reset.core c).ctr n = 0 ∧
      mget 0 (State.reset.core c).ctrCfg n = 0 ∧ mget 0 (State.reset.core c).win n = 0 ∧
      ((State.reset.core c).dir n).alloc = false ∧ (State.reset.ctx c n).bound = false := by
  simp only [State.reset_core, State.reset_ctx, Core.default_dir, mget_nil, and_self]

/-- A core waits for its launch (R253): its loader and its storer stand. -/
theorem State.reset_coreIdle (c : Nat) :
    (State.reset.core c).lids = [] ∧ (State.reset.core c).loader.running = false ∧ (State.reset.core c).storer.running = false := by
  simp only [State.reset_core, and_self]

/-- R6 and the Reset columns: the registers of the I/O die and of the distributor stand in the reset state itself; the queues and
the cores are read from its maps. -/
theorem State.reset_values : Claims.ResetLeavesTheStatedValues := by
  refine ⟨rfl, rfl, rfl, rfl, rfl, rfl, rfl, rfl, rfl, ?queues, ?coreRegs, ?coreIdle, rfl⟩
  case queues => exact fun q _ => State.reset_queue q
  case coreRegs => exact State.reset_coreRegs
  case coreIdle => exact State.reset_coreIdle

/-- Settles O59: every part of the reset state reads the value of its Reset column, and the empty memory is canonical. -/
theorem resetLeavesTheStatedValues : Obligations.ResetLeavesTheStatedValues :=
  ⟨State.reset_values, memory_wf_reset⟩

end Sys2Proof.Machine

/-! PROOFS. A turn of the matrix unit (R111, R203, R211): it waits where a bank that holds an operand has served a later rank, though
the banks of its own core are free; so the clause of O57 over events, which asks of the banks of the event's core alone, fails. -/

namespace Sys2Proof.Machine

/-- R111: a matrix request makes no access where a bank that holds one of its operands has served a later rank in this A-cycle. -/
theorem evPick_matrixRequest_waits (s : State) {c t : Nat} (hc : c < 2048) (ht : t ∈ s.unitReach c)
    (hlate : (s.core t).rankOk s.acyc ((s.core c).ctxRank c 20) = false) : evPick s (.matrixRequest c) = .still s := by
  have hall : ((s.unitReach c).all fun t => (s.core t).rankOk s.acyc ((s.core c).ctxRank c 20)) = false :=
    List.all_eq_false.2 ⟨t, ht, by simp [hlate]⟩
  simp [evPick, takesFrame, portParty, bankRank, alsoReached, hall, Nat.not_le.2 hc]

/-- Such a turn leaves the list of turns, and nothing else happens. -/
theorem step_matrixRequest_waits (s : State) {c t : Nat} {rest : List Turn} (hturn : s.turns = .ev (.matrixRequest c) :: rest)
    (hc : c < 2048) (ht : t ∈ s.unitReach c) (hlate : (s.core t).rankOk s.acyc ((s.core c).ctxRank c 20) = false) :
    step s = .next { s with tick := s.tick + 1, turns := rest } := by
  have htake : s.takeTurn = (.ev (.matrixRequest c), { s with tick := s.tick + 1, turns := rest }) := by
    simp only [State.takeTurn, hturn]
  have hstill := evPick_matrixRequest_waits { s with tick := s.tick + 1, turns := rest } hc ht hlate
  simp only [step, pick, pickTurn, htake, hstill]

/-- R203, R210: the unit's oldest request is carried out, with a fault or without one, and then waits for its completion. -/
theorem State.unitStep_mdone (s : State) (c : Nat) (h : (s.core c).mq ≠ []) : ((s.unitStep c).core c).mdone ≠ [] := by
  obtain ⟨m, rest, hm⟩ := List.exists_cons_of_ne_nil h
  simp only [State.unitStep, hm]
  split <;> simp

/-- What the cores note of an A-cycle takes no request from a matrix unit. -/
theorem notesOnly_mq {s v : State} (h : Claims.NotesOnly s v) (c : Nat) : (v.core c).mq = (s.core c).mq := by
  rw [h.2 c]

/-- Core 0 has accepted an `acc.ld` of a row of core 1's scratch, and in this A-cycle a bank of core 1 has served an access of a rank
after that of core 0's matrix unit. -/
def operandBankBusy (l : List Turn) : State :=
  { State.reset with
    turns := l
    cores := [(0, { mq := [{ form := .accLd, addr := 0x8000000400000000, n := 1 }] }), (1, { phase := (0, 2 ^ 18) })] }

theorem operandBankBusy_core0 (l : List Turn) :
    (operandBankBusy l).core 0 = { mq := [{ form := .accLd, addr := 0x8000000400000000, n := 1 }] } := rfl

/-- What O57's clause over events asks of the banks: those of core 0 and its unit are free for the request. -/
theorem operandBankBusy_ownBanksFree (l : List Turn) (c r : Nat) (h : bankRank (operandBankBusy l) (.matrixRequest 0) = some (c, r)) :
    ((operandBankBusy l).core c).rankOk (operandBankBusy l).acyc r = true ∧
      ∀ n, unitOf (operandBankBusy l) (.matrixRequest 0) = some n → ((operandBankBusy l).core c).unitFree (operandBankBusy l).acyc n = true := by
  simp only [bankRank, Option.some.injEq, Prod.mk.injEq] at h
  obtain ⟨rfl, -⟩ := h
  simp [Core.rankOk, Core.unitFree, operandBankBusy_core0]

/-- Refutes O57 at its clause over events: the banks and the unit of core 0 are free, as its hypotheses ask, but the operand lies in
core 1, where a bank has served a later rank. The turn does nothing; the request, had it run, would have left a completion. -/
theorem not_stepsRunTheDecodedInstruction : ¬ Obligations.StepsRunTheDecodedInstruction := by
  unfold Obligations.StepsRunTheDecodedInstruction
  intro h
  obtain ⟨-, -, hev, -, -⟩ := h (operandBankBusy [.ev (.matrixRequest 0)]) (.ev (.matrixRequest 0)) [] rfl
  obtain ⟨hruns, -, -⟩ := hev (.matrixRequest 0) rfl
  obtain ⟨v, hnotes, hexec⟩ := hruns rfl (by simp [takesFrame]) (by simp [portParty]) (operandBankBusy_ownBanksFree _)
  rw [step_matrixRequest_waits _ (c := 0) (t := 1) rfl (by decide) (by decide +kernel) (by decide +kernel), exec_matrixRequest] at hexec
  have hnext := Host.Outcome.next.inj hexec
  have hqueued : (v.core 0).mq ≠ [] := by
    rw [notesOnly_mq hnotes]
    exact List.cons_ne_nil _ _
  have hdone := State.unitStep_mdone v 0 hqueued
  rw [← hnext] at hdone
  exact hdone rfl

end Sys2Proof.Machine

/-! PROOFS. The retirement of a space (R354) beside a forwarded signal (R123): its words have several home slices, and one that waits
behind a ticket is translated afresh, at all of them, when the slice of the ticket is retired. -/

namespace Sys2Proof.Machine

/-- A forwarded signal to word 1 of a record of space 5 at 0x8000: the word's home is slice 1, its tag pair's, at 0x8100, is slice 0. -/
def signalOverSlices : Packet :=
  { src := ⟨0, 1, 0⟩, dst := sliceNode 0 1, sid := 5, lid := 1, body := .fwd (mkFp 0 0 0x3000 4 1) 1 1 .none 0x8000 0 0 }

/-- Space 5 is being retired; its tables map its first GiB. At slice 1 a read of the page at 0x8000 holds a ticket, and the signal
waits behind it for the same page. -/
def retiringBesideSignal : State :=
  { State.reset with
    io := { sdel := 2 ^ 63 + 2 ^ 62 + 5 }
    dist := { launches := [(1, { Launch.none with lid := 1, sid := 5, root := 1, phase := .over })] }
    slices := [(0, {}), (1, { parked := [{ ticket := 0, kind := 2, pages := [8], behind := [(signalOverSlices, none)], pkt :=
      { src := ⟨0, 1, 0⟩, dst := sliceNode 0 1, sid := 5, lid := 1, body := .read 0x8000 8 .data .none } }] })]
    mem := [(40, 2), (47, 0x80), (0x2000, 4), (0x2007, 0x80), (0x4007, 0xf0)] }

/-- The fatal ticket at slice 1 releases the signal, which is translated at slice 0 too; slice 0, retired before, keeps the leaf. -/
theorem retiringBesideSignal_slice0_keepsLeaf :
    ((outState retiringBesideSignal (execSpaceRetireComplete retiringBesideSignal)).slice 0).stc =
      [{ sid := 5, level := 2, page := 0, leaf := 0xf000000000000000, comp := 0 }] := by decide +kernel

/-- Refutes O50 at its third part, that no slice holds a translation of a retired space: the retirement of slice 1 translates a request
of the space at slice 0, which is done already. -/
theorem not_daybreakAttestationAndRetiredSpaces : ¬ Obligations.DaybreakAttestationAndRetiredSpaces := by
  unfold Obligations.DaybreakAttestationAndRetiredSpaces
  rintro ⟨-, -, hretire, -⟩
  obtain ⟨-, -, -, hcomplete, -⟩ := hretire retiringBesideSignal .bmc 0
  obtain ⟨t, hexec, -, -, hclean⟩ := hcomplete (by decide +kernel)
  obtain ⟨-, hstc, -, -⟩ := hclean 0
  rw [exec_spaceRetireComplete] at hexec
  have hkept := retiringBesideSignal_slice0_keepsLeaf
  rw [hexec] at hkept
  exact hstc _ (hkept ▸ List.mem_singleton_self _) (by decide +kernel)

end Sys2Proof.Machine
